-- ==== Sys2Proof/Word.lean ====
section
/-! DEFINITION. The word types of the machine and their plainest arithmetic. -/

namespace Sys2Proof

/-- A 64-bit register word (R32). -/
abbrev Word := BitVec 64

/-- One byte of memory. -/
abbrev Byte := BitVec 8

/-- A v register: 32 lanes of 32 bits, lane `i` in bits `[32*i+31 : 32*i]` (R32, R129). -/
abbrev Vec := BitVec 1024

/-- A predicate register, one bit per lane (R32). -/
abbrev Pred := BitVec 32

/-- Lane `i` of a vector (R129). -/
def lane (v : Vec) (i : Nat) : BitVec 32 := v.extractLsb' (32 * i) 32

/-- The vector whose lane `i` is `f i`, for the lanes below `n`. -/
def packLanes (f : Nat → BitVec 32) : Nat → Vec
  | 0 => 0
  | n + 1 => packLanes f n ||| ((f n).setWidth 1024 <<< (32 * n))

/-- The vector whose lane `i` is `f i`. -/
def ofLanes (f : Nat → BitVec 32) : Vec := packLanes f 32

/-- The predicate whose bit `i` is `f i`, for the lanes below `n`. -/
def packBits (f : Nat → Bool) : Nat → Pred
  | 0 => 0
  | n + 1 => packBits f n ||| (if f n then 1#32 <<< n else 0)

/-- The predicate whose bit `i` is `f i`. -/
def ofBits (f : Nat → Bool) : Pred := packBits f 32

/-- The 1,024-bit lane mask of a predicate: all ones in the lanes whose bit is set. -/
def laneMask (p : Pred) : Vec := ofLanes fun i => if p.getLsbD i then BitVec.allOnes 32 else 0

/-- `old` with the lanes selected by `p` replaced by those of `new`. -/
def mergeLanes (p : Pred) (new old : Vec) : Vec :=
  (new &&& laneMask p) ||| (old &&& ~~~ laneMask p)

/-- All predicate lanes set. -/
def allLanes : Pred := BitVec.allOnes 32

/-- A one-bit number. -/
def b2n (b : Bool) : Nat := if b then 1 else 0

end Sys2Proof
end

