-- ==== Sys2Proof/Syntax.lean ====
section
/-! DEFINITION. The instructions and events of the AG-416: one constructor per row of the opcode table.
The first 212 constructors are operation slots of a bundle (R45, R83 to R84); the others are the events of
the package, which have no encoding. The S bit of a slot word belongs to the bundle, not to the instruction (R9). -/

namespace Sys2Proof

/-- A 5-bit register field naming a g or v register (R46). -/
abbrev Reg := BitVec 5
/-- A predicate field p0 to p15 (R46). -/
abbrev PReg := BitVec 4
/-- A t, z, w, epilogue or arrival-counter field, 0 to 7 (R46). -/
abbrev TReg := BitVec 3

/-- The energy class and guard of a T- or J-format slot (Table 2.8). -/
structure TH where
  /-- energy class E [21:20] -/
  e : BitVec 2
  /-- guard negation PN [19] -/
  pn : Bool
  /-- guard predicate PG [18:15] -/
  pg : BitVec 4
  deriving DecidableEq, Repr

/-- The ordering class and guard of an M-format slot (Table 2.8). -/
structure MH where
  /-- ordering class OC [21:18] -/
  oc : BitVec 4
  /-- guard predicate p0 to p7, PG [17:15] -/
  pg : BitVec 3
  deriving DecidableEq, Repr

/-- An immediate operand with the form it is written in (R50). -/
inductive Imm where
  /-- the 5-bit B field -/
  | b (v : BitVec 5)
  /-- one LX slot; B is 0 -/
  | lx1 (p : BitVec 28)
  /-- two LX slots, first payload and second payload; B is 0 -/
  | lx2 (p q : BitVec 28)
  deriving DecidableEq, Repr

/-- The index of an M-format address (R50): the B register, or an LX immediate. -/
inductive Idx where
  | reg (b : Reg)
  | lx1 (p : BitVec 28)
  | lx2 (p q : BitVec 28)
  deriving DecidableEq, Repr

/-- The immediate of MOVI (R103): two LX slots carry a full 64-bit value with A[2:0] and B. -/
inductive MovImm where
  | b (v : BitVec 5)
  | lx1 (p : BitVec 28)
  | lx2 (a : BitVec 3) (b : BitVec 5) (p q : BitVec 28)
  deriving DecidableEq, Repr

/-- The steps of the part: every slot and every event of the opcode table. -/
inductive Instr where
  /-- ADD (R95) -/
  | add (h : TH) (d a b : Reg)
  /-- SUB (R95) -/
  | sub (h : TH) (d a b : Reg)
  /-- ADDI (R95) -/
  | addi (h : TH) (d a : Reg) (i : Imm)
  /-- MUL (R95) -/
  | mul (h : TH) (d a b : Reg)
  /-- MULH (R95) -/
  | mulh (h : TH) (d a b : Reg)
  /-- MULHN (R95) -/
  | mulhn (h : TH) (d a b : Reg)
  /-- DIV (R96) -/
  | div (h : TH) (d a b : Reg)
  /-- DIVN (R96) -/
  | divn (h : TH) (d a b : Reg)
  /-- REM (R96) -/
  | rem (h : TH) (d a b : Reg)
  /-- REMN (R96) -/
  | remn (h : TH) (d a b : Reg)
  /-- AND (R97) -/
  | and (h : TH) (d a b : Reg)
  /-- OR (R97) -/
  | or (h : TH) (d a b : Reg)
  /-- XOR (R97) -/
  | xor (h : TH) (d a b : Reg)
  /-- ANDN (R97) -/
  | andn (h : TH) (d a b : Reg)
  /-- ANDI (R97) -/
  | andi (h : TH) (d a : Reg) (i : Imm)
  /-- ORI (R97) -/
  | ori (h : TH) (d a : Reg) (i : Imm)
  /-- XORI (R97) -/
  | xori (h : TH) (d a : Reg) (i : Imm)
  /-- SHL (R98) -/
  | shl (h : TH) (d a b : Reg)
  /-- SHR (R98) -/
  | shr (h : TH) (d a b : Reg)
  /-- SHA (R98) -/
  | sha (h : TH) (d a b : Reg)
  /-- SHLI (R98) -/
  | shli (h : TH) (d a : Reg) (i : Imm)
  /-- SHRI (R98) -/
  | shri (h : TH) (d a : Reg) (i : Imm)
  /-- SHAI (R98) -/
  | shai (h : TH) (d a : Reg) (i : Imm)
  /-- ROT (R98) -/
  | rot (h : TH) (d a b : Reg)
  /-- MIN (R99) -/
  | min (h : TH) (d a b : Reg)
  /-- MAX (R99) -/
  | max (h : TH) (d a b : Reg)
  /-- MINN (R99) -/
  | minn (h : TH) (d a b : Reg)
  /-- MAXN (R99) -/
  | maxn (h : TH) (d a b : Reg)
  /-- ABS (R99) -/
  | abs (h : TH) (d a : Reg)
  /-- CLZ (R99) -/
  | clz (h : TH) (d a : Reg)
  /-- CTZ (R99) -/
  | ctz (h : TH) (d a : Reg)
  /-- POPC (R99) -/
  | popc (h : TH) (d a : Reg)
  /-- BEXT (R100) -/
  | bext (h : TH) (d a : Reg) (i : Imm)
  /-- BINS (R100) -/
  | bins (h : TH) (d a : Reg) (i : Imm)
  /-- SEXT (R101) -/
  | sext (h : TH) (d a : Reg) (i : Imm)
  /-- ZEXT (R101) -/
  | zext (h : TH) (d a : Reg) (i : Imm)
  /-- SEL (R102) -/
  | sel (h : TH) (d a b : Reg)
  /-- MOVI (R103) -/
  | movi (h : TH) (d : Reg) (i : MovImm)
  /-- CMPEQ (R104) -/
  | cmpeq (h : TH) (d : PReg) (a b : Reg)
  /-- CMPNE (R104) -/
  | cmpne (h : TH) (d : PReg) (a b : Reg)
  /-- CMPLT (R104) -/
  | cmplt (h : TH) (d : PReg) (a b : Reg)
  /-- CMPLE (R104) -/
  | cmple (h : TH) (d : PReg) (a b : Reg)
  /-- CMPLTN (R104) -/
  | cmpltn (h : TH) (d : PReg) (a b : Reg)
  /-- CMPLEN (R104) -/
  | cmplen (h : TH) (d : PReg) (a b : Reg)
  /-- CMPEQI (R104) -/
  | cmpeqi (h : TH) (d : PReg) (a : Reg) (i : Imm)
  /-- CMPLTI (R104) -/
  | cmplti (h : TH) (d : PReg) (a : Reg) (i : Imm)
  /-- PAND (R105) -/
  | pand (h : TH) (d a b : PReg)
  /-- POR (R105) -/
  | por (h : TH) (d a b : PReg)
  /-- PXOR (R105) -/
  | pxor (h : TH) (d a b : PReg)
  /-- PANDN (R105) -/
  | pandn (h : TH) (d a b : PReg)
  /-- PANY (R105) -/
  | pany (h : TH) (d a : PReg)
  /-- PALL (R105) -/
  | pall (h : TH) (d a : PReg)
  /-- PSET (R105) -/
  | pset (h : TH) (d : PReg) (a : Reg)
  /-- PGET (R105) -/
  | pget (h : TH) (d : Reg) (a : PReg)
  /-- PCNT (R105) -/
  | pcnt (h : TH) (d : Reg) (a : PReg)
  /-- LDB (R112) -/
  | ldb (h : MH) (d a : Reg) (x : Idx)
  /-- LDBN (R112) -/
  | ldbn (h : MH) (d a : Reg) (x : Idx)
  /-- LDH (R112) -/
  | ldh (h : MH) (d a : Reg) (x : Idx)
  /-- LDHN (R112) -/
  | ldhn (h : MH) (d a : Reg) (x : Idx)
  /-- LDW (R112) -/
  | ldw (h : MH) (d a : Reg) (x : Idx)
  /-- LDWN (R112) -/
  | ldwn (h : MH) (d a : Reg) (x : Idx)
  /-- LDD (R112) -/
  | ldd (h : MH) (d a : Reg) (x : Idx)
  /-- STB (R113) -/
  | stb (h : MH) (d a : Reg) (x : Idx)
  /-- STH (R113) -/
  | sth (h : MH) (d a : Reg) (x : Idx)
  /-- STW (R113) -/
  | stw (h : MH) (d a : Reg) (x : Idx)
  /-- STD (R113) -/
  | std (h : MH) (d a : Reg) (x : Idx)
  /-- LDA (R116) -/
  | lda (h : MH) (d a : Reg) (x : Idx)
  /-- STL (R117) -/
  | stl (h : MH) (d a : Reg) (x : Idx)
  /-- AADD (R119) -/
  | aadd (h : MH) (d a : Reg) (x : Idx)
  /-- AAND (R119) -/
  | aand (h : MH) (d a : Reg) (x : Idx)
  /-- AOR (R119) -/
  | aor (h : MH) (d a : Reg) (x : Idx)
  /-- AXOR (R119) -/
  | axor (h : MH) (d a : Reg) (x : Idx)
  /-- AMIN (R119) -/
  | amin (h : MH) (d a : Reg) (x : Idx)
  /-- AMAX (R119) -/
  | amax (h : MH) (d a : Reg) (x : Idx)
  /-- ASWP (R119) -/
  | aswp (h : MH) (d a : Reg) (x : Idx)
  /-- ACAS (R120) -/
  | acas (h : MH) (d : BitVec 4) (a : Reg) (x : Idx)
  /-- FNC (R122) -/
  | fnc (pg : BitVec 3) (i : Imm)
  /-- PFL (R123) -/
  | pfl (pg : BitVec 3) (l : BitVec 2) (a : Reg) (x : Idx)
  /-- BR (R124) -/
  | br (h : TH) (x : BitVec 15)
  /-- BRL (R124) -/
  | brl (h : TH) (x : BitVec 15)
  /-- JR (R125) -/
  | jr (h : TH) (a : Reg)
  /-- JRL (R125) -/
  | jrl (h : TH) (a : Reg)
  /-- LOOP (R126) -/
  | loop (h : TH) (d : Reg) (i : Imm)
  /-- VMOV (R132) -/
  | vmov (h : TH) (d a : Reg)
  /-- VADD (R132) -/
  | vadd (h : TH) (d a b : Reg)
  /-- VSUB (R132) -/
  | vsub (h : TH) (d a b : Reg)
  /-- VADDS (R132) -/
  | vadds (h : TH) (d a b : Reg)
  /-- VSUBS (R132) -/
  | vsubs (h : TH) (d a b : Reg)
  /-- VMUL (R132) -/
  | vmul (h : TH) (d a b : Reg)
  /-- VMULH (R132) -/
  | vmulh (h : TH) (d a b : Reg)
  /-- VMAD (R132) -/
  | vmad (h : TH) (d a b : Reg)
  /-- VAND (R132) -/
  | vand (h : TH) (d a b : Reg)
  /-- VOR (R132) -/
  | vor (h : TH) (d a b : Reg)
  /-- VXOR (R132) -/
  | vxor (h : TH) (d a b : Reg)
  /-- VANDN (R132) -/
  | vandn (h : TH) (d a b : Reg)
  /-- VSHL (R132) -/
  | vshl (h : TH) (d a b : Reg)
  /-- VSHR (R132) -/
  | vshr (h : TH) (d a b : Reg)
  /-- VSHA (R132) -/
  | vsha (h : TH) (d a b : Reg)
  /-- VMIN (R132) -/
  | vmin (h : TH) (d a b : Reg)
  /-- VMAX (R132) -/
  | vmax (h : TH) (d a b : Reg)
  /-- VMINN (R132) -/
  | vminn (h : TH) (d a b : Reg)
  /-- VMAXN (R132) -/
  | vmaxn (h : TH) (d a b : Reg)
  /-- VABS (R132) -/
  | vabs (h : TH) (d a : Reg)
  /-- VCMPEQ (R133) -/
  | vcmpeq (h : TH) (d : PReg) (a b : Reg)
  /-- VCMPLT (R133) -/
  | vcmplt (h : TH) (d : PReg) (a b : Reg)
  /-- VCMPLE (R133) -/
  | vcmple (h : TH) (d : PReg) (a b : Reg)
  /-- VCMPLTN (R133) -/
  | vcmpltn (h : TH) (d : PReg) (a b : Reg)
  /-- VSEL (R134) -/
  | vsel (h : TH) (d a b : Reg)
  /-- VFADD (R135) -/
  | vfadd (h : TH) (d a b : Reg)
  /-- VFSUB (R135) -/
  | vfsub (h : TH) (d a b : Reg)
  /-- VFMUL (R135) -/
  | vfmul (h : TH) (d a b : Reg)
  /-- VFMA (R135) -/
  | vfma (h : TH) (d a b : Reg)
  /-- VFNMA (R135) -/
  | vfnma (h : TH) (d a b : Reg)
  /-- VFDIV (R135) -/
  | vfdiv (h : TH) (d a b : Reg)
  /-- VFSQRT (R135) -/
  | vfsqrt (h : TH) (d a : Reg)
  /-- VFMIN (R135) -/
  | vfmin (h : TH) (d a b : Reg)
  /-- VFMAX (R135) -/
  | vfmax (h : TH) (d a b : Reg)
  /-- VFCMPEQ (R135) -/
  | vfcmpeq (h : TH) (d : PReg) (a b : Reg)
  /-- VFCMPLT (R135) -/
  | vfcmplt (h : TH) (d : PReg) (a b : Reg)
  /-- VFCMPLE (R135) -/
  | vfcmple (h : TH) (d : PReg) (a b : Reg)
  /-- VDADD (R136) -/
  | vdadd (h : TH) (d a b : Reg)
  /-- VDMUL (R136) -/
  | vdmul (h : TH) (d a b : Reg)
  /-- VDFMA (R136) -/
  | vdfma (h : TH) (d a b : Reg)
  /-- VDDIV (R136) -/
  | vddiv (h : TH) (d a b : Reg)
  /-- VDCMPLT (R136) -/
  | vdcmplt (h : TH) (d : PReg) (a b : Reg)
  /-- VFCVT (R137) -/
  | vfcvt (h : TH) (d a : Reg) (k : BitVec 5)
  /-- VFTOI (R138) -/
  | vftoi (h : TH) (d a : Reg)
  /-- VITOF (R138) -/
  | vitof (h : TH) (d a : Reg)
  /-- VQNT (R140) -/
  | vqnt (h : TH) (d a : Reg) (k : BitVec 5)
  /-- VBEXP (R139) -/
  | vbexp (h : TH) (d a : Reg) (k : BitVec 5)
  /-- VPACK (R141) -/
  | vpack (h : TH) (d a : Reg) (k : BitVec 5)
  /-- VUNPK (R141) -/
  | vunpk (h : TH) (d a : Reg) (k : BitVec 5)
  /-- VLGENC (R142) -/
  | vlgenc (h : TH) (d a : Reg)
  /-- VLGDEC (R142) -/
  | vlgdec (h : TH) (d a : Reg)
  /-- VRADD (R143) -/
  | vradd (h : TH) (d a : Reg)
  /-- VRMAX (R143) -/
  | vrmax (h : TH) (d a : Reg)
  /-- VRMIN (R143) -/
  | vrmin (h : TH) (d a : Reg)
  /-- VPERM (R144) -/
  | vperm (h : TH) (d a b : Reg)
  /-- VROTL (R144) -/
  | vrotl (h : TH) (d a : Reg) (k : BitVec 5)
  /-- VIOTA (R144) -/
  | viota (h : TH) (d : Reg) (a : PReg)
  /-- VNRM (R145) -/
  | vnrm (h : TH) (d a : Reg)
  /-- VLD (R150) -/
  | vld (h : MH) (d a : Reg) (x : Idx)
  /-- VLDX8 (R150) -/
  | vldx8 (h : MH) (d a : Reg) (x : Idx)
  /-- VLDX16 (R150) -/
  | vldx16 (h : MH) (d a : Reg) (x : Idx)
  /-- VST (R151) -/
  | vst (h : MH) (d a : Reg) (x : Idx)
  /-- VSTN8 (R151) -/
  | vstn8 (h : MH) (d a : Reg) (x : Idx)
  /-- VSTN16 (R151) -/
  | vstn16 (h : MH) (d a : Reg) (x : Idx)
  /-- VLDS (R150) -/
  | vlds (pg : BitVec 3) (d a : Reg) (x : Idx)
  /-- VSTS (R151) -/
  | vsts (pg : BitVec 3) (d a : Reg) (x : Idx)
  /-- VGTH (R150) -/
  | vgth (h : MH) (d a b : Reg)
  /-- VSCT (R151) -/
  | vsct (h : MH) (d a b : Reg)
  /-- VLDA (R153) -/
  | vlda (h : MH) (d a : Reg) (x : Idx)
  /-- VSTL (R153) -/
  | vstl (h : MH) (d a : Reg) (x : Idx)
  /-- VAADD (R154) -/
  | vaadd (h : MH) (d a : Reg) (x : Idx)
  /-- VAMIN (R154) -/
  | vamin (h : MH) (d a : Reg) (x : Idx)
  /-- VAMAX (R154) -/
  | vamax (h : MH) (d a : Reg) (x : Idx)
  /-- VASWP (R154) -/
  | vaswp (h : MH) (d a : Reg) (x : Idx)
  /-- TCFG (R164) -/
  | tcfg (h : TH) (t : TReg) (a : Reg)
  /-- TSTAT (R166) -/
  | tstat (h : TH) (d : Reg) (t : TReg)
  /-- TFREE (R167) -/
  | tfree (h : TH) (t : TReg)
  /-- MMA (R171) -/
  | mma (e : BitVec 2) (z ta tb : TReg) (k : BitVec 6) (tr ac : Bool)
  /-- MMAT (R171) -/
  | mmat (e : BitVec 2) (z ta tb : TReg) (k : BitVec 6) (tr ac : Bool)
  /-- ZCLR (R172) -/
  | zclr (h : TH) (z : TReg) (i : Imm)
  /-- ZST (R173) -/
  | zst (e : BitVec 2) (z t u : TReg) (k : BitVec 6)
  /-- ZLD (R173) -/
  | zld (e : BitVec 2) (z t : TReg) (k : BitVec 6)
  /-- ZADD (R172) -/
  | zadd (h : TH) (d a : TReg)
  /-- ZFREE (R172) -/
  | zfree (h : TH) (z : TReg)
  /-- SQLD (R169) -/
  | sqld (h : TH) (q : Bool) (a : Reg)
  /-- SQCLR (R170) -/
  | sqclr (h : TH) (q : Bool)
  /-- CPIN (R176) -/
  | cpin (h : TH) (t : TReg) (a b : Reg)
  /-- CPOUT (R176) -/
  | cpout (h : TH) (t : TReg) (a b : Reg)
  /-- CPCL (R176) -/
  | cpcl (h : TH) (d a b : Reg)
  /-- CPMC (R177) -/
  | cpmc (h : TH) (t : TReg) (a b : Reg)
  /-- CPENC (R178) -/
  | cpenc (h : TH) (t : TReg) (a : Reg) (b : BitVec 4)
  /-- CPSC (R176) -/
  | cpsc (h : TH) (d a b : Reg)
  /-- TREL (R167) -/
  | trel (h : TH) (t : TReg)
  /-- ARRW_TILE (R168) -/
  | arrwTile (h : TH) (t : TReg)
  /-- ARRW_COUNTER (R168) -/
  | arrwCounter (h : TH) (n : TReg) (a : Reg)
  /-- PUBL (R179) -/
  | publ (h : TH) (a : Reg)
  /-- LICQ (R180) -/
  | licq (h : TH)
  /-- LICR (R180) -/
  | licr (h : TH)
  /-- LICX (R180) -/
  | licx (h : TH)
  /-- ZXT (R180) -/
  | zxt (h : TH)
  /-- VSPLAT (R156) -/
  | vsplat (h : TH) (d a : Reg)
  /-- VINS (R156) -/
  | vins (h : TH) (d a : Reg) (k : BitVec 5)
  /-- VEXT (R156) -/
  | vext (h : TH) (d a : Reg) (k : BitVec 5)
  /-- TWSET (R157) -/
  | twset (h : TH) (w : TReg) (a : Reg)
  /-- TWGET (R158) -/
  | twget (h : TH) (d : Reg) (w : TReg)
  /-- TWCLR (R157) -/
  | twclr (h : TH) (w : TReg)
  /-- WAYPT (R186) -/
  | waypt (e : BitVec 2)
  /-- TRAP (R187) -/
  | trap (h : TH) (i : Imm)
  /-- RESUME (R188) -/
  | resume (h : TH) (a : Reg)
  /-- CRD (R189) -/
  | crd (h : TH) (d : Reg) (n : BitVec 10)
  /-- CWR (R190) -/
  | cwr (h : TH) (d : Reg) (n : BitVec 10)
  /-- MONA (R191) -/
  | mona (h : TH) (a b : Reg)
  /-- MNAP (R193) -/
  | mnap (h : TH) (d a : Reg)
  /-- RQPG (R194) -/
  | rqpg (h : TH) (d a b : Reg)
  /-- TASKL (R196) -/
  | taskl (h : TH) (d a : Reg)
  /-- TASKR (R197) -/
  | taskr (h : TH)
  /-- DSIG (R198) -/
  | dsig (h : TH) (a : Reg)
  /-- CLAIM (R199) -/
  | claim (h : TH) (k : BitVec 2) (a : Reg)
  /-- YIELD (R200) -/
  | yield (h : TH)
  /-- SEAL (R203) -/
  | seal (h : TH) (a b : Reg)
  /-- UNSEAL (R204) -/
  | unseal (h : TH) (a b : Reg)
  /-- VJOIN (R205) -/
  | vjoin (h : TH)
  /-- DCFL_LINE (R206) -/
  | dcflLine (h : TH) (a : Reg)
  /-- DCFL_L2 (R206) -/
  | dcflL2 (h : TH)
  /-- DCINV_LINE (R206) -/
  | dcinvLine (h : TH) (a : Reg)
  /-- DCINV_L2 (R206) -/
  | dcinvL2 (h : TH)
  /-- ICINV (R207) -/
  | icinv (h : TH)
  /-- HALT (R201) -/
  | halt (h : TH)
  /-- EVSIG (R202) -/
  | evsig (h : TH) (a : Reg)
  /-- BUNDLE_FETCH (R374) -/
  | bundleFetch
  /-- WAYPOINT_COMMIT (R24) -/
  | waypointCommit (c : Nat) (x : Nat)
  /-- RESULT_LANDING (R14) -/
  | resultLanding (c : Nat) (x : Nat)
  /-- LONG_LOAD_RETURN (R17) -/
  | longLoadReturn (c : Nat) (x : Nat) (n : Nat)
  /-- STORE_PERFORMED (R23) -/
  | storePerformed (c : Nat) (x : Nat)
  /-- MONITOR_ARM_ESTABLISHED (R191) -/
  | monitorArmEstablished (c : Nat) (x : Nat)
  /-- MNAP_WAKE (R193) -/
  | mnapWake (c : Nat) (x : Nat)
  /-- MNAP_TIMEOUT (R193) -/
  | mnapTimeout (c : Nat) (x : Nat)
  /-- L2_WRITEBACK (R236) -/
  | l2Writeback (d : Nat) (ln : Nat)
  /-- TRAP_DELIVERY (R315) -/
  | trapDelivery (c : Nat) (x : Nat)
  /-- SCALE_ENTRY_WRITE (R169) -/
  | scaleEntryWrite (c : Nat) (q : Bool)
  /-- MATRIX_BEAT (R171) -/
  | matrixBeat (c : Nat)
  /-- DRAIN_COMPLETE (R173) -/
  | drainComplete (c : Nat)
  /-- COPY_DELIVERY (R174) -/
  | copyDelivery (c : Nat) (x : Nat) (n : Nat)
  /-- COPY_COMPLETE (R174) -/
  | copyComplete (c : Nat) (x : Nat) (n : Nat)
  /-- RELAY_DELIVERY (R177) -/
  | relayDelivery (c : Nat) (x : Nat) (n : Nat) (k : Nat)
  /-- RELAY_HOLD_TIMEOUT (R177) -/
  | relayHoldTimeout (c : Nat) (x : Nat) (n : Nat)
  /-- PUBL_SWAP (R179) -/
  | publSwap (c : Nat) (x : Nat)
  /-- PASSING_GAP_END (R275) -/
  | passingGapEnd (pr : Nat)
  /-- ZXT_MOVE_DONE (R298) -/
  | zxtMoveDone (c : Nat) (x : Nat)
  /-- PARKED_RESTORE_DONE (R299) -/
  | parkedRestoreDone (c : Nat) (x : Nat)
  /-- LICMODE_WRITE (R273) -/
  | licmodeWrite (pr : Nat) (v : Word)
  /-- LICMODE_TAKES_EFFECT (R273) -/
  | licmodeTakesEffect (pr : Nat)
  /-- BANKKEY_WRITE (R190) -/
  | bankkeyWrite (c : Nat) (x : Nat) (v : Word)
  /-- NWATCH_WRITE (R283) -/
  | nwatchWrite (c : Nat) (x : Nat) (v : Word)
  /-- REGISTER_WRITE (R41) -/
  | registerWrite (c : Nat) (x : Nat) (ix : BitVec 10) (v : Word)
  /-- CONTEXT_PREEMPTION (R31) -/
  | contextPreemption (c : Nat) (x : Nat)
  /-- PREDRAIN_EXPIRY (R31) -/
  | predrainExpiry (c : Nat) (x : Nat)
  /-- PREWAIT_EXPIRY (R323) -/
  | prewaitExpiry (cl : Nat)
  /-- CONTEXT_SAVE_DONE (R325) -/
  | contextSaveDone (sl : Nat)
  /-- CONTEXT_RESTORE (R331) -/
  | contextRestore (sl : Nat)
  /-- TASK_PLACEMENT (R225) -/
  | taskPlacement (t : Nat) (c : Nat) (x : Nat)
  /-- DIE_CLEAR_DONE (R235) -/
  | dieClearDone (d : Nat)
  /-- ALLOW_EXPIRY (R226) -/
  | allowExpiry (c : Nat) (x : Nat)
  /-- TASK_RETIREMENT (R201) -/
  | taskRetirement (c : Nat) (x : Nat)
  /-- TILE_PUBLICATION (R222) -/
  | tilePublication (t : Nat)
  /-- MANIFEST_ENTRY (R210) -/
  | manifestEntry
  /-- DSIG_APPLY (R198) -/
  | dsigApply
  /-- CARAVAN_DECODE (R266) -/
  | caravanDecode (sq : Nat) (q : Nat)
  /-- DEADLINE_EXPIRY (R265) -/
  | deadlineExpiry (sq : Nat) (q : Nat)
  /-- PAGE_REQUEST_SERVICE (R310) -/
  | pageRequestService
  /-- HOST_MEMORY_WRITE (R302) -/
  | hostMemoryWrite (ad : Nat) (sz : Nat) (v : Word)
  /-- HOST_MEMORY_READ (R302) -/
  | hostMemoryRead (ad : Nat) (sz : Nat)
  /-- MQTAIL_WRITE (R304) -/
  | mqtailWrite (n : Nat) (v : Word)
  /-- MQCTL_WRITE (R303) -/
  | mqctlWrite (n : Nat) (v : Word)
  /-- CMDTAIL_WRITE (R305) -/
  | cmdtailWrite (v : Word)
  /-- RING_BASE_WRITE (R302) -/
  | ringBaseWrite (rg : Nat) (v : Word)
  /-- RPACK_WRITE (R311) -/
  | rpackWrite (v : Word)
  /-- MANIFEST_QUEUE_TAKE (R303) -/
  | manifestQueueTake (n : Nat)
  /-- QUEUE_SWITCH (R306) -/
  | queueSwitch (qin : Nat) (qout : Nat)
  /-- TENSOR (R307) -/
  | tensor (w0 : Word) (w1 : Word) (w2 : Word)
  /-- MAP (R308) -/
  | map (w0 : Word) (w1 : Word) (w2 : Word)
  /-- EVICT (R308) -/
  | evict (w0 : Word) (w1 : Word) (w2 : Word)
  /-- EVICTION_DONE (R308) -/
  | evictionDone (w0 : Word) (w1 : Word)
  /-- DELETE (R307) -/
  | delete (w0 : Word) (w1 : Word) (w2 : Word)
  /-- REFUSE (R307) -/
  | refuse (w0 : Word) (w1 : Word) (w2 : Word)
  /-- EVACK (R307) -/
  | evack (w0 : Word) (w1 : Word) (w2 : Word)
  /-- RQPOOL (R309) -/
  | rqpool (w0 : Word) (w1 : Word) (w2 : Word)
  /-- REPORT_WRITE (R311) -/
  | reportWrite
  /-- POOL (R322) -/
  | pool (ms : Nat) (w1 : Word) (w2 : Word)
  /-- PREEMPT (R323) -/
  | preempt (ms : Nat) (w1 : Word) (w2 : Word)
  /-- MAILBOX_RESUME (R318) -/
  | mailboxResume (ms : Nat) (w1 : Word) (w2 : Word)
  /-- MAILBOX_END (R318) -/
  | mailboxEnd (ms : Nat) (w1 : Word) (w2 : Word)
  /-- THAW (R330) -/
  | thaw (ms : Nat) (w1 : Word) (w2 : Word)
  /-- MOVE (R331) -/
  | move (ms : Nat) (w1 : Word) (w2 : Word)
  /-- DIERESET (R346) -/
  | diereset (ms : Nat) (w1 : Word) (w2 : Word)
  /-- SETREG (R364) -/
  | setreg (ms : Nat) (w1 : Word) (w2 : Word)
  /-- GETREG (R364) -/
  | getreg (ms : Nat) (w1 : Word) (w3 : Word)
  /-- FABRIC_MANIFEST (R313) -/
  | fabricManifest (pid : Nat) (hs : BitVec 32) (img : List (BitVec 8))
  /-- RESQUERY (R313) -/
  | resquery (pid : Nat) (tids : List Nat)
  /-- RESIDENCY_REPORT_TIMER (R313) -/
  | residencyReportTimer
  /-- MESSAGE_ARRIVAL (R338) -/
  | messageArrival (a : Nat) (b : Nat) (sq : BitVec 32) (m : Word)
  /-- GAP_TIMEOUT (R338) -/
  | gapTimeout (a : Nat) (b : Nat)
  /-- RESEND_REQUEST (R338) -/
  | resendRequest (a : Nat) (b : Nat) (sq : BitVec 32)
  /-- CUMULATIVE_ACK (R339) -/
  | cumulativeAck (a : Nat) (b : Nat) (sq : BitVec 32)
  /-- PAIR_BROKEN (R339) -/
  | pairBroken (a : Nat) (b : Nat)
  /-- TRANSIT_DRAIN_TIMEOUT (R340) -/
  | transitDrainTimeout (d : Nat)
  /-- DIE_RESET_PHASE (R346) -/
  | dieResetPhase (d : Nat)
  /-- CHECKPOINT_CAPTURE (R345) -/
  | checkpointCapture (d : Nat)
  /-- DROVER_BLOCK_COPY (R343) -/
  | droverBlockCopy (d : Nat) (bk : Nat)
  /-- CHECKPOINT_COMMIT (R343) -/
  | checkpointCommit (d : Nat)
  /-- CLKPAT_WRITE (R352) -/
  | clkpatWrite (cl : Nat) (v : Word)
  /-- CLGRANT_WRITE (R351) -/
  | clgrantWrite (cl : Nat) (v : Word)
  /-- EPROF_WRITE (R351) -/
  | eprofWrite (d : Nat) (n : Nat) (v : Word)
  /-- RBCTL_WRITE (R354) -/
  | rbctlWrite (c : Nat) (v : Word)
  /-- BANK_TRANSITION_DONE (R354) -/
  | bankTransitionDone (c : Nat) (b : Nat)
  /-- MCLKF_WRITE (R353) -/
  | mclkfWrite (st : Nat) (v : Word)
  /-- CLOCK_CHANGE (R353) -/
  | clockChange (st : Nat)
  /-- QUIESCE (R360) -/
  | quiesce (cl : Nat)
  /-- RETAIN (R360) -/
  | retain (cl : Nat)
  /-- CLKOFF (R360) -/
  | clkoff (cl : Nat)
  /-- RAILOFF (R360) -/
  | railoff (cl : Nat)
  /-- CLUSTER_RAIL_ON (R360) -/
  | clusterRailOn (cl : Nat)
  /-- CLUSTER_CLOCK_RESTART (R360) -/
  | clusterClockRestart (cl : Nat)
  /-- CLUSTER_RETENTION_EXIT (R360) -/
  | clusterRetentionExit (cl : Nat)
  /-- RUN (R360) -/
  | run (cl : Nat)
  /-- CLUSTER_STEP_DONE (R360) -/
  | clusterStepDone (cl : Nat)
  /-- WAKESET_WRITE (R362) -/
  | wakesetWrite (d : Nat) (v : Word)
  /-- MANAGEMENT_WAKE (R362) -/
  | managementWake (c : Nat) (x : Nat)
  /-- THERMAL_POLL (R355) -/
  | thermalPoll (raw : List (BitVec 16))
  /-- HEALTH_WRITE (R368) -/
  | healthWrite (v : Word)
  /-- LOCATED_WINDOW_RESET (R366) -/
  | locatedWindowReset
  /-- FABCTL_WRITE (R371) -/
  | fabctlWrite (v : Word)
  /-- FABRIC_MODE_CHANGE (R371) -/
  | fabricModeChange
  /-- PACKAGE_RESET (R337) -/
  | packageReset
  /-- COMMAND_RING_TAKE (R305) -/
  | commandRingTake
  /-- L1_EVICTION (R236) -/
  | l1Eviction (c : Nat) (ln : Nat)
  /-- SOFT_ERROR (R293) -/
  | softError (ad : Nat) (xr : BitVec 8)
  deriving DecidableEq, Repr

end Sys2Proof
end

