-- ==== Sys2Proof/Decode.lean ====
section
/-! DEFINITION. Decoding a slot word with its LX payloads into an instruction, or the reason of Table 4.8 that
refuses it; the encoder written from the same formats; and a bundle's words. Total on any word. -/

namespace Sys2Proof

/-- Field `[lo+n-1 : lo]` of a slot word (R6). -/
def fld (w lo n : Nat) : BitVec n := BitVec.ofNat n (w / 2 ^ lo)

/-- Class field [30:28] (R45). -/
def classOf (w : Nat) : Nat := w / 2 ^ 28 % 8
/-- Opcode field [27:22] (R83). -/
def opOf (w : Nat) : Nat := w / 2 ^ 22 % 64
/-- S, bit 31 (R9). -/
def lastOf (w : Nat) : Bool := w / 2 ^ 31 % 2 == 1

/-- Energy class and guard of a T- or J-format word. -/
def hdT (w : Nat) : TH := { e := fld w 20 2, pn := w / 2 ^ 19 % 2 == 1, pg := fld w 15 4 }
/-- Ordering class and guard of an M-format word. -/
def hdM (w : Nat) : MH := { oc := fld w 18 4, pg := fld w 15 3 }
/-- D, A and B as numbers. -/
def nD (w : Nat) : Nat := w / 2 ^ 10 % 32
def nA (w : Nat) : Nat := w / 2 ^ 5 % 32
def nB (w : Nat) : Nat := w % 32
def fD (w : Nat) : Reg := fld w 10 5
def fA (w : Nat) : Reg := fld w 5 5
def fB (w : Nat) : Reg := fld w 0 5

/-- The checks of stage 2 of Table 4.8 in their order: an unused field (0x11), a v register (0x12), a p, t, z or w
field (0x13), an LX slot (0x14). -/
def chk (c11 c12 c13 c14 : Bool) (i : Instr) : Except Nat Instr :=
  if c11 then .error 0x11 else if c12 then .error 0x12 else if c13 then .error 0x13
  else if c14 then .error 0x14 else .ok i

/-- At most two LX slots follow a slot (R10); with one, B is 0 (R50). -/
def immOf (w : Nat) : List (BitVec 28) → Imm
  | [] => .b (fB w)
  | [p] => .lx1 p
  | p :: q :: _ => .lx2 p q
def idxOf (w : Nat) : List (BitVec 28) → Idx
  | [] => .reg (fB w)
  | [p] => .lx1 p
  | p :: q :: _ => .lx2 p q

/-- B must be 0 when LX slots follow (R50). -/
def immBad (w : Nat) (lx : List (BitVec 28)) : Bool := !lx.isEmpty && nB w != 0

/-- The value of an immediate, sign-extended (R50). -/
def Imm.sval : Imm → Word
  | .b v => v.signExtend 64
  | .lx1 p => p.signExtend 64
  | .lx2 p q => (q ++ p).signExtend 64

/-- The value of an immediate, zero-extended (R97). -/
def Imm.zval : Imm → Word
  | .b v => v.setWidth 64
  | .lx1 p => p.setWidth 64
  | .lx2 p q => (q ++ p).setWidth 64

/-- The value MOVI loads (R103). -/
def MovImm.val : MovImm → Word
  | .b v => v.signExtend 64
  | .lx1 p => p.signExtend 64
  | .lx2 a v p q => a ++ v ++ q ++ p

/-- MOVI: its A and B fields depend on how many LX slots follow (R103). -/
def decMovi (w : Nat) (lx : List (BitVec 28)) : Except Nat Instr :=
  match lx with
  | [] => if nA w != 0 then .error 0x11 else .ok (.movi (hdT w) (fD w) (.b (fB w)))
  | [p] => if nA w != 0 || nB w != 0 then .error 0x11 else .ok (.movi (hdT w) (fD w) (.lx1 p))
  | p :: q :: _ =>
    if nA w / 8 != 0 then .error 0x11
    else .ok (.movi (hdT w) (fD w) (.lx2 (fld w 5 3) (fB w) p q))

/-- A ZCLR immediate lies in -512 to 511 (R163). -/
def zimmBad (i : Imm) : Bool := i.sval.toInt < -512 || i.sval.toInt > 511

/-- FNC: immediate bits above 15, D, A and OC must be 0 (R122). -/
def fncBad (w : Nat) (i : Imm) : Bool := nD w != 0 || nA w != 0 || w / 2 ^ 18 % 16 != 0 || i.zval.toNat ≥ 65536

/-- An E-format word: mode bits 4:2 are reserved (0x11); ACC on an opcode other than MMA and MMAT is 0x11 and TB is
0x15 (R49, R163). `extra` is any further unused field. -/
def decE (mm extra : Bool) (w : Nat) (lx : List (BitVec 28)) (i : Instr) : Except Nat Instr :=
  if extra || w / 4 % 8 != 0 || (!mm && w % 2 == 1) then .error 0x11
  else if !lx.isEmpty then .error 0x14
  else if !mm && w / 2 % 2 == 1 then .error 0x15
  else .ok i


/-- The decoder of the ggg operand form. -/
def decGgg (mk : TH → Reg → Reg → Reg → Instr) (w : Nat) (lx : List (BitVec 28)) : Except Nat Instr :=
  chk (false) (false) (false) (!lx.isEmpty) (mk (hdT w) (fD w) (fA w) (fB w))

/-- The decoder of the ggi operand form. -/
def decGgi (mk : TH → Reg → Reg → Imm → Instr) (w : Nat) (lx : List (BitVec 28)) : Except Nat Instr :=
  chk (immBad w lx) (false) (false) (false) (mk (hdT w) (fD w) (fA w) (immOf w lx))

/-- The decoder of the gg operand form. -/
def decGg (mk : TH → Reg → Reg → Instr) (w : Nat) (lx : List (BitVec 28)) : Except Nat Instr :=
  chk (nB w != 0) (false) (false) (!lx.isEmpty) (mk (hdT w) (fD w) (fA w))

/-- The decoder of the pgg operand form. -/
def decPgg (mk : TH → PReg → Reg → Reg → Instr) (w : Nat) (lx : List (BitVec 28)) : Except Nat Instr :=
  chk (false) (false) (nD w ≥ 16) (!lx.isEmpty) (mk (hdT w) (fld w 10 4) (fA w) (fB w))

/-- The decoder of the pgi operand form. -/
def decPgi (mk : TH → PReg → Reg → Imm → Instr) (w : Nat) (lx : List (BitVec 28)) : Except Nat Instr :=
  chk (immBad w lx) (false) (nD w ≥ 16) (false) (mk (hdT w) (fld w 10 4) (fA w) (immOf w lx))

/-- The decoder of the ppp operand form. -/
def decPpp (mk : TH → PReg → PReg → PReg → Instr) (w : Nat) (lx : List (BitVec 28)) : Except Nat Instr :=
  chk (false) (false) (nD w ≥ 16 || nA w ≥ 16 || nB w ≥ 16) (!lx.isEmpty) (mk (hdT w) (fld w 10 4) (fld w 5 4) (fld w 0 4))

/-- The decoder of the pp operand form. -/
def decPp (mk : TH → PReg → PReg → Instr) (w : Nat) (lx : List (BitVec 28)) : Except Nat Instr :=
  chk (nB w != 0) (false) (nD w ≥ 16 || nA w ≥ 16) (!lx.isEmpty) (mk (hdT w) (fld w 10 4) (fld w 5 4))

/-- The decoder of the pg operand form. -/
def decPg (mk : TH → PReg → Reg → Instr) (w : Nat) (lx : List (BitVec 28)) : Except Nat Instr :=
  chk (nB w != 0) (false) (nD w ≥ 16) (!lx.isEmpty) (mk (hdT w) (fld w 10 4) (fA w))

/-- The decoder of the gp operand form. -/
def decGp (mk : TH → Reg → PReg → Instr) (w : Nat) (lx : List (BitVec 28)) : Except Nat Instr :=
  chk (nB w != 0) (false) (nA w ≥ 16) (!lx.isEmpty) (mk (hdT w) (fD w) (fld w 5 4))

/-- The decoder of the mem operand form. -/
def decMem (mk : MH → Reg → Reg → Idx → Instr) (w : Nat) (lx : List (BitVec 28)) : Except Nat Instr :=
  chk (immBad w lx) (false) (false) (false) (mk (hdM w) (fD w) (fA w) (idxOf w lx))

/-- The decoder of the acas operand form. -/
def decAcas (mk : MH → BitVec 4 → Reg → Idx → Instr) (w : Nat) (lx : List (BitVec 28)) : Except Nat Instr :=
  chk (immBad w lx || nD w % 2 == 1) (false) (false) (false) (mk (hdM w) (fld w 11 4) (fA w) (idxOf w lx))

/-- The decoder of the fnc operand form. -/
def decFnc (mk : BitVec 3 → Imm → Instr) (w : Nat) (lx : List (BitVec 28)) : Except Nat Instr :=
  chk (immBad w lx || fncBad w (immOf w lx)) (false) (false) (false) (mk (fld w 15 3) (immOf w lx))

/-- The decoder of the pfl operand form. -/
def decPfl (mk : BitVec 3 → BitVec 2 → Reg → Idx → Instr) (w : Nat) (lx : List (BitVec 28)) : Except Nat Instr :=
  chk (immBad w lx || nD w ≥ 3 || w / 2 ^ 18 % 16 != 0) (false) (false) (false) (mk (fld w 15 3) (fld w 10 2) (fA w) (idxOf w lx))

/-- The decoder of the j operand form. -/
def decJ (mk : TH → BitVec 15 → Instr) (w : Nat) (lx : List (BitVec 28)) : Except Nat Instr :=
  chk (false) (false) (false) (!lx.isEmpty) (mk (hdT w) (fld w 0 15))

/-- The decoder of the jr operand form. -/
def decJr (mk : TH → Reg → Instr) (w : Nat) (lx : List (BitVec 28)) : Except Nat Instr :=
  chk (nD w != 0 || nB w != 0) (false) (false) (!lx.isEmpty) (mk (hdT w) (fA w))

/-- The decoder of the loop operand form. -/
def decLoop (mk : TH → Reg → Imm → Instr) (w : Nat) (lx : List (BitVec 28)) : Except Nat Instr :=
  chk (immBad w lx || nA w != 0) (false) (false) (false) (mk (hdT w) (fD w) (immOf w lx))

/-- The decoder of the vv operand form. -/
def decVv (mk : TH → Reg → Reg → Instr) (vc : Nat) (w : Nat) (lx : List (BitVec 28)) : Except Nat Instr :=
  chk (nB w != 0) (nD w ≥ vc || nA w ≥ vc) (false) (!lx.isEmpty) (mk (hdT w) (fD w) (fA w))

/-- The decoder of the vvv operand form. -/
def decVvv (mk : TH → Reg → Reg → Reg → Instr) (vc : Nat) (w : Nat) (lx : List (BitVec 28)) : Except Nat Instr :=
  chk (false) (nD w ≥ vc || nA w ≥ vc || nB w ≥ vc) (false) (!lx.isEmpty) (mk (hdT w) (fD w) (fA w) (fB w))

/-- The decoder of the pvv operand form. -/
def decPvv (mk : TH → PReg → Reg → Reg → Instr) (vc : Nat) (w : Nat) (lx : List (BitVec 28)) : Except Nat Instr :=
  chk (false) (nA w ≥ vc || nB w ≥ vc) (nD w ≥ 16) (!lx.isEmpty) (mk (hdT w) (fld w 10 4) (fA w) (fB w))

/-- The decoder of the vvs4 operand form. -/
def decVvs4 (mk : TH → Reg → Reg → BitVec 5 → Instr) (vc : Nat) (w : Nat) (lx : List (BitVec 28)) : Except Nat Instr :=
  chk (nB w ≥ 4) (nD w ≥ vc || nA w ≥ vc) (false) (!lx.isEmpty) (mk (hdT w) (fD w) (fA w) (fB w))

/-- The decoder of the vvs3 operand form. -/
def decVvs3 (mk : TH → Reg → Reg → BitVec 5 → Instr) (vc : Nat) (w : Nat) (lx : List (BitVec 28)) : Except Nat Instr :=
  chk (nB w ≥ 3) (nD w ≥ vc || nA w ≥ vc) (false) (!lx.isEmpty) (mk (hdT w) (fD w) (fA w) (fB w))

/-- The decoder of the vvs32 operand form. -/
def decVvs32 (mk : TH → Reg → Reg → BitVec 5 → Instr) (vc : Nat) (w : Nat) (lx : List (BitVec 28)) : Except Nat Instr :=
  chk (false) (nD w ≥ vc || nA w ≥ vc) (false) (!lx.isEmpty) (mk (hdT w) (fD w) (fA w) (fB w))

/-- The decoder of the vp operand form. -/
def decVp (mk : TH → Reg → PReg → Instr) (vc : Nat) (w : Nat) (lx : List (BitVec 28)) : Except Nat Instr :=
  chk (nB w != 0) (nD w ≥ vc) (nA w ≥ 16) (!lx.isEmpty) (mk (hdT w) (fD w) (fld w 5 4))

/-- The decoder of the vmem operand form. -/
def decVmem (mk : MH → Reg → Reg → Idx → Instr) (vc : Nat) (w : Nat) (lx : List (BitVec 28)) : Except Nat Instr :=
  chk (immBad w lx) (nD w ≥ vc) (false) (false) (mk (hdM w) (fD w) (fA w) (idxOf w lx))

/-- The decoder of the vmem0 operand form. -/
def decVmem0 (mk : BitVec 3 → Reg → Reg → Idx → Instr) (vc : Nat) (w : Nat) (lx : List (BitVec 28)) : Except Nat Instr :=
  chk (immBad w lx || w / 2 ^ 18 % 16 != 0) (nD w ≥ vc) (false) (false) (mk (fld w 15 3) (fD w) (fA w) (idxOf w lx))

/-- The decoder of the vidx operand form. -/
def decVidx (mk : MH → Reg → Reg → Reg → Instr) (vc : Nat) (w : Nat) (lx : List (BitVec 28)) : Except Nat Instr :=
  chk (false) (nD w ≥ vc || nB w ≥ vc) (false) (!lx.isEmpty) (mk (hdM w) (fD w) (fA w) (fB w))

/-- The decoder of the tg operand form. -/
def decTg (mk : TH → TReg → Reg → Instr) (w : Nat) (lx : List (BitVec 28)) : Except Nat Instr :=
  chk (nB w != 0) (false) (nD w ≥ 8) (!lx.isEmpty) (mk (hdT w) (fld w 10 3) (fA w))

/-- The decoder of the gt operand form. -/
def decGt (mk : TH → Reg → TReg → Instr) (w : Nat) (lx : List (BitVec 28)) : Except Nat Instr :=
  chk (nB w != 0) (false) (nA w ≥ 8) (!lx.isEmpty) (mk (hdT w) (fD w) (fld w 5 3))

/-- The decoder of the t operand form. -/
def decT (mk : TH → TReg → Instr) (w : Nat) (lx : List (BitVec 28)) : Except Nat Instr :=
  chk (nA w != 0 || nB w != 0) (false) (nD w ≥ 8) (!lx.isEmpty) (mk (hdT w) (fld w 10 3))

/-- The decoder of the zi operand form. -/
def decZi (mk : TH → TReg → Imm → Instr) (w : Nat) (lx : List (BitVec 28)) : Except Nat Instr :=
  chk (immBad w lx || nA w != 0 || zimmBad (immOf w lx)) (false) (nD w ≥ 8) (false) (mk (hdT w) (fld w 10 3) (immOf w lx))

/-- The decoder of the zz operand form. -/
def decZz (mk : TH → TReg → TReg → Instr) (w : Nat) (lx : List (BitVec 28)) : Except Nat Instr :=
  chk (nB w != 0) (false) (nD w ≥ 8 || nA w ≥ 8) (!lx.isEmpty) (mk (hdT w) (fld w 10 3) (fld w 5 3))

/-- The decoder of the z operand form. -/
def decZ (mk : TH → TReg → Instr) (w : Nat) (lx : List (BitVec 28)) : Except Nat Instr :=
  chk (nA w != 0 || nB w != 0) (false) (nD w ≥ 8) (!lx.isEmpty) (mk (hdT w) (fld w 10 3))

/-- The decoder of the qg operand form. -/
def decQg (mk : TH → Bool → Reg → Instr) (w : Nat) (lx : List (BitVec 28)) : Except Nat Instr :=
  chk (nB w != 0 || nD w ≥ 2) (false) (false) (!lx.isEmpty) (mk (hdT w) (nD w == 1) (fA w))

/-- The decoder of the q operand form. -/
def decQ (mk : TH → Bool → Instr) (w : Nat) (lx : List (BitVec 28)) : Except Nat Instr :=
  chk (nA w != 0 || nB w != 0 || nD w ≥ 2) (false) (false) (!lx.isEmpty) (mk (hdT w) (nD w == 1))

/-- The decoder of the tgg operand form. -/
def decTgg (mk : TH → TReg → Reg → Reg → Instr) (w : Nat) (lx : List (BitVec 28)) : Except Nat Instr :=
  chk (false) (false) (nD w ≥ 8) (!lx.isEmpty) (mk (hdT w) (fld w 10 3) (fA w) (fB w))

/-- The decoder of the tgg2 operand form. -/
def decTgg2 (mk : TH → TReg → Reg → BitVec 4 → Instr) (w : Nat) (lx : List (BitVec 28)) : Except Nat Instr :=
  chk (nB w % 2 == 1) (false) (nD w ≥ 8) (!lx.isEmpty) (mk (hdT w) (fld w 10 3) (fA w) (fld w 1 4))

/-- The decoder of the arrwT operand form. -/
def decArrwT (mk : TH → TReg → Instr) (w : Nat) (lx : List (BitVec 28)) : Except Nat Instr :=
  chk (nA w != 0 || nB w != 0) (false) (false) (!lx.isEmpty) (mk (hdT w) (fld w 10 3))

/-- The decoder of the arrwC operand form. -/
def decArrwC (mk : TH → TReg → Reg → Instr) (w : Nat) (lx : List (BitVec 28)) : Except Nat Instr :=
  chk (nB w != 0) (false) (false) (!lx.isEmpty) (mk (hdT w) (fld w 10 3) (fA w))

/-- The decoder of the a operand form. -/
def decA (mk : TH → Reg → Instr) (w : Nat) (lx : List (BitVec 28)) : Except Nat Instr :=
  chk (nD w != 0 || nB w != 0) (false) (false) (!lx.isEmpty) (mk (hdT w) (fA w))

/-- The decoder of the n operand form. -/
def decN (mk : TH → Instr) (w : Nat) (lx : List (BitVec 28)) : Except Nat Instr :=
  chk (nD w != 0 || nA w != 0 || nB w != 0) (false) (false) (!lx.isEmpty) (mk (hdT w))

/-- The decoder of the vg operand form. -/
def decVg (mk : TH → Reg → Reg → Instr) (vc : Nat) (w : Nat) (lx : List (BitVec 28)) : Except Nat Instr :=
  chk (nB w != 0) (nD w ≥ vc) (false) (!lx.isEmpty) (mk (hdT w) (fD w) (fA w))

/-- The decoder of the vgk operand form. -/
def decVgk (mk : TH → Reg → Reg → BitVec 5 → Instr) (vc : Nat) (w : Nat) (lx : List (BitVec 28)) : Except Nat Instr :=
  chk (false) (nD w ≥ vc) (false) (!lx.isEmpty) (mk (hdT w) (fD w) (fA w) (fB w))

/-- The decoder of the gvk operand form. -/
def decGvk (mk : TH → Reg → Reg → BitVec 5 → Instr) (vc : Nat) (w : Nat) (lx : List (BitVec 28)) : Except Nat Instr :=
  chk (false) (nA w ≥ vc) (false) (!lx.isEmpty) (mk (hdT w) (fD w) (fA w) (fB w))

/-- The decoder of the wg operand form. -/
def decWg (mk : TH → TReg → Reg → Instr) (w : Nat) (lx : List (BitVec 28)) : Except Nat Instr :=
  chk (nB w != 0) (false) (nD w ≥ 8) (!lx.isEmpty) (mk (hdT w) (fld w 10 3) (fA w))

/-- The decoder of the gw operand form. -/
def decGw (mk : TH → Reg → TReg → Instr) (w : Nat) (lx : List (BitVec 28)) : Except Nat Instr :=
  chk (nB w != 0) (false) (nA w ≥ 8) (!lx.isEmpty) (mk (hdT w) (fD w) (fld w 5 3))

/-- The decoder of the w operand form. -/
def decW (mk : TH → TReg → Instr) (w : Nat) (lx : List (BitVec 28)) : Except Nat Instr :=
  chk (nA w != 0 || nB w != 0) (false) (nD w ≥ 8) (!lx.isEmpty) (mk (hdT w) (fld w 10 3))

/-- The decoder of the waypt operand form. -/
def decWaypt (mk : BitVec 2 → Instr) (w : Nat) (lx : List (BitVec 28)) : Except Nat Instr :=
  chk (w / 2 ^ 15 % 32 != 0 || nD w != 0 || nA w != 0 || nB w != 0) (false) (false) (!lx.isEmpty) (mk (fld w 20 2))

/-- The decoder of the i operand form. -/
def decI (mk : TH → Imm → Instr) (w : Nat) (lx : List (BitVec 28)) : Except Nat Instr :=
  chk (immBad w lx || nD w != 0 || nA w != 0) (false) (false) (false) (mk (hdT w) (immOf w lx))

/-- The decoder of the cr operand form. -/
def decCr (mk : TH → Reg → BitVec 10 → Instr) (w : Nat) (lx : List (BitVec 28)) : Except Nat Instr :=
  chk (false) (false) (false) (!lx.isEmpty) (mk (hdT w) (fD w) (fld w 0 10))

/-- The decoder of the ab operand form. -/
def decAb (mk : TH → Reg → Reg → Instr) (w : Nat) (lx : List (BitVec 28)) : Except Nat Instr :=
  chk (nD w != 0) (false) (false) (!lx.isEmpty) (mk (hdT w) (fA w) (fB w))

/-- The decoder of the claim operand form. -/
def decClaim (mk : TH → BitVec 2 → Reg → Instr) (w : Nat) (lx : List (BitVec 28)) : Except Nat Instr :=
  chk (nD w ≥ 3 || nB w != 0) (false) (false) (!lx.isEmpty) (mk (hdT w) (fld w 10 2) (fA w))

/-- The decoder of the dcL operand form. -/
def decDcL (mk : TH → Reg → Instr) (w : Nat) (lx : List (BitVec 28)) : Except Nat Instr :=
  chk (nB w != 0) (false) (false) (!lx.isEmpty) (mk (hdT w) (fA w))

/-- The decoder of the dc2 operand form. -/
def decDc2 (mk : TH → Instr) (w : Nat) (lx : List (BitVec 28)) : Except Nat Instr :=
  chk (nA w != 0 || nB w != 0) (false) (false) (!lx.isEmpty) (mk (hdT w))

/-- Class 0, opcodes of Table 4.1 (R83). -/
def decodeSa (w : Nat) (lx : List (BitVec 28)) : Except Nat Instr :=
  match opOf w with
  | 0 => decGgg .add w lx
  | 1 => decGgg .sub w lx
  | 2 => decGgi .addi w lx
  | 3 => decGgg .mul w lx
  | 4 => decGgg .mulh w lx
  | 5 => decGgg .mulhn w lx
  | 6 => decGgg .div w lx
  | 7 => decGgg .divn w lx
  | 8 => decGgg .rem w lx
  | 9 => decGgg .remn w lx
  | 10 => decGgg .and w lx
  | 11 => decGgg .or w lx
  | 12 => decGgg .xor w lx
  | 13 => decGgg .andn w lx
  | 14 => decGgi .andi w lx
  | 15 => decGgi .ori w lx
  | 16 => decGgi .xori w lx
  | 17 => decGgg .shl w lx
  | 18 => decGgg .shr w lx
  | 19 => decGgg .sha w lx
  | 20 => decGgi .shli w lx
  | 21 => decGgi .shri w lx
  | 22 => decGgi .shai w lx
  | 23 => decGgg .rot w lx
  | 24 => decGgg .min w lx
  | 25 => decGgg .max w lx
  | 26 => decGgg .minn w lx
  | 27 => decGgg .maxn w lx
  | 28 => decGg .abs w lx
  | 29 => decGg .clz w lx
  | 30 => decGg .ctz w lx
  | 31 => decGg .popc w lx
  | 32 => decGgi .bext w lx
  | 33 => decGgi .bins w lx
  | 34 => decGgi .sext w lx
  | 35 => decGgi .zext w lx
  | 36 => decGgg .sel w lx
  | 37 => decMovi w lx
  | 38 => decPgg .cmpeq w lx
  | 39 => decPgg .cmpne w lx
  | 40 => decPgg .cmplt w lx
  | 41 => decPgg .cmple w lx
  | 42 => decPgg .cmpltn w lx
  | 43 => decPgg .cmplen w lx
  | 44 => decPgi .cmpeqi w lx
  | 45 => decPgi .cmplti w lx
  | 46 => decPpp .pand w lx
  | 47 => decPpp .por w lx
  | 48 => decPpp .pxor w lx
  | 49 => decPpp .pandn w lx
  | 50 => decPp .pany w lx
  | 51 => decPp .pall w lx
  | 52 => decPg .pset w lx
  | 53 => decGp .pget w lx
  | 54 => decGp .pcnt w lx
  | _ => .error 0x10

/-- Class 1, opcodes of Table 4.2 (R83). -/
def decodeSm (w : Nat) (lx : List (BitVec 28)) : Except Nat Instr :=
  match opOf w with
  | 0 => decMem .ldb w lx
  | 1 => decMem .ldbn w lx
  | 2 => decMem .ldh w lx
  | 3 => decMem .ldhn w lx
  | 4 => decMem .ldw w lx
  | 5 => decMem .ldwn w lx
  | 6 => decMem .ldd w lx
  | 7 => decMem .stb w lx
  | 8 => decMem .sth w lx
  | 9 => decMem .stw w lx
  | 10 => decMem .std w lx
  | 11 => decMem .lda w lx
  | 12 => decMem .stl w lx
  | 13 => decMem .aadd w lx
  | 14 => decMem .aand w lx
  | 15 => decMem .aor w lx
  | 16 => decMem .axor w lx
  | 17 => decMem .amin w lx
  | 18 => decMem .amax w lx
  | 19 => decMem .aswp w lx
  | 20 => decAcas .acas w lx
  | 21 => decFnc .fnc w lx
  | 22 => decPfl .pfl w lx
  | 23 => decJ .br w lx
  | 24 => decJ .brl w lx
  | 25 => decJr .jr w lx
  | 26 => decJr .jrl w lx
  | 27 => decLoop .loop w lx
  | _ => .error 0x10

/-- Class 2, opcodes of Table 4.3 (R83). -/
def decodeVa (vc w : Nat) (lx : List (BitVec 28)) : Except Nat Instr :=
  match opOf w with
  | 0 => decVv .vmov vc w lx
  | 1 => decVvv .vadd vc w lx
  | 2 => decVvv .vsub vc w lx
  | 3 => decVvv .vadds vc w lx
  | 4 => decVvv .vsubs vc w lx
  | 5 => decVvv .vmul vc w lx
  | 6 => decVvv .vmulh vc w lx
  | 7 => decVvv .vmad vc w lx
  | 8 => decVvv .vand vc w lx
  | 9 => decVvv .vor vc w lx
  | 10 => decVvv .vxor vc w lx
  | 11 => decVvv .vandn vc w lx
  | 12 => decVvv .vshl vc w lx
  | 13 => decVvv .vshr vc w lx
  | 14 => decVvv .vsha vc w lx
  | 15 => decVvv .vmin vc w lx
  | 16 => decVvv .vmax vc w lx
  | 17 => decVvv .vminn vc w lx
  | 18 => decVvv .vmaxn vc w lx
  | 19 => decVv .vabs vc w lx
  | 20 => decPvv .vcmpeq vc w lx
  | 21 => decPvv .vcmplt vc w lx
  | 22 => decPvv .vcmple vc w lx
  | 23 => decPvv .vcmpltn vc w lx
  | 24 => decVvv .vsel vc w lx
  | 25 => decVvv .vfadd vc w lx
  | 26 => decVvv .vfsub vc w lx
  | 27 => decVvv .vfmul vc w lx
  | 28 => decVvv .vfma vc w lx
  | 29 => decVvv .vfnma vc w lx
  | 30 => decVvv .vfdiv vc w lx
  | 31 => decVv .vfsqrt vc w lx
  | 32 => decVvv .vfmin vc w lx
  | 33 => decVvv .vfmax vc w lx
  | 34 => decPvv .vfcmpeq vc w lx
  | 35 => decPvv .vfcmplt vc w lx
  | 36 => decPvv .vfcmple vc w lx
  | 37 => decVvv .vdadd vc w lx
  | 38 => decVvv .vdmul vc w lx
  | 39 => decVvv .vdfma vc w lx
  | 40 => decVvv .vddiv vc w lx
  | 41 => decPvv .vdcmplt vc w lx
  | 42 => decVvs4 .vfcvt vc w lx
  | 43 => decVv .vftoi vc w lx
  | 44 => decVv .vitof vc w lx
  | 45 => decVvs3 .vqnt vc w lx
  | 46 => decVvs3 .vbexp vc w lx
  | 47 => decVvs3 .vpack vc w lx
  | 48 => decVvs3 .vunpk vc w lx
  | 49 => decVv .vlgenc vc w lx
  | 50 => decVv .vlgdec vc w lx
  | 51 => decVv .vradd vc w lx
  | 52 => decVv .vrmax vc w lx
  | 53 => decVv .vrmin vc w lx
  | 54 => decVvv .vperm vc w lx
  | 55 => decVvs32 .vrotl vc w lx
  | 56 => decVp .viota vc w lx
  | 57 => decVv .vnrm vc w lx
  | _ => .error 0x10

/-- Class 3, opcodes of Table 4.4 (R83). -/
def decodeVm (vc w : Nat) (lx : List (BitVec 28)) : Except Nat Instr :=
  match opOf w with
  | 0 => decVmem .vld vc w lx
  | 1 => decVmem .vldx8 vc w lx
  | 2 => decVmem .vldx16 vc w lx
  | 3 => decVmem .vst vc w lx
  | 4 => decVmem .vstn8 vc w lx
  | 5 => decVmem .vstn16 vc w lx
  | 6 => decVmem0 .vlds vc w lx
  | 7 => decVmem0 .vsts vc w lx
  | 8 => decVidx .vgth vc w lx
  | 9 => decVidx .vsct vc w lx
  | 10 => decVmem .vlda vc w lx
  | 11 => decVmem .vstl vc w lx
  | 12 => decVmem .vaadd vc w lx
  | 13 => decVmem .vamin vc w lx
  | 14 => decVmem .vamax vc w lx
  | 15 => decVmem .vaswp vc w lx
  | _ => .error 0x10

/-- Class 4, opcodes of Table 4.5 (R83). -/
def decodeMe (w : Nat) (lx : List (BitVec 28)) : Except Nat Instr :=
  match opOf w with
  | 0 => decTg .tcfg w lx
  | 1 => decGt .tstat w lx
  | 2 => decT .tfree w lx
  | 3 => decE true false w lx (.mma (fld w 20 2) (fld w 17 3) (fld w 14 3) (fld w 11 3) (fld w 5 6) (w / 2 % 2 == 1) (w % 2 == 1))
  | 4 => decE true false w lx (.mmat (fld w 20 2) (fld w 17 3) (fld w 14 3) (fld w 11 3) (fld w 5 6) (w / 2 % 2 == 1) (w % 2 == 1))
  | 5 => decZi .zclr w lx
  | 6 => decE false false w lx (.zst (fld w 20 2) (fld w 17 3) (fld w 14 3) (fld w 11 3) (fld w 5 6))
  | 7 => decE false (w / 2 ^ 11 % 8 != 0) w lx (.zld (fld w 20 2) (fld w 17 3) (fld w 14 3) (fld w 5 6))
  | 8 => decZz .zadd w lx
  | 9 => decZ .zfree w lx
  | 10 => decQg .sqld w lx
  | 11 => decQ .sqclr w lx
  | 12 => decTgg .cpin w lx
  | 13 => decTgg .cpout w lx
  | 14 => decGgg .cpcl w lx
  | 15 => decTgg .cpmc w lx
  | 16 => decTgg2 .cpenc w lx
  | 17 => decGgg .cpsc w lx
  | 18 => decT .trel w lx
  | 19 => if nD w ≥ 16 then .error 0x11 else if nD w ≥ 8 then decArrwC .arrwCounter w lx else decArrwT .arrwTile w lx
  | 20 => decA .publ w lx
  | 21 => decN .licq w lx
  | 22 => decN .licr w lx
  | 23 => decN .licx w lx
  | 24 => decN .zxt w lx
  | _ => .error 0x10

/-- Class 5, opcodes of Table 4.6 (R83). -/
def decodeXf (vc w : Nat) (lx : List (BitVec 28)) : Except Nat Instr :=
  match opOf w with
  | 0 => decVg .vsplat vc w lx
  | 1 => decVgk .vins vc w lx
  | 2 => decGvk .vext vc w lx
  | 3 => decWg .twset w lx
  | 4 => decGw .twget w lx
  | 5 => decW .twclr w lx
  | _ => .error 0x10

/-- Class 6, opcodes of Table 4.7 (R83). -/
def decodeSy (w : Nat) (lx : List (BitVec 28)) : Except Nat Instr :=
  match opOf w with
  | 0 => decWaypt .waypt w lx
  | 1 => decI .trap w lx
  | 2 => decA .resume w lx
  | 3 => decCr .crd w lx
  | 4 => decCr .cwr w lx
  | 5 => decAb .mona w lx
  | 6 => decGg .mnap w lx
  | 7 => decGgg .rqpg w lx
  | 8 => decGg .taskl w lx
  | 9 => decN .taskr w lx
  | 10 => decA .dsig w lx
  | 11 => decClaim .claim w lx
  | 12 => decN .yield w lx
  | 13 => decAb .seal w lx
  | 14 => decAb .unseal w lx
  | 15 => decN .vjoin w lx
  | 16 => if nD w = 0 then decDcL .dcflLine w lx else if nD w = 1 then decDc2 .dcflL2 w lx else .error 0x11
  | 17 => if nD w = 0 then decDcL .dcinvLine w lx else if nD w = 1 then decDc2 .dcinvL2 w lx else .error 0x11
  | 18 => decN .icinv w lx
  | 19 => decN .halt w lx
  | 20 => decA .evsig w lx
  | _ => .error 0x10

/-- Decoding one operation slot: its word, the payloads of the LX slots after it, and the context's count of v
registers (R34, R86 stage 2). An LX word alone is not an operation (reason 0x06, R86). -/
def decodeSlot (vc w : Nat) (lx : List (BitVec 28)) : Except Nat Instr :=
  match classOf w with
  | 0 => decodeSa w lx
  | 1 => decodeSm w lx
  | 2 => decodeVa vc w lx
  | 3 => decodeVm vc w lx
  | 4 => decodeMe w lx
  | 5 => decodeXf vc w lx
  | 6 => decodeSy w lx
  | _ => .error 0x06

/-- A 32-bit word from four bytes, little-endian (R6, R45). -/
def wordOfBytes (b0 b1 b2 b3 : Byte) : Nat :=
  b0.toNat + 2 ^ 8 * b1.toNat + 2 ^ 16 * b2.toNat + 2 ^ 24 * b3.toNat

/-- The words of a byte string, little-endian; a rest shorter than a word is dropped. -/
def wordsOfBytes : List Byte → List Nat
  | b0 :: b1 :: b2 :: b3 :: r => wordOfBytes b0 b1 b2 b3 :: wordsOfBytes r
  | _ => []

/-- The four bytes of a word, in the order memory holds them (R6). -/
def bytesOfWord (w : Nat) : List Byte :=
  [BitVec.ofNat 8 w, BitVec.ofNat 8 (w / 2 ^ 8), BitVec.ofNat 8 (w / 2 ^ 16), BitVec.ofNat 8 (w / 2 ^ 24)]

/-- The leading LX payloads of a list of words (at most two are taken), and the words after them. -/
def takeLx : Nat → List Nat → List (BitVec 28) × List Nat
  | n + 1, w :: r =>
    if classOf w = 7 then ((fld w 0 28) :: (takeLx n r).1, (takeLx n r).2) else ([], w :: r)
  | _, r => ([], r)

/-- Decoding the first slot of a list of words: the instruction and the words after it, or a reason of Table 4.8. -/
def decodeWords (vc : Nat) : List Nat → Except Nat (Instr × List Nat)
  | [] => .error 0x02
  | w :: r =>
    match decodeSlot vc w (takeLx 2 r).1 with
    | .ok i => .ok (i, (takeLx 2 r).2)
    | .error e => .error e

/-- Decoding the first slot of a byte string. -/
def decodeBytes (vc : Nat) (bs : List Byte) : Except Nat (Instr × List Nat) := decodeWords vc (wordsOfBytes bs)

/-- The instruction the decoder reads from one table word: the word laid out as its four bytes, with zeros above it
(a zero word is no LX slot, so nothing above the first word belongs to the instruction). -/
def decodeTableWord (nbits w : Nat) : Option Instr :=
  if nbits = 32 then
    match decodeBytes 32 (bytesOfWord (w % 2 ^ 32) ++ bytesOfWord 0 ++ bytesOfWord 0) with
    | .ok (i, _) => some i
    | .error _ => none
  else none

/-! ### The encoder (R45, R93, R128, R163, R182) -/

/-- B of an immediate operand. -/
def Imm.bNat : Imm → Nat
  | .b v => v.toNat
  | _ => 0
/-- LX payloads of an immediate operand. -/
def Imm.lxs : Imm → List (BitVec 28)
  | .b _ => []
  | .lx1 p => [p]
  | .lx2 p q => [p, q]
def Idx.bNat : Idx → Nat
  | .reg b => b.toNat
  | _ => 0
def Idx.lxs : Idx → List (BitVec 28)
  | .reg _ => []
  | .lx1 p => [p]
  | .lx2 p q => [p, q]
def MovImm.aNat : MovImm → Nat
  | .lx2 a _ _ _ => a.toNat
  | _ => 0
def MovImm.bNat : MovImm → Nat
  | .b v => v.toNat
  | .lx1 _ => 0
  | .lx2 _ v _ _ => v.toNat
def MovImm.lxs : MovImm → List (BitVec 28)
  | .b _ => []
  | .lx1 p => [p]
  | .lx2 _ _ p q => [p, q]

/-- A T-format word (R93). -/
def encT (cl op : Nat) (h : TH) (d a b : Nat) : Nat :=
  cl * 2 ^ 28 + op * 2 ^ 22 + h.e.toNat * 2 ^ 20 + b2n h.pn * 2 ^ 19 + h.pg.toNat * 2 ^ 15 + d * 2 ^ 10 + a * 2 ^ 5 + b
/-- An M-format word (R93). -/
def encM (cl op : Nat) (h : MH) (d a b : Nat) : Nat :=
  cl * 2 ^ 28 + op * 2 ^ 22 + h.oc.toNat * 2 ^ 18 + h.pg.toNat * 2 ^ 15 + d * 2 ^ 10 + a * 2 ^ 5 + b
/-- A J-format word (R93). -/
def encJ (op : Nat) (h : TH) (x : BitVec 15) : Nat :=
  2 ^ 28 + op * 2 ^ 22 + h.e.toNat * 2 ^ 20 + b2n h.pn * 2 ^ 19 + h.pg.toNat * 2 ^ 15 + x.toNat
/-- An E-format word (R163). -/
def encE (op : Nat) (e : BitVec 2) (z ta tb : Nat) (k : BitVec 6) (mode : Nat) : Nat :=
  4 * 2 ^ 28 + op * 2 ^ 22 + e.toNat * 2 ^ 20 + z * 2 ^ 17 + ta * 2 ^ 14 + tb * 2 ^ 11 + k.toNat * 2 ^ 5 + mode
/-- An LX word with S clear. -/
def encLx (p : BitVec 28) : Nat := 7 * 2 ^ 28 + p.toNat

/-- The operation word of a slot, S clear; 0 for an event, which has no encoding. -/
def encWord : Instr → Nat
  | .add h d a b => encT 0 0 h d.toNat a.toNat b.toNat
  | .sub h d a b => encT 0 1 h d.toNat a.toNat b.toNat
  | .addi h d a i => encT 0 2 h d.toNat a.toNat i.bNat
  | .mul h d a b => encT 0 3 h d.toNat a.toNat b.toNat
  | .mulh h d a b => encT 0 4 h d.toNat a.toNat b.toNat
  | .mulhn h d a b => encT 0 5 h d.toNat a.toNat b.toNat
  | .div h d a b => encT 0 6 h d.toNat a.toNat b.toNat
  | .divn h d a b => encT 0 7 h d.toNat a.toNat b.toNat
  | .rem h d a b => encT 0 8 h d.toNat a.toNat b.toNat
  | .remn h d a b => encT 0 9 h d.toNat a.toNat b.toNat
  | .and h d a b => encT 0 10 h d.toNat a.toNat b.toNat
  | .or h d a b => encT 0 11 h d.toNat a.toNat b.toNat
  | .xor h d a b => encT 0 12 h d.toNat a.toNat b.toNat
  | .andn h d a b => encT 0 13 h d.toNat a.toNat b.toNat
  | .andi h d a i => encT 0 14 h d.toNat a.toNat i.bNat
  | .ori h d a i => encT 0 15 h d.toNat a.toNat i.bNat
  | .xori h d a i => encT 0 16 h d.toNat a.toNat i.bNat
  | .shl h d a b => encT 0 17 h d.toNat a.toNat b.toNat
  | .shr h d a b => encT 0 18 h d.toNat a.toNat b.toNat
  | .sha h d a b => encT 0 19 h d.toNat a.toNat b.toNat
  | .shli h d a i => encT 0 20 h d.toNat a.toNat i.bNat
  | .shri h d a i => encT 0 21 h d.toNat a.toNat i.bNat
  | .shai h d a i => encT 0 22 h d.toNat a.toNat i.bNat
  | .rot h d a b => encT 0 23 h d.toNat a.toNat b.toNat
  | .min h d a b => encT 0 24 h d.toNat a.toNat b.toNat
  | .max h d a b => encT 0 25 h d.toNat a.toNat b.toNat
  | .minn h d a b => encT 0 26 h d.toNat a.toNat b.toNat
  | .maxn h d a b => encT 0 27 h d.toNat a.toNat b.toNat
  | .abs h d a => encT 0 28 h d.toNat a.toNat 0
  | .clz h d a => encT 0 29 h d.toNat a.toNat 0
  | .ctz h d a => encT 0 30 h d.toNat a.toNat 0
  | .popc h d a => encT 0 31 h d.toNat a.toNat 0
  | .bext h d a i => encT 0 32 h d.toNat a.toNat i.bNat
  | .bins h d a i => encT 0 33 h d.toNat a.toNat i.bNat
  | .sext h d a i => encT 0 34 h d.toNat a.toNat i.bNat
  | .zext h d a i => encT 0 35 h d.toNat a.toNat i.bNat
  | .sel h d a b => encT 0 36 h d.toNat a.toNat b.toNat
  | .movi h d i => encT 0 37 h d.toNat i.aNat i.bNat
  | .cmpeq h d a b => encT 0 38 h d.toNat a.toNat b.toNat
  | .cmpne h d a b => encT 0 39 h d.toNat a.toNat b.toNat
  | .cmplt h d a b => encT 0 40 h d.toNat a.toNat b.toNat
  | .cmple h d a b => encT 0 41 h d.toNat a.toNat b.toNat
  | .cmpltn h d a b => encT 0 42 h d.toNat a.toNat b.toNat
  | .cmplen h d a b => encT 0 43 h d.toNat a.toNat b.toNat
  | .cmpeqi h d a i => encT 0 44 h d.toNat a.toNat i.bNat
  | .cmplti h d a i => encT 0 45 h d.toNat a.toNat i.bNat
  | .pand h d a b => encT 0 46 h d.toNat a.toNat b.toNat
  | .por h d a b => encT 0 47 h d.toNat a.toNat b.toNat
  | .pxor h d a b => encT 0 48 h d.toNat a.toNat b.toNat
  | .pandn h d a b => encT 0 49 h d.toNat a.toNat b.toNat
  | .pany h d a => encT 0 50 h d.toNat a.toNat 0
  | .pall h d a => encT 0 51 h d.toNat a.toNat 0
  | .pset h d a => encT 0 52 h d.toNat a.toNat 0
  | .pget h d a => encT 0 53 h d.toNat a.toNat 0
  | .pcnt h d a => encT 0 54 h d.toNat a.toNat 0
  | .ldb h d a x => encM 1 0 h d.toNat a.toNat x.bNat
  | .ldbn h d a x => encM 1 1 h d.toNat a.toNat x.bNat
  | .ldh h d a x => encM 1 2 h d.toNat a.toNat x.bNat
  | .ldhn h d a x => encM 1 3 h d.toNat a.toNat x.bNat
  | .ldw h d a x => encM 1 4 h d.toNat a.toNat x.bNat
  | .ldwn h d a x => encM 1 5 h d.toNat a.toNat x.bNat
  | .ldd h d a x => encM 1 6 h d.toNat a.toNat x.bNat
  | .stb h d a x => encM 1 7 h d.toNat a.toNat x.bNat
  | .sth h d a x => encM 1 8 h d.toNat a.toNat x.bNat
  | .stw h d a x => encM 1 9 h d.toNat a.toNat x.bNat
  | .std h d a x => encM 1 10 h d.toNat a.toNat x.bNat
  | .lda h d a x => encM 1 11 h d.toNat a.toNat x.bNat
  | .stl h d a x => encM 1 12 h d.toNat a.toNat x.bNat
  | .aadd h d a x => encM 1 13 h d.toNat a.toNat x.bNat
  | .aand h d a x => encM 1 14 h d.toNat a.toNat x.bNat
  | .aor h d a x => encM 1 15 h d.toNat a.toNat x.bNat
  | .axor h d a x => encM 1 16 h d.toNat a.toNat x.bNat
  | .amin h d a x => encM 1 17 h d.toNat a.toNat x.bNat
  | .amax h d a x => encM 1 18 h d.toNat a.toNat x.bNat
  | .aswp h d a x => encM 1 19 h d.toNat a.toNat x.bNat
  | .acas h d a x => encM 1 20 h (2 * d.toNat) a.toNat x.bNat
  | .fnc pg i => encM 1 21 ⟨0, pg⟩ 0 0 i.bNat
  | .pfl pg l a x => encM 1 22 ⟨0, pg⟩ l.toNat a.toNat x.bNat
  | .br h x => encJ 23 h x
  | .brl h x => encJ 24 h x
  | .jr h a => encT 1 25 h 0 a.toNat 0
  | .jrl h a => encT 1 26 h 0 a.toNat 0
  | .loop h d i => encT 1 27 h d.toNat 0 i.bNat
  | .vmov h d a => encT 2 0 h d.toNat a.toNat 0
  | .vadd h d a b => encT 2 1 h d.toNat a.toNat b.toNat
  | .vsub h d a b => encT 2 2 h d.toNat a.toNat b.toNat
  | .vadds h d a b => encT 2 3 h d.toNat a.toNat b.toNat
  | .vsubs h d a b => encT 2 4 h d.toNat a.toNat b.toNat
  | .vmul h d a b => encT 2 5 h d.toNat a.toNat b.toNat
  | .vmulh h d a b => encT 2 6 h d.toNat a.toNat b.toNat
  | .vmad h d a b => encT 2 7 h d.toNat a.toNat b.toNat
  | .vand h d a b => encT 2 8 h d.toNat a.toNat b.toNat
  | .vor h d a b => encT 2 9 h d.toNat a.toNat b.toNat
  | .vxor h d a b => encT 2 10 h d.toNat a.toNat b.toNat
  | .vandn h d a b => encT 2 11 h d.toNat a.toNat b.toNat
  | .vshl h d a b => encT 2 12 h d.toNat a.toNat b.toNat
  | .vshr h d a b => encT 2 13 h d.toNat a.toNat b.toNat
  | .vsha h d a b => encT 2 14 h d.toNat a.toNat b.toNat
  | .vmin h d a b => encT 2 15 h d.toNat a.toNat b.toNat
  | .vmax h d a b => encT 2 16 h d.toNat a.toNat b.toNat
  | .vminn h d a b => encT 2 17 h d.toNat a.toNat b.toNat
  | .vmaxn h d a b => encT 2 18 h d.toNat a.toNat b.toNat
  | .vabs h d a => encT 2 19 h d.toNat a.toNat 0
  | .vcmpeq h d a b => encT 2 20 h d.toNat a.toNat b.toNat
  | .vcmplt h d a b => encT 2 21 h d.toNat a.toNat b.toNat
  | .vcmple h d a b => encT 2 22 h d.toNat a.toNat b.toNat
  | .vcmpltn h d a b => encT 2 23 h d.toNat a.toNat b.toNat
  | .vsel h d a b => encT 2 24 h d.toNat a.toNat b.toNat
  | .vfadd h d a b => encT 2 25 h d.toNat a.toNat b.toNat
  | .vfsub h d a b => encT 2 26 h d.toNat a.toNat b.toNat
  | .vfmul h d a b => encT 2 27 h d.toNat a.toNat b.toNat
  | .vfma h d a b => encT 2 28 h d.toNat a.toNat b.toNat
  | .vfnma h d a b => encT 2 29 h d.toNat a.toNat b.toNat
  | .vfdiv h d a b => encT 2 30 h d.toNat a.toNat b.toNat
  | .vfsqrt h d a => encT 2 31 h d.toNat a.toNat 0
  | .vfmin h d a b => encT 2 32 h d.toNat a.toNat b.toNat
  | .vfmax h d a b => encT 2 33 h d.toNat a.toNat b.toNat
  | .vfcmpeq h d a b => encT 2 34 h d.toNat a.toNat b.toNat
  | .vfcmplt h d a b => encT 2 35 h d.toNat a.toNat b.toNat
  | .vfcmple h d a b => encT 2 36 h d.toNat a.toNat b.toNat
  | .vdadd h d a b => encT 2 37 h d.toNat a.toNat b.toNat
  | .vdmul h d a b => encT 2 38 h d.toNat a.toNat b.toNat
  | .vdfma h d a b => encT 2 39 h d.toNat a.toNat b.toNat
  | .vddiv h d a b => encT 2 40 h d.toNat a.toNat b.toNat
  | .vdcmplt h d a b => encT 2 41 h d.toNat a.toNat b.toNat
  | .vfcvt h d a k => encT 2 42 h d.toNat a.toNat k.toNat
  | .vftoi h d a => encT 2 43 h d.toNat a.toNat 0
  | .vitof h d a => encT 2 44 h d.toNat a.toNat 0
  | .vqnt h d a k => encT 2 45 h d.toNat a.toNat k.toNat
  | .vbexp h d a k => encT 2 46 h d.toNat a.toNat k.toNat
  | .vpack h d a k => encT 2 47 h d.toNat a.toNat k.toNat
  | .vunpk h d a k => encT 2 48 h d.toNat a.toNat k.toNat
  | .vlgenc h d a => encT 2 49 h d.toNat a.toNat 0
  | .vlgdec h d a => encT 2 50 h d.toNat a.toNat 0
  | .vradd h d a => encT 2 51 h d.toNat a.toNat 0
  | .vrmax h d a => encT 2 52 h d.toNat a.toNat 0
  | .vrmin h d a => encT 2 53 h d.toNat a.toNat 0
  | .vperm h d a b => encT 2 54 h d.toNat a.toNat b.toNat
  | .vrotl h d a k => encT 2 55 h d.toNat a.toNat k.toNat
  | .viota h d a => encT 2 56 h d.toNat a.toNat 0
  | .vnrm h d a => encT 2 57 h d.toNat a.toNat 0
  | .vld h d a x => encM 3 0 h d.toNat a.toNat x.bNat
  | .vldx8 h d a x => encM 3 1 h d.toNat a.toNat x.bNat
  | .vldx16 h d a x => encM 3 2 h d.toNat a.toNat x.bNat
  | .vst h d a x => encM 3 3 h d.toNat a.toNat x.bNat
  | .vstn8 h d a x => encM 3 4 h d.toNat a.toNat x.bNat
  | .vstn16 h d a x => encM 3 5 h d.toNat a.toNat x.bNat
  | .vlds pg d a x => encM 3 6 ⟨0, pg⟩ d.toNat a.toNat x.bNat
  | .vsts pg d a x => encM 3 7 ⟨0, pg⟩ d.toNat a.toNat x.bNat
  | .vgth h d a b => encM 3 8 h d.toNat a.toNat b.toNat
  | .vsct h d a b => encM 3 9 h d.toNat a.toNat b.toNat
  | .vlda h d a x => encM 3 10 h d.toNat a.toNat x.bNat
  | .vstl h d a x => encM 3 11 h d.toNat a.toNat x.bNat
  | .vaadd h d a x => encM 3 12 h d.toNat a.toNat x.bNat
  | .vamin h d a x => encM 3 13 h d.toNat a.toNat x.bNat
  | .vamax h d a x => encM 3 14 h d.toNat a.toNat x.bNat
  | .vaswp h d a x => encM 3 15 h d.toNat a.toNat x.bNat
  | .tcfg h t a => encT 4 0 h t.toNat a.toNat 0
  | .tstat h d t => encT 4 1 h d.toNat t.toNat 0
  | .tfree h t => encT 4 2 h t.toNat 0 0
  | .mma e z ta tb k tr ac => encE 3 e z.toNat ta.toNat tb.toNat k (2 * b2n tr + b2n ac)
  | .mmat e z ta tb k tr ac => encE 4 e z.toNat ta.toNat tb.toNat k (2 * b2n tr + b2n ac)
  | .zclr h z i => encT 4 5 h z.toNat 0 i.bNat
  | .zst e z t u k => encE 6 e z.toNat t.toNat u.toNat k 0
  | .zld e z t k => encE 7 e z.toNat t.toNat 0 k 0
  | .zadd h d a => encT 4 8 h d.toNat a.toNat 0
  | .zfree h z => encT 4 9 h z.toNat 0 0
  | .sqld h q a => encT 4 10 h (b2n q) a.toNat 0
  | .sqclr h q => encT 4 11 h (b2n q) 0 0
  | .cpin h t a b => encT 4 12 h t.toNat a.toNat b.toNat
  | .cpout h t a b => encT 4 13 h t.toNat a.toNat b.toNat
  | .cpcl h d a b => encT 4 14 h d.toNat a.toNat b.toNat
  | .cpmc h t a b => encT 4 15 h t.toNat a.toNat b.toNat
  | .cpenc h t a b => encT 4 16 h t.toNat a.toNat (2 * b.toNat)
  | .cpsc h d a b => encT 4 17 h d.toNat a.toNat b.toNat
  | .trel h t => encT 4 18 h t.toNat 0 0
  | .arrwTile h t => encT 4 19 h t.toNat 0 0
  | .arrwCounter h n a => encT 4 19 h (8 + n.toNat) a.toNat 0
  | .publ h a => encT 4 20 h 0 a.toNat 0
  | .licq h => encT 4 21 h 0 0 0
  | .licr h => encT 4 22 h 0 0 0
  | .licx h => encT 4 23 h 0 0 0
  | .zxt h => encT 4 24 h 0 0 0
  | .vsplat h d a => encT 5 0 h d.toNat a.toNat 0
  | .vins h d a k => encT 5 1 h d.toNat a.toNat k.toNat
  | .vext h d a k => encT 5 2 h d.toNat a.toNat k.toNat
  | .twset h w a => encT 5 3 h w.toNat a.toNat 0
  | .twget h d w => encT 5 4 h d.toNat w.toNat 0
  | .twclr h w => encT 5 5 h w.toNat 0 0
  | .waypt e => encT 6 0 ⟨e, false, 0⟩ 0 0 0
  | .trap h i => encT 6 1 h 0 0 i.bNat
  | .resume h a => encT 6 2 h 0 a.toNat 0
  | .crd h d n => encT 6 3 h d.toNat (n.toNat / 32) (n.toNat % 32)
  | .cwr h d n => encT 6 4 h d.toNat (n.toNat / 32) (n.toNat % 32)
  | .mona h a b => encT 6 5 h 0 a.toNat b.toNat
  | .mnap h d a => encT 6 6 h d.toNat a.toNat 0
  | .rqpg h d a b => encT 6 7 h d.toNat a.toNat b.toNat
  | .taskl h d a => encT 6 8 h d.toNat a.toNat 0
  | .taskr h => encT 6 9 h 0 0 0
  | .dsig h a => encT 6 10 h 0 a.toNat 0
  | .claim h k a => encT 6 11 h k.toNat a.toNat 0
  | .yield h => encT 6 12 h 0 0 0
  | .seal h a b => encT 6 13 h 0 a.toNat b.toNat
  | .unseal h a b => encT 6 14 h 0 a.toNat b.toNat
  | .vjoin h => encT 6 15 h 0 0 0
  | .dcflLine h a => encT 6 16 h 0 a.toNat 0
  | .dcflL2 h => encT 6 16 h 1 0 0
  | .dcinvLine h a => encT 6 17 h 0 a.toNat 0
  | .dcinvL2 h => encT 6 17 h 1 0 0
  | .icinv h => encT 6 18 h 0 0 0
  | .halt h => encT 6 19 h 0 0 0
  | .evsig h a => encT 6 20 h 0 a.toNat 0
  | _ => 0

/-- The payloads of the LX slots that follow a slot's word. -/
def encLxs : Instr → List (BitVec 28)
  | .addi _ _ _ i => i.lxs
  | .andi _ _ _ i => i.lxs
  | .ori _ _ _ i => i.lxs
  | .xori _ _ _ i => i.lxs
  | .shli _ _ _ i => i.lxs
  | .shri _ _ _ i => i.lxs
  | .shai _ _ _ i => i.lxs
  | .bext _ _ _ i => i.lxs
  | .bins _ _ _ i => i.lxs
  | .sext _ _ _ i => i.lxs
  | .zext _ _ _ i => i.lxs
  | .movi _ _ i => i.lxs
  | .cmpeqi _ _ _ i => i.lxs
  | .cmplti _ _ _ i => i.lxs
  | .ldb _ _ _ x => x.lxs
  | .ldbn _ _ _ x => x.lxs
  | .ldh _ _ _ x => x.lxs
  | .ldhn _ _ _ x => x.lxs
  | .ldw _ _ _ x => x.lxs
  | .ldwn _ _ _ x => x.lxs
  | .ldd _ _ _ x => x.lxs
  | .stb _ _ _ x => x.lxs
  | .sth _ _ _ x => x.lxs
  | .stw _ _ _ x => x.lxs
  | .std _ _ _ x => x.lxs
  | .lda _ _ _ x => x.lxs
  | .stl _ _ _ x => x.lxs
  | .aadd _ _ _ x => x.lxs
  | .aand _ _ _ x => x.lxs
  | .aor _ _ _ x => x.lxs
  | .axor _ _ _ x => x.lxs
  | .amin _ _ _ x => x.lxs
  | .amax _ _ _ x => x.lxs
  | .aswp _ _ _ x => x.lxs
  | .acas _ _ _ x => x.lxs
  | .fnc _ i => i.lxs
  | .pfl _ _ _ x => x.lxs
  | .loop _ _ i => i.lxs
  | .vld _ _ _ x => x.lxs
  | .vldx8 _ _ _ x => x.lxs
  | .vldx16 _ _ _ x => x.lxs
  | .vst _ _ _ x => x.lxs
  | .vstn8 _ _ _ x => x.lxs
  | .vstn16 _ _ _ x => x.lxs
  | .vlds _ _ _ x => x.lxs
  | .vsts _ _ _ x => x.lxs
  | .vlda _ _ _ x => x.lxs
  | .vstl _ _ _ x => x.lxs
  | .vaadd _ _ _ x => x.lxs
  | .vamin _ _ _ x => x.lxs
  | .vamax _ _ _ x => x.lxs
  | .vaswp _ _ _ x => x.lxs
  | .zclr _ _ i => i.lxs
  | .trap _ i => i.lxs
  | _ => []

/-- The words of an instruction as a slot, S clear in each (R9, R10). -/
def encode (i : Instr) : List Nat := encWord i :: (encLxs i).map encLx

/-- The words of a bundle: its slots in order, S set in the last word (R9). -/
def encodeBundle (is : List Instr) : List Nat :=
  let ws := is.flatMap encode
  ws.dropLast ++ (ws.getLast?.map (· + 2 ^ 31)).toList

end Sys2Proof
end

