-- ==== Sys2Proof/Config.lean ====
section
/-! DEFINITION. What an implementation fixes, and the free values of the model: opaque constants with no body. -/

namespace Sys2Proof.Config

/-- The value a g register reads inside a landing window (R14): the first argument is 8 times the state's
step counter plus the slot's number in its bundle, the second the register. Free value (log entries 4 and 8). -/
opaque freeG : Nat → Nat → BitVec 64

/-- The value a v register reads inside a landing window (R14). Free value (log entry 4). -/
opaque freeV : Nat → Nat → BitVec 1024

/-- The value a predicate reads inside a landing window (R14). Free value (log entry 4). -/
opaque freeP : Nat → Nat → BitVec 32

/-- Which flags of instructions still inside their windows a CRD of CSTAT includes (R189). Free value (log entry 5). -/
opaque freeFlags : Nat → BitVec 16

/-- A byte read through one view that the same uncommitted interval wrote through the other (R205): step counter and
storage address. Free value (log entry 6). -/
opaque freeByte : Nat → Nat → BitVec 8

/-- The TRAPINFO word of a trap for which the spec states none (store-buffer overflow, claim, allowance, residue, double
fault). Free value (log entry 7). -/
opaque freeInfo : Nat → BitVec 64

/-- A message that its source sent and that has not come in: what a resend request makes come again (R338): its number and its pair.
Free value (log entry 17). -/
opaque freeMsg : Nat → Nat → BitVec 64

/-- Capacity of the Serai's device-launch queue (R196). -/
def launchQueue : Nat := 256
/-- Entries of a die's event queue (R202). -/
def eventQueue : Nat := 64
/-- Entries of the package's seal table (R203). -/
def sealTable : Nat := 64
/-- Withheld store buffer entries (R23). -/
def storeEntries : Nat := 64
/-- Recorded releases of an interval (R328). -/
def releaseEntries : Nat := 64
/-- Long loads pending per context (R17). -/
def longLoads : Nat := 16
/-- Copy commands queued per context (R161). -/
def copyEntries : Nat := 8
/-- Page requests outstanding per context (R194). -/
def pageRequests : Nat := 256
/-- Scale queue entries (R169). -/
def scaleEntries : Nat := 16
/-- Dependence-table entries (R223). -/
def depEntries : Nat := 16384
/-- Dependence-table entries that serve only split children (R223). -/
def splitEntries : Nat := 256
/-- Tile-store bytes of a core (Table 0.2). -/
def tileStoreBytes : Nat := 1048576
/-- Slice words per lane (R225). -/
def sliceWords : Nat := 1024
/-- Frames of 64 KiB in a memory stack of 64 GiB (Table 0.1). -/
def framesPerStack : Nat := 1048576
/-- Frames at the top of each memory stack that hold the 1 GiB checkpoint area of a die (R341; log entry 40). -/
def areaFrames : Nat := 16384
/-- Lines of 64 bytes in an L1 of 64 KiB (Table 0.2, R236). -/
def l1Lines : Nat := 1024
/-- Lines of 64 bytes in an L2 of 96 MiB (Table 0.2, R236). -/
def l2Lines : Nat := 1572864
/-- Exact decoder units of the Serai (R264). -/
def decoders : Nat := 16
/-- Report store entries (R311). -/
def reportStore : Nat := 1024
/-- Manifest queues the Serai holds at a time (R306). -/
def heldQueues : Nat := 16
/-- Retransmit buffer entries of an endpoint (R339). -/
def retransmit : Nat := 16384
/-- Messages held per pair (R338). -/
def heldMessages : Nat := 256

end Sys2Proof.Config
end

