-- ==== Sys2Proof/Machine/Tab.lean ====
section
/-! DEFINITION. Sparse tables: a list of keyed entries in rising order of key, read with a default. -/

namespace Sys2Proof.Machine

/-- A sparse table; an unlisted key reads as the default its reader names. -/
structure Tab (α : Type) where
  cells : List (Nat × α)
  deriving DecidableEq, Repr

/-- The empty table. -/
def Tab.empty {α : Type} : Tab α := ⟨[]⟩

/-- The entry of a key in a list of entries. -/
def findCell {α : Type} (k : Nat) : List (Nat × α) → Option α
  | [] => none
  | (j, v) :: r => if j = k then some v else findCell k r

/-- The entries with the key's entry put in its place or replaced. -/
def putCell {α : Type} (k : Nat) (v : α) : List (Nat × α) → List (Nat × α)
  | [] => [(k, v)]
  | (j, w) :: r =>
    if k < j then (k, v) :: (j, w) :: r
    else if j = k then (k, v) :: r
    else (j, w) :: putCell k v r

/-- The entries without those of the key. -/
def dropCell {α : Type} (k : Nat) : List (Nat × α) → List (Nat × α)
  | [] => []
  | (j, w) :: r => if j = k then dropCell k r else (j, w) :: dropCell k r

/-- Reading a table. -/
def Tab.get {α : Type} (t : Tab α) (d : α) (k : Nat) : α := (findCell k t.cells).getD d
/-- The listed entry of a key, if there is one. -/
def Tab.find {α : Type} (t : Tab α) (k : Nat) : Option α := findCell k t.cells
/-- Writing a table. -/
def Tab.set {α : Type} (t : Tab α) (k : Nat) (v : α) : Tab α := ⟨putCell k v t.cells⟩
/-- Removing an entry. -/
def Tab.erase {α : Type} (t : Tab α) (k : Nat) : Tab α := ⟨dropCell k t.cells⟩
/-- Changing every listed entry. -/
def Tab.map {α : Type} (t : Tab α) (f : Nat → α → α) : Tab α := ⟨t.cells.map fun c => (c.1, f c.1 c.2)⟩
/-- Keeping the entries that pass a test. -/
def Tab.filter {α : Type} (t : Tab α) (f : Nat → α → Bool) : Tab α := ⟨t.cells.filter fun c => f c.1 c.2⟩

/-- The keys rise strictly. -/
def risingKeys {α : Type} : List (Nat × α) → Bool
  | [] => true
  | [_] => true
  | a :: b :: r => a.1 < b.1 && risingKeys (b :: r)

/-- The memory of the package: one list of byte cells over one numbering of every byte the spec gives (see
`Machine/Ops.lean` for the regions), in one canonical form. -/
structure Memory where
  cells : List (Nat × BitVec 8)
  deriving DecidableEq, Repr

/-- What an unlisted byte reads as. DESIGN CHOICE (log entry 3): 0; the spec gives no power-on contents. -/
def unlistedByte : BitVec 8 := 0

/-- Reading one byte. -/
def Memory.read (m : Memory) (a : Nat) : BitVec 8 := (findCell a m.cells).getD unlistedByte

/-- Writing one byte: writing what an unlisted byte reads as removes the entry. -/
def Memory.write (m : Memory) (a : Nat) (v : BitVec 8) : Memory :=
  if v = unlistedByte then ⟨dropCell a m.cells⟩ else ⟨putCell a v m.cells⟩

/-- The canonical form: keys strictly rising, no entry equal to what an unlisted byte reads as. -/
def Memory.wf (m : Memory) : Bool := risingKeys m.cells && m.cells.all fun c => c.2 != unlistedByte

/-- Writing a list of cells, first to last. -/
def Memory.writeCells (m : Memory) : List (Nat × BitVec 8) → Memory
  | [] => m
  | c :: r => Memory.writeCells (m.write c.1 c.2) r

/-- Little-endian value of `n` bytes at `a` (R6). -/
def Memory.readN (m : Memory) (a : Nat) : Nat → Nat
  | 0 => 0
  | n + 1 => Memory.readN m a n + (m.read (a + n)).toNat * 2 ^ (8 * n)

/-- The byte cells of the low `n` bytes of a value at `a` (R6). -/
def cellsOf (a v : Nat) : Nat → List (Nat × BitVec 8)
  | 0 => []
  | n + 1 => cellsOf a v n ++ [(a + n, BitVec.ofNat 8 (v / 2 ^ (8 * n)))]

/-- Writing the low `n` bytes of a value at `a` (R6). -/
def Memory.writeN (m : Memory) (a v n : Nat) : Memory := m.writeCells (cellsOf a v n)

/-- All bytes of `[a, a+n)` to 0 (every listed cell there dropped). -/
def Memory.clear (m : Memory) (a n : Nat) : Memory :=
  ⟨m.cells.filter fun c => !(a ≤ c.1 && c.1 < a + n)⟩

/-- The bytes of `[src, src+n)` copied to `[dst, dst+n)`. -/
def Memory.copy (m : Memory) (src dst n : Nat) : Memory :=
  (m.clear dst n).writeCells
    ((m.cells.filter fun c => src ≤ c.1 && c.1 < src + n).map fun c => (dst + (c.1 - src), c.2))

end Sys2Proof.Machine
end

