-- ==== Sys2Proof/Machine/State.lean ====
section
/-! DEFINITION. The state of an AG-416 package as plain data, and the state right after package reset. -/

namespace Sys2Proof.Machine

/-! ### Stops -/

/-- Why a step can stop the machine. -/
inductive Fault where
  /-- Raised by a step with no input left to take after a thermal shutdown (R357: all clocks and rails are off and only a
  cold reset recovers). Safe: nothing runs where the hardware runs nothing. -/
  | packageOff
  deriving DecidableEq, Repr

/-- Why a step can answer no meaning. -/
inductive Refusal where
  /-- Raised by an arm of exec that has no meaning yet. Safe. -/
  | notModelled (mnemonic : String)
  deriving DecidableEq, Repr

/-! ### Context -/

/-- Tile states (Table 2.7). -/
inductive TileState where | empty | filling | ready | draining
  deriving DecidableEq, Repr

/-- A tile handle and its TCFG register (R35, R44, R165). -/
structure Tile where
  v : Bool
  st : TileState
  fmt : BitVec 3
  view : Bool
  bytes : Nat
  base : Nat
  /-- bytes arrived since the tile was last empty -/
  arrived : Nat
  /-- bytes promised by fills performed and not yet delivered -/
  sched : Nat
  zd : Bool
  ovf : Bool
  inexact : Bool
  deriving DecidableEq, Repr

/-- An unconfigured handle (Table 2.1). -/
def Tile.off : Tile := ⟨false, .empty, 0, false, 0, 0, 0, 0, false, false, false⟩

/-- The context state that a rollback restores to its waypoint value (Table 1.4), less the matrix state of the core. -/
structure Regs where
  g : Tab Word
  p : Tab Pred
  v : Tab Vec
  cstat : Word
  ocs0 : Word
  ocs1 : Word
  bankkey : Word
  nwatch : Word
  epi : Tab Word
  tiles : Tab Tile
  /-- CLAIMB: tile-store bytes claimed -/
  claimb : Nat
  /-- slice words claimed per lane -/
  slice : Nat
  /-- PWRSEL, MGWAKE, THSEL and HVEC of a management context (R349, Table 18.3) -/
  pwrsel : Word
  mgwake : Word
  thsel : Word
  hvec : Word
  /-- the task's counts of R69 -/
  underzero : Nat
  satblk : Nat
  deriving DecidableEq, Repr

/-- Register state after reset (Table 2.1, R42 to R44, Table 20.1); where these give none, 0 (log entry 43). -/
def Regs.reset : Regs where
  g := .empty
  p := .empty
  v := .empty
  cstat := 0
  ocs0 := 0x55555555
  ocs1 := 0x55555555
  bankkey := 0
  nwatch := 0
  epi := .empty
  tiles := .empty
  claimb := 0
  slice := 0
  pwrsel := 0
  mgwake := 1
  thsel := 0
  hvec := 0
  underzero := 0
  satblk := 0

/-- A destination of a result. -/
inductive Dest where
  | g (n : Nat)
  | v (n : Nat)
  | p (n : Nat)
  deriving DecidableEq, Repr

/-- A result inside its landing window (R14, R16). -/
structure Flight where
  dest : Dest
  val : Vec
  mask : Pred
  /-- counted core cycles of the window that remain after the issue cycle -/
  left : Nat
  /-- master cycle of issue: a slot of the same bundle reads the register as it stood before (R11) -/
  issued : Nat
  /-- an LDA or VLDA of an on-chip level (R116) -/
  acquire : Bool
  /-- sticky CSTAT flags the instruction sets -/
  flags : BitVec 16
  /-- the residue check of R81 failed in some lane -/
  residueBad : Bool
  /-- slot position and bundle address of the issuing slot, for a late trap (R28) -/
  slot : Nat
  pc : BitVec 48
  deriving DecidableEq, Repr

/-- The operation of an atomic (R119, R120, R154). -/
inductive AtomicOp where | add | and | or | xor | min | max | swp | cas
  deriving DecidableEq, Repr

/-- One lane of a long load or atomic: where it reads, and the bytes forwarded from the withheld store buffer. -/
structure LoadPart where
  lane : Nat
  /-- the storage addresses of its bytes, low byte first; none on a non-resident tile (R108, R149) -/
  addrs : List Nat
  /-- the bytes taken from the buffer at issue, low byte first -/
  fwd : List (Option Byte)
  deriving DecidableEq, Repr

/-- A pending long load or atomic (R17, R118). -/
structure LongLoad where
  /-- place in the program order of the context's accesses -/
  id : Nat
  issued : Nat
  dest : Dest
  width : Nat
  /-- sign-extend the loaded value -/
  sext : Bool
  cls : BitVec 4
  /-- scope code of the class at issue (R43) -/
  scope : Nat
  acquire : Bool
  atomic : Option AtomicOp
  ref : Word
  parts : List LoadPart
  /-- p15 lanes found non-resident (R149) and the lanes that performed -/
  nr : Pred
  mask : Pred
  /-- operand and second operand of an atomic, as read at issue -/
  opnd : Vec
  opnd2 : Word
  /-- p15 is pending until the data arrive -/
  vec : Bool
  /-- cancelled by PREDRAIN (R31) -/
  cancelled : Bool
  /-- handed to memory: a plain load at once, an atomic at step 4 of its commit -/
  handed : Bool
  /-- the result belongs to a committed waypoint bundle (R24 step 6) -/
  committed : Bool
  /-- slot position and bundle address of the issuing slot, for a late fault (R28) -/
  slot : Nat
  pc : BitVec 48
  deriving DecidableEq, Repr

/-- An entry of the withheld store buffer (R23, Table 18.7). -/
structure StoreEntry where
  /-- place in the program order of the context's accesses -/
  seq : Nat
  ref : Word
  cls : BitVec 4
  scope : Nat
  width : Nat
  vec : Bool
  scatter : Bool
  mask : Pred
  /-- the storage bytes the entry writes -/
  cells : List (Nat × Byte)
  /-- the index of each lane of a VSCT (Table 18.5) -/
  idx : Vec
  /-- written through 0xFFF5 or 0xFFF6: forwarding stays within a view (R205) -/
  swz : Bool
  committed : Bool
  /-- a release store: every earlier access is performed first (R117) -/
  release : Bool
  deriving DecidableEq, Repr

/-- A recorded release (R23). -/
inductive Release where
  | tfree (t : TReg)
  | trel (t : TReg)
  | zfree (z : TReg)
  | sqclr (q : Bool)
  | licr
  | licx
  /-- with the place of the PUBL in the program order of the context's accesses, and its A operand -/
  | publ (tid : BitVec 16) (seq : Nat) (a : Reg)
  deriving DecidableEq, Repr

/-- The kinds of copy command (R174). -/
inductive CopyKind where | cpin | cpout | cpcl | cpmc | cpenc | cpsc
  deriving DecidableEq, Repr

/-- A copy command of a context's queue (R174 to R178). -/
structure CopyCmd where
  id : Nat
  kind : CopyKind
  t : TReg
  /-- source reference g[A] -/
  src : Word
  /-- destination reference g[D] of CPCL and CPSC -/
  dst : Word
  desc : Word
  desc2 : Word
  key : BitVec 32
  pid : Nat
  /-- tiles looked up at issue: tensor id times 2^48 plus tile, and the frame or none (R174) -/
  frames : List (Nat × Option Nat)
  /-- the tile's storage: base byte, view, append offset (R165) -/
  base : Nat
  view : Bool
  bytes : Nat
  fmt : BitVec 3
  off : Nat
  /-- the lane slice of the issuing context begins here (R147) -/
  slbase : Nat
  /-- rows (block columns for CPENC), and the bytes that one of them delivers -/
  rows : Nat
  wide : Nat
  /-- what has still to be delivered, in runs of the packed bytes: first byte and length (R174, R295) -/
  todo : List (Nat × Nat)
  /-- CPMC: consumer cores already served -/
  served : List Nat
  /-- the engine has started the command (R174); it has delivered everything -/
  started : Bool
  done : Bool
  /-- master cycle from which a relay delivery to a core has been held (R177): core and cycle -/
  held : List (Nat × Nat)
  /-- place of the command in the program order of the context's accesses (R174) -/
  seq : Nat
  /-- the issuing slot: position, word and bundle (R178) -/
  slot : Nat
  word : BitVec 32
  pc : BitVec 48
  deriving DecidableEq, Repr

/-- A non-undoable slot of the bundle being issued, with its operands as read at issue; performed at step 4 of R24. -/
inductive Act where
  | atomic (id : Nat)
  | stl (e : StoreEntry)
  | copy (c : CopyCmd)
  | zxt
  | trap (code : Word) (slot : Nat)
  | resume (target : BitVec 48)
  | mnap (d : Nat) (limit : Nat)
  | taskl (d : Nat) (addr : Nat)
  | taskr
  | dsig (v : Word) (slot : Nat)
  | evsig (v : Word)
  | seal (a b : Word)
  | unseal (a b : Word)
  | dcinvLine (line : Nat)
  | dcinvL2 (d : Nat)
  | halt
  | cwr (ix : BitVec 10) (v : Word) (sel : Word) (ths : Word)
  deriving DecidableEq, Repr

/-- The cause of a trap and what it writes (R27, R314). -/
structure TrapReq where
  cause : BitVec 8
  slot : Nat
  late : Bool
  info : Word
  pc : BitVec 48
  deriving DecidableEq, Repr

/-- Monitor states (R191 to R193). -/
inductive MonState where | disarmed | armed | fired
  deriving DecidableEq, Repr

/-- A context's monitor: the storage addresses of a 64-byte line, and a state. -/
structure Monitor where
  addrs : List Nat
  st : MonState
  /-- the arm has reached the line's point of coherence -/
  established : Bool
  deriving DecidableEq, Repr

/-- What a context's current bundle blocks on (R20). -/
inductive Block where | no | tile | load | licence | nap | arrival | scale | commit | yield
  deriving DecidableEq, Repr

/-- What a context is doing. -/
inductive CtxStatus where
  /-- holds no task -/
  | free
  | running
  /-- rolled back by a trap that is to be delivered (R315) -/
  | trapped
  /-- frozen at its bundle (R329) -/
  | frozen
  /-- issue stopped; engine beats and windows finish (R31, step 2) -/
  | draining
  /-- the long loads are awaited (R31, step 3) -/
  | waiting
  /-- ZXT moves the matrix state (R31, step 4) -/
  | parking
  /-- being saved into an image slot (R31, step 5, R325) -/
  | saving
  /-- HALT has committed; retirement waits (R201) -/
  | halted
  /-- a management context asleep at HALT (R362) -/
  | asleep
  deriving DecidableEq, Repr

/-- An item the norm watch takes up at commit (R284). -/
inductive WatchItem where
  | sample (r : BitVec 32)
  | write (en : Bool)
  deriving DecidableEq, Repr

/-- A PUBL queued behind the CPOUTs to its tensor that precede it in program order (R179). -/
structure Publication where
  tid : BitVec 16
  seq : Nat
  deriving DecidableEq, Repr

/-- A shadow frame of a CPOUT to a tile that the task does not declare (R176): tile, frame, command, the command's place in
program order, and the bytes written so far (first byte and length). -/
structure OutFrame where
  key : Nat
  frame : Nat
  cmd : Nat
  seq : Nat
  spans : List (Nat × Nat)
  deriving DecidableEq, Repr

/-- A twin window register: value and valid bit, those before its last write, and that write's master cycle (R159). -/
structure WReg where
  val : Word
  valid : Bool
  oldVal : Word
  oldValid : Bool
  stamp : Nat
  deriving DecidableEq, Repr

def WReg.reset : WReg := ⟨0, false, 0, false, 0⟩

/-- An accumulator bank (R75). Element (r, n) has key 32*r + n. -/
structure Bank where
  live : Bool
  elems : Tab (BitVec 80)
  zexp : Int
  inexact : Bool
  ovf : Bool
  deriving DecidableEq, Repr

def Bank.reset : Bank := ⟨false, .empty, 0, false, false⟩

/-- A scale queue (R169, R170): sixteen entries, pointers, entries held, entries drawn and not yet freed, entries pushed
in the open interval, and an SQLD in progress. -/
structure ScaleQ where
  ents : Tab (List Byte)
  rd : Nat
  wr : Nat
  cnt : Nat
  drawn : Nat
  pushed : Nat
  /-- core cycles until the entry of an SQLD is written, and the entry -/
  pend : List (Nat × List Byte)
  deriving DecidableEq, Repr

def ScaleQ.reset : ScaleQ := ⟨.empty, 0, 0, 0, 0, 0, []⟩

/-- A parked matrix state (R180, R278) of context `x` of core `core`, or of the saved context in image slot `x - 4`: banks, queues and
TCFG. -/
structure Parked where
  core : Nat
  x : Nat
  banks : Tab Bank
  sqa : ScaleQ
  sqb : ScaleQ
  tiles : Tab Tile
  /-- copy commands whose tile moved with the state -/
  cmds : List Nat
  /-- parked by a save (R31, step 4), not by a ZXT: a rollback of the open interval changes it -/
  bySave : Bool
  deriving DecidableEq, Repr

/-- One hardware context (R19). -/
structure Ctx where
  live : Regs
  /-- the waypoint images (R27) -/
  wp : Regs
  /-- the address of the next bundle, of the bundle after the last committed waypoint, and of the bundle in issue -/
  pc : BitVec 48
  wppc : BitVec 48
  bpc : BitVec 48
  /-- the next bundle is the target of a transfer of control (R85); so was the bundle at `wppc`; the address after the bundle in issue -/
  jumped : Bool
  wpjumped : Bool
  bnext : BitVec 48
  /-- v registers allocated (R34), and the first physical register of the run -/
  vregs : Nat
  vbase : Nat
  flight : List Flight
  loads : List LongLoad
  wbuf : List StoreEntry
  releases : List Release
  acts : List Act
  /-- TRAP and HALT of the committing bundle, which act after step 6 -/
  post : List Act
  /-- the waypoint bundle has issued and its commit has not completed; step 3 of R24 is done -/
  committing : Bool
  handedOver : Bool
  /-- w0 to w7 with their valid bits (R37) -/
  w : Tab WReg
  acnt : Tab (BitVec 32)
  mon : Monitor
  /-- register that MNAP writes when the context wakes, while it sleeps -/
  nap : Option Nat
  /-- the master cycle in which its time limit runs out -/
  napEnd : Nat
  nprev : Option (BitVec 32)
  watch : List WatchItem
  trapcause : Word
  trappc : Word
  trapinfo : Word
  rqseq : BitVec 32
  cmpla : Word
  /-- page requests outstanding (R194) -/
  rqout : List (BitVec 32)
  /-- the access count at the last waypoint -/
  wpseq : Nat
  /-- active fences: class mask, scope, place in program order (R122) -/
  fences : List (BitVec 16 × Nat × Nat)
  taskid : Word
  prio : BitVec 3
  allow : Nat
  /-- cycles that CLAIM added in the open interval (R199) -/
  allowAdded : Nat
  /-- a licence grant made in the open interval (R27) -/
  grantInInterval : Bool
  slbase : Nat
  status : CtxStatus
  block : Block
  /-- the master cycle in which the context was told to stop; it does at a later bundle boundary with no global stall (R31) -/
  preempting : Option Nat
  /-- the context was asleep at HALT when it was stopped (R362) -/
  slept : Bool
  /-- the core cycle in which the context last issued (R21) -/
  lastIssue : Nat
  yielded : Bool
  /-- a trap taken and not yet delivered; the context is not rolled back yet, since its engine beats and windows finish first (R28) -/
  pend : Option TrapReq
  stopping : Bool
  /-- late faults reported after a commit, delivered at the next bundle boundary (R24) -/
  late : List TrapReq
  /-- the one residue retry of R316 is in use -/
  residueRetry : Bool
  hmode : Bool
  /-- a source 0x08 or 0x09 event has been raised since the last HALT (R362) -/
  therm : Bool
  hepc : BitVec 48
  hg1 : Word
  hg2 : Word
  hcstat : Word
  copyq : List CopyCmd
  nload : Nat
  pubq : List Publication
  /-- CPOUT shadow frames not yet published (R176) -/
  outFrames : List OutFrame
  /-- the dependence-table entry of the placed task (R223), and its process -/
  task : Option Nat
  pid : Nat
  /-- CPMC, CPIN fills outstanding on freed handles keep their bytes reserved (R167): first byte, length, command -/
  reserved : List (Nat × Nat × Nat)
  /-- matrix state that ZXT placed in the context's image (R180, MLOC 2) -/
  mstate : Option Parked
  /-- the parked state that a LICQ of the open interval took back, and the copy commands whose bindings it dropped (R27, R180) -/
  unpark : Option Parked
  dropped : List Nat
  /-- while the banks are parked: their waypoint images, in the image store of the context's core, and the banks written in the open
  interval (R297, R328) -/
  zwp : Tab Bank
  zdirty : List Nat
  /-- the implicit licence request of a restored holder is not yet served (R278); a parked state is moving back, and the master cycle in
  which that move ends (R299) -/
  licWait : Bool
  restoring : Bool
  moveEnd : Nat
  /-- HALT has committed (R201): a task resumed from here retires without issuing (R290) -/
  ended : Bool
  /-- core cycles left of PREDRAIN, or of the save (R31, R325), and the image slot of the save -/
  count : Nat
  slot : Nat
  /-- the model's number of this run of a task on a core, from a placement to the next, and the waypoints it has closed -/
  run : Nat
  closed : Nat
  /-- what the run has sent off its die, by place in program order and kind; kept while the die has a checkpoint (R344) -/
  sent : List (Nat × Nat)
  /-- under replay (R348): what had been sent before the reset, so that its sending again is a duplicate, and the waypoints closed by
  then; a replayed task that had retired -/
  redo : List (Nat × Nat)
  goal : Nat
  ghost : Bool
  deriving DecidableEq, Repr

/-- A context that holds no task, after reset; its 32 v registers are the model's choice (log entries 43 and 116). -/
def Ctx.reset : Ctx where
  live := .reset
  wp := .reset
  pc := 0
  wppc := 0
  bpc := 0
  jumped := false
  wpjumped := false
  bnext := 0
  vregs := 32
  vbase := 0
  flight := []
  loads := []
  wbuf := []
  releases := []
  acts := []
  post := []
  committing := false
  handedOver := false
  w := .empty
  acnt := .empty
  mon := ⟨[], .disarmed, false⟩
  nap := none
  napEnd := 0
  nprev := none
  watch := []
  trapcause := 0
  trappc := 0
  trapinfo := 0
  rqseq := 0
  cmpla := 0
  rqout := []
  wpseq := 0
  fences := []
  taskid := 0
  prio := 0
  allow := 0
  allowAdded := 0
  grantInInterval := false
  slbase := 0
  status := .free
  block := .no
  preempting := none
  slept := false
  lastIssue := 0
  yielded := false
  pend := none
  stopping := false
  late := []
  residueRetry := false
  hmode := false
  therm := false
  hepc := 0
  hg1 := 0
  hg2 := 0
  hcstat := 0
  copyq := []
  nload := 0
  pubq := []
  outFrames := []
  task := none
  pid := 0
  reserved := []
  mstate := none
  unpark := none
  dropped := []
  zwp := .empty
  zdirty := []
  licWait := false
  restoring := false
  moveEnd := 0
  ended := false
  count := 0
  slot := 0
  run := 0
  closed := 0
  sent := []
  redo := []
  goal := 0
  ghost := false

/-! ### Rows that fall due by themselves -/

/-- A row of the table that an agent of the package starts by itself, at a time or under a condition; the constructors carry the
table's names and operands. -/
inductive Due where
  | bundleFetch
  | contextPreemption (c x : Nat)
  | waypointCommit (c x : Nat)
  | resultLanding (c x : Nat)
  | longLoadReturn (c x n : Nat)
  | storePerformed (c x : Nat)
  | monitorArmEstablished (c x : Nat)
  | mnapWake (c x : Nat)
  | mnapTimeout (c x : Nat)
  | trapDelivery (c x : Nat)
  | scaleEntryWrite (c : Nat) (q : Bool)
  | matrixBeat (c : Nat)
  | drainComplete (c : Nat)
  | copyDelivery (c x n : Nat)
  | copyComplete (c x n : Nat)
  | relayDelivery (c x n k : Nat)
  | relayHoldTimeout (c x n : Nat)
  | publSwap (c x : Nat)
  | passingGapEnd (pr : Nat)
  | zxtMoveDone (c x : Nat)
  | parkedRestoreDone (c x : Nat)
  | licmodeTakesEffect (pr : Nat)
  | predrainExpiry (c x : Nat)
  | prewaitExpiry (cl : Nat)
  | contextSaveDone (sl : Nat)
  | contextRestore (sl : Nat)
  | taskPlacement (t c x : Nat)
  | dieClearDone (d : Nat)
  | allowExpiry (c x : Nat)
  | taskRetirement (c x : Nat)
  | tilePublication (t : Nat)
  | manifestEntry
  | dsigApply
  | caravanDecode (sq q : Nat)
  | deadlineExpiry (sq q : Nat)
  | pageRequestService
  | manifestQueueTake (n : Nat)
  | queueSwitch (qin qout : Nat)
  | reportWrite
  | residencyReportTimer
  | messageArrival (a b : Nat) (sq : BitVec 32) (m : Word)
  | gapTimeout (a b : Nat)
  | resendRequest (a b : Nat) (sq : BitVec 32)
  | cumulativeAck (a b : Nat) (sq : BitVec 32)
  | pairBroken (a b : Nat)
  | transitDrainTimeout (d : Nat)
  | dieResetPhase (d : Nat)
  | checkpointCapture (d : Nat)
  | droverBlockCopy (d bk : Nat)
  | checkpointCommit (d : Nat)
  | bankTransitionDone (c b : Nat)
  | clockChange (st : Nat)
  | clusterStepDone (cl : Nat)
  | managementWake (c x : Nat)
  | locatedWindowReset
  | fabricModeChange
  | commandRingTake
  | evictionDone (w0 w1 : Word)
  deriving DecidableEq, Repr

/-! ### Core -/

/-- A running MMA or MMAT (R171). -/
structure MmaJob where
  x : Nat
  z : TReg
  ta : Tile
  tb : Tile
  na : TReg
  nb : TReg
  key : BitVec 32
  tr : Bool
  tbT : Bool
  acc : Bool
  beats : Nat
  u : Nat
  e : BitVec 2
  sa : List Byte
  sb : List Byte
  slot : Nat
  word : BitVec 32
  pc : BitVec 48
  /-- this core cycle's beat has been counted and is to be performed -/
  due : Bool
  /-- a beat has met the late queue-imbalance fault: the other beats run out and change nothing (R28, Table 7.6) -/
  dead : Bool
  deriving DecidableEq, Repr

/-- What the drain unit runs (R173). -/
inductive DrainKind where | zst | zld | zadd
  deriving DecidableEq, Repr

/-- A running ZST, ZLD or ZADD. -/
structure DrainJob where
  x : Nat
  kind : DrainKind
  z : TReg
  z2 : TReg
  t : TReg
  tile : Tile
  epi : Word
  fpm : Bool
  key : BitVec 32
  beats : Nat
  u : Nat
  e : BitVec 2
  flags : BitVec 16
  under : Nat
  sat : Nat
  bank : Bank
  deriving DecidableEq, Repr

/-- A cache line: data, valid bytes, dirty bytes (R236). -/
structure Line where
  data : BitVec 512
  valid : BitVec 64
  dirty : BitVec 64
  deriving DecidableEq, Repr

/-- One core (R3, R161). -/
structure Core where
  ctxs : Tab Ctx
  cur : Fin 4
  /-- EBAL, and the master cycle up to which the refill has been credited (R30) -/
  ebal : Nat
  ebalAt : Nat
  floorcnt : BitVec 32
  laycnt : BitVec 32
  mma : Option MmaJob
  drain : Option DrainJob
  z : Tab Bank
  /-- accumulator waypoint images, and the banks written in the open interval -/
  zwp : Tab Bank
  zdirty : List Nat
  sqa : ScaleQ
  sqb : ScaleQ
  /-- register bank power: requested states, actual states (2 bits a bank), DENY (Table 20.4) -/
  rbreq : BitVec 8
  rbst : BitVec 8
  rbdeny : Bool
  /-- master cycle at which the transition of a bank ends; core cycles that a bank on its way from RETAIN to ON still takes; the master
  cycle of the last access to a bank (R354) -/
  rbend : Tab Nat
  rbwake : Tab Nat
  rbused : Tab Nat
  /-- banks in service, and the banks that fail the next test; the latter an input of the model (R347) -/
  inService : BitVec 4
  bankFault : BitVec 4
  /-- core cycles of global stall that remain (R22); the last core cycle was a layover; the master cycle of the last core cycle -/
  stall : Nat
  laid : Bool
  cycledAt : Nat
  /-- the copy engine is frozen by a held relay (R177, R329), and which command holds it -/
  engineFrozen : Bool
  /-- the context whose queue the copy engine serves next (R174) -/
  copyNext : Nat
  /-- contents of the core's parking SRAM -/
  park : Option Parked
  l1 : Tab Line
  /-- bits a fault inside the vector adder flips in the next checked lanes; an input of the model (R82; log entry 148) -/
  aluFault : BitVec 32
  /-- fetched 64-byte lines of tensor 0, by process and line number (R207) -/
  icache : Tab (BitVec 512)
  deriving DecidableEq, Repr

def Core.reset : Core where
  ctxs := .empty
  cur := 0
  ebal := 4096
  ebalAt := 0
  floorcnt := 0
  laycnt := 0
  mma := none
  drain := none
  z := .empty
  zwp := .empty
  zdirty := []
  sqa := .reset
  sqb := .reset
  rbreq := 0
  rbst := 0
  rbdeny := false
  rbend := .empty
  rbwake := .empty
  rbused := .empty
  inService := 0xF
  bankFault := 0
  stall := 0
  laid := false
  cycledAt := 0
  engineFrozen := false
  copyNext := 0
  park := none
  l1 := .empty
  aluFault := 0
  icache := .empty

/-- The bundle in issue: the words not yet executed and the slot position (R10, R183). -/
structure Latch where
  words : List Nat
  slot : Nat
  /-- BUNDLE_FETCH has made every check of the bundle (R86, R88), so its slots make none -/
  checked : Bool
  /-- what a CRD of the bundle reads: the register as it stands at the start of the issue cycle (R11, R189) -/
  crd : Option Word
  /-- a slot of the buffer has blocked or waits; it is presented again in the next core cycle -/
  hold : Bool
  /-- the address after the bundle -/
  next : BitVec 48
  deriving DecidableEq, Repr

/-! ### Licence pairs, clusters, dies, stacks -/

/-- Licence states (Table 2.7). -/
inductive LicState where | free | lower | upper | alt | parked | passing
  deriving DecidableEq, Repr

/-- A waiting licence request (R274). -/
structure LicReq where
  core : Nat
  x : Nat
  prio : Nat
  age : Nat
  /-- the implicit request of a restored holder (R278) -/
  implicit : Bool
  deriving DecidableEq, Repr

/-- A twin pair's licence (R272 to R281). -/
structure Pair where
  st : LicState
  /-- holder under EXCL: core and context; no context reads MINE while `moving` -/
  holder : Option (Nat × Nat)
  /-- holders of the lower and upper halves under ALT -/
  altLower : Option Nat
  altUpper : Option Nat
  reqs : List LicReq
  /-- LASTBEAT of the lower and upper arrays plus 64: the first master cycle with the gap met -/
  freeLower : Nat
  freeUpper : Nat
  mode : Bool
  pendMode : Option Bool
  grantee : Option LicReq
  /-- master cycle at which the PASSING gap ends -/
  gapEnd : Nat
  /-- the context the licence is PARKED for -/
  parkedFor : Option (Nat × Nat)
  /-- the cores whose ZXT moves are running; under ALT both can be (R279) -/
  moving : List Nat
  /-- a release of this master cycle: the next grantee is chosen when the cycle's requests are in (R276). The core that released, and
  whether a request of its twin goes first (LICX) -/
  choose : Option (Nat × Bool)
  deriving DecidableEq, Repr

def Pair.reset : Pair where
  st := .free
  holder := none
  altLower := none
  altUpper := none
  reqs := []
  freeLower := 0
  freeUpper := 0
  mode := false
  pendMode := none
  grantee := none
  gapEnd := 0
  parkedFor := none
  moving := []
  choose := none

/-- A cluster's clock and power state (Tables 20.3, 20.8). -/
structure Cluster where
  pat : BitVec 16
  epat : BitVec 16
  grant : BitVec 16
  /-- CLGRANT before the writes of a master cycle, and that master cycle (R351) -/
  grantOld : BitVec 16
  grantAt : Nat
  req : Nat
  st : Nat
  busy : Bool
  err : Bool
  saved : Nat
  /-- master cycle at which a step of fixed length ends (Table 20.9) -/
  stepEnd : Nat
  /-- core cycles begun before master cycle `cycAt`; EPAT has not changed since (CYCLES, R352) -/
  cyc : Nat
  cycAt : Nat
  deriving DecidableEq, Repr

def Cluster.reset : Cluster := ⟨0xFFFF, 0xFFFF, 0, 0, 0, 0, 0, false, false, 0, 0, 0, 0⟩

/-- What a message carries, as far as the model or a replay reads it (R337, R348). Replies name the run of a context that they answer, and
the place of its request in program order. -/
inductive MsgBody where
  /-- a message from the input script, which the layer only carries -/
  | word (m : Word)
  /-- a transfer whose contents no replay reads -/
  | plain
  /-- the data of a long load or atomic, and the lines that came with them -/
  | reply (run id : Nat) (v : Vec) (ls : List (Nat × BitVec 512))
  /-- a line brought into the L2 by a prefetch, and one of code of core `c` -/
  | line (ln : Nat) (data : BitVec 512)
  | code (c key : Nat) (data : BitVec 512)
  /-- a late fault that the Serai reports to a context -/
  | fault (run : Nat) (t : TrapReq)
  /-- bytes that a copy delivers, from packed byte `part` on; a relay's bytes to core `part` -/
  | row (run seq part : Nat) (bs : List Byte)
  /-- the value for a register: of a TASKL, or of an MNAP that wakes -/
  | answer (run place : Nat) (v : Word)
  /-- a page-request reply -/
  | page (run : Nat) (seq : BitVec 32)
  /-- a write to the twin window register `w` of context `x` of core `c` -/
  | twin (c x w : Nat) (v : Word) (valid : Bool)
  /-- a context placed on context `x` of core `c`, with on-chip bytes of it -/
  | place (c x : Nat) (k : Ctx) (cells : List (Nat × Byte))
  deriving DecidableEq, Repr

/-- A logged inbound message of a die (R344). -/
structure LogItem where
  src : Nat
  pseq : BitVec 32
  body : MsgBody
  deriving DecidableEq, Repr

/-- A checkpoint of a die (R341 to R343, Table 19.2): the contexts with their matrix states and licences, the next PSEQ of each pair, and
the map of the 4 KiB blocks of its on-chip levels onto the 4 KiB places of its area. -/
structure Ckpt where
  epoch : BitVec 32
  at_ : Nat
  ctxs : List (Nat × Nat × Ctx)
  /-- the twin window as its contexts saw it, by twin core and context -/
  win : Tab (Tab WReg)
  pseq : List (Nat × BitVec 32)
  map : List (Nat × Nat)
  /-- the blocks to copy, and the messages logged before E (R343, R344) -/
  blocks : List Nat
  logged : Nat
  deriving DecidableEq, Repr

/-- A program event waiting in a die's event queue (R202). -/
structure EvItem where
  core : Nat
  x : Nat
  task : Option Nat
  /-- place of the EVSIG in the program order of its context's accesses -/
  place : Nat
  words : List Word
  deriving DecidableEq, Repr

/-- A compute die (R3). -/
structure Die where
  /-- process tag; the process a clearing is for, and the master cycle at which it ends (R235) -/
  tag : Option Nat
  clearing : Option (Nat × Nat)
  eprof : Tab Word
  /-- the profiles before the writes of a master cycle, and that master cycle: a write acts from the next one (R351) -/
  eprofOld : Tab Word
  eprofAt : Nat
  vdie : Nat
  wear : Nat
  wakereq : BitVec 16
  /-- the WAKEREQ bits set in a master cycle, and that master cycle (R362) -/
  wakeSet : BitVec 16
  wakeSetAt : Nat
  l2 : Tab Line
  evq : List EvItem
  /-- DRVSTAT: epoch committed, phase (R345) -/
  epoch : BitVec 32
  dphase : Nat
  ckpt : Option Ckpt
  /-- the capture in progress; its map names the blocks already copied -/
  capture : Option Ckpt
  lastE : Nat
  log : List LogItem
  /-- 4 KiB blocks of the on-chip levels written since the last checkpoint -/
  dirtyBlocks : List Nat
  /-- warm reset phase 0 to 6 (Table 19.4); messages are routed around the die; those that were inside it when that began: source,
  destination, number (R340) -/
  rphase : Nat
  around : Bool
  inside : List (Nat × Nat × BitVec 32)
  /-- at the reset: the contexts of fixed tasks, rolled back, and the dirty lines of the L2 -/
  stopped : List (Nat × Nat × Ctx)
  unsent : Tab Line
  /-- under replay: the log entries not yet delivered again, and the twin window as the die's contexts see it (R348) -/
  replay : List LogItem
  view : Tab (Tab WReg)
  /-- what the twin die's cores have written to their twin windows since the die was held, and their endpoint: resent at REJOIN (Table
  19.4) -/
  inbox : List (Nat × MsgBody)
  deriving DecidableEq, Repr

/-- A die after package reset: EPROF0 to EPROF3 read EWT 0x1008_0402, CEIL 4,096, REFILL 10 (Table 20.2). -/
def eprofReset : Word := 0x100804020100000A

def Die.reset : Die where
  tag := none
  clearing := none
  eprof := .empty
  eprofOld := .empty
  eprofAt := 0
  vdie := 930
  wear := 0
  wakereq := 0
  wakeSet := 0
  wakeSetAt := 0
  l2 := .empty
  evq := []
  epoch := 0
  dphase := 0
  ckpt := none
  capture := none
  lastE := 0
  log := []
  dirtyBlocks := []
  rphase := 0
  around := false
  inside := []
  stopped := []
  unsent := .empty
  replay := []
  view := .empty
  inbox := []

/-- A compute stack: master clock (R353), located faults (Table 21.2). -/
structure Stack where
  target : Nat
  granted : Nat
  wincnt : Nat
  total : Nat
  resesc : Nat
  deriving DecidableEq, Repr

def Stack.reset : Stack := ⟨1100, 1100, 0, 0, 0⟩

/-! ### Processes, manifests, tasks -/

/-- A layout record (R238). -/
structure Layout where
  scale : Nat
  ro : Bool
  elem : Nat
  rank : Nat
  dims : List Nat
  tiles : List Nat
  ttab : Nat
  ntile : Nat
  deriving DecidableEq, Repr

/-- A process: its tensor table (tensor 0 included) and its request pool (R237, R309). -/
structure Proc where
  tensors : Tab Layout
  pool : Option Word
  deriving DecidableEq, Repr

def Proc.reset : Proc := ⟨.empty, none⟩

/-- A task record of a manifest (R214). -/
structure TaskRec where
  prio : Nat
  expcnt : Nat
  rdidx : Nat
  nrd : Nat
  wridx : Nat
  nwr : Nat
  origin : List Nat
  extent : List Nat
  deriving DecidableEq, Repr

/-- A tile-set record (R215). -/
structure SetRec where
  tid : Nat
  first : Nat
  step0 : Nat
  step1 : Nat
  ax0 : Nat
  ax1 : Nat
  count : Nat
  deriving DecidableEq, Repr

/-- A manifest that has entered (R210 to R217). -/
structure Manifest where
  seq : BitVec 32
  pid : Nat
  entry : BitVec 48
  args : List Word
  grains : List Nat
  claimts : Word
  claimsl : Word
  claimcy : Word
  fixed : Bool
  coded : Bool
  code : Word
  vregs : Nat
  nax : Nat
  evmask : BitVec 8
  cmpl : Word
  ntask : Nat
  levels : List (Nat × BitVec 32)
  recs : List TaskRec
  sets : List SetRec
  /-- the level-0 instance (R213) -/
  inst0 : Nat
  /-- live task indices (the root of the completion tree, R231) -/
  root : Nat
  nsplit : Nat
  /-- lowest failed index, its depth and cause (R232) -/
  failed : Option (Nat × Nat × Nat)
  underzero : Nat
  satblk : Nat
  /-- false while it waits at entry (R223) -/
  entered : Bool
  /-- refused at entry (R217) -/
  bad : Bool
  /-- caravans that replicate (R270), and the next caravan number -/
  replicas : List Nat
  ncar : Nat
  /-- entered by queue 63 (R313) -/
  fabric : Bool
  /-- OUTPL when it was read (R372) -/
  outpl : Word
  deriving DecidableEq, Repr

/-- A task index (R220, R221). -/
structure Index where
  seq : BitVec 32
  index : Nat
  counter : Nat
  /-- preceding live indices whose completion decrements the counter -/
  deps : List Nat
  isReady : Bool
  /-- live descendants (R221) -/
  live : Nat
  complete : Bool
  failed : Option (Nat × Nat)
  /-- tiles of its write set that have been published (R222): tensor times 2^48 plus tile -/
  published : List Nat
  /-- a task of it has reached a context (R221) -/
  placed : Bool
  deriving DecidableEq, Repr

/-- Where a task stands. -/
inductive TaskStatus where | waiting | held | ready | placed | saved | publishing | returned | cancelled | grouped
  deriving DecidableEq, Repr

/-- A live task: an entry of the dependence table (R223). -/
structure Task where
  seq : BitVec 32
  index : Nat
  depth : Nat
  prio : Nat
  pid : Nat
  fixed : Bool
  lo : List Nat
  hi : List Nat
  requeues : Nat
  st : TaskStatus
  stack : Nat
  cluster : Nat
  /-- order of queuing and the master cycle it was queued (R224, R323) -/
  order : Nat
  since : Nat
  core : Nat
  x : Nat
  slot : Nat
  /-- shadow frames (R216): tensor times 2^48 plus tile, and the frame -/
  shadows : List (Nat × Nat)
  /-- frames set aside for the shadows that issued writes will create -/
  spares : List (Nat × Nat)
  /-- caravan number and member, 0 to K-1 data and K and up outriders (R230) -/
  car : Option Nat
  member : Nat
  /-- the task is not taken before this master cycle (a requeue, R225) -/
  notBefore : Nat
  refusals : Nat
  /-- the task is counted in its completion nodes (R231) -/
  inNode : Bool
  /-- block counts of a retired task that waits for its publication (R69) -/
  under : Nat
  sat : Nat
  deriving DecidableEq, Repr

/-- A member's return (R258): its frames by tile, the core it ran on, its block counts. -/
structure Return where
  member : Nat
  frames : List (Nat × Nat)
  core : Nat
  under : Nat
  sat : Nat
  deriving DecidableEq, Repr

/-- What another package sends for the group or the outer outrider at a place of the outer placement list: its return, by tile and
frame, and its block counts; or that it is lost (R271). -/
structure GroupIn where
  seq : BitVec 32
  pos : Nat
  frames : List (Nat × Nat)
  under : Nat
  sat : Nat
  lost : Bool
  deriving DecidableEq, Repr

/-- A caravan at the decoder (R258, R264 to R270); members 0 to K-1 are data tasks, K and up outriders. -/
structure Caravan where
  seq : BitVec 32
  q : Nat
  returns : List Return
  /-- members lost, and members re-issued once (R265) -/
  lost : List Nat
  reissued : List Nat
  /-- master cycle of the K-th usable return; DEADLINE has passed -/
  kth : Option Nat
  deadline : Bool
  /-- the whole caravan has been re-issued once (R268) -/
  retried : Bool
  /-- members whose returns the last decode took up -/
  seen : List Nat
  /-- where the members' domains begin in those of their records, and their extents (R230) -/
  off : List Nat
  ext : List Nat
  /-- decoded for the group's return of an outer code (R271) -/
  done : Bool
  deriving DecidableEq, Repr

/-- A context image (R326, R327). -/
structure Image where
  ctx : Ctx
  core : Nat
  x : Nat
  trapped : Bool
  frozen : Bool
  licheld : Bool
  coretied : Bool
  mloc : Nat
  cause : BitVec 8
  task : Option Nat
  saving : Bool
  /-- the core that a MOVE has named, until the context stands there (R331) -/
  target : Option Nat
  deriving DecidableEq, Repr

/-! ### Host, Serai, package -/

/-- A manifest queue (R303 to R306). -/
structure MQueue where
  base : Word
  pid : Nat
  en : Nat
  stop : Bool
  held : Bool
  tail : BitVec 32
  tseq : BitVec 32
  head : BitVec 32
  hseq : BitVec 32
  idleSince : Nat
  deriving DecidableEq, Repr

def MQueue.reset : MQueue := ⟨0, 0, 0, false, false, 0, 0, 0, 0, 0⟩

/-- A report of the report store (R311). -/
structure Report where
  dseq : BitVec 32
  words : List Word
  deriving DecidableEq, Repr

/-- The host register window (Table 17.1) and the report store. -/
structure HostIf where
  cmdbase : Word
  cmdtail : BitVec 32
  cmdhead : BitVec 32
  cmdseq : BitVec 32
  cmdstop : Bool
  rpbase : Option Word
  rphead : BitVec 32
  rpack : BitVec 32
  reports : List Report
  dseq : BitVec 32
  mq : Tab MQueue
  /-- the value the last HOST_MEMORY_READ returned -/
  readVal : Word
  /-- events raised and not yet acknowledged that need it: source and sequence number -/
  openEvents : List (Nat × BitVec 32)
  /-- messages sent to the scheduler node, newest last (R313) -/
  nodeOut : List (List Word)
  /-- payloads of root events that the node awaits: they are sent as they are stamped -/
  nodeWait : List Word
  /-- mailbox: last request taken, and the gap reported (R321) -/
  mseq : BitVec 32
  mgap : Option (BitVec 32)
  deriving DecidableEq, Repr

def HostIf.reset : HostIf :=
  ⟨0, 0, 0, 0, false, none, 0, 0, [], 0, .empty, 0, [], [], [], 0, none⟩

/-- The norm-jump record (Table 13.1). -/
structure WatchRec where
  opened : Bool
  fseq : BitVec 32
  findex : BitVec 32
  fr : BitVec 32
  fprev : BitVec 32
  lseq : BitVec 32
  jcount : BitVec 32
  deriving DecidableEq, Repr

def WatchRec.reset : WatchRec := ⟨false, 0, 0, 0, 0, 0, 0⟩

/-- A pending page request (R310). -/
structure PageReq where
  core : Nat
  x : Nat
  task : Option Nat
  pid : Nat
  seq : BitVec 32
  ref : Word
  cmpla : Word
  deriving DecidableEq, Repr

/-- A launch waiting at the Serai: manifest address, process, priority cap, and the register that awaits the sequence
number (R196). -/
structure Launch where
  pid : Nat
  addr : Nat
  cap : Nat
  core : Nat
  x : Nat
  task : Option Nat
  /-- place of the TASKL in the program order of its context's accesses -/
  place : Nat
  dest : Nat
  byTask : Bool
  /-- sequence number taken, while the manifest waits for dependence-table room (R223) -/
  seq : Option (BitVec 32)
  fabric : Bool
  deriving DecidableEq, Repr

/-- A DSIG on its way to the Serai (R198). -/
structure Dsig where
  core : Nat
  x : Nat
  task : Option Nat
  /-- place of the DSIG in the program order of its context's accesses -/
  place : Nat
  v : Word
  pc : BitVec 48
  slot : Nat
  deriving DecidableEq, Repr

/-- A seal table entry (R203). -/
structure Seal where
  tid : Nat
  first : Nat
  count : Nat
  pid : Nat
  deriving DecidableEq, Repr

/-- An EVICT or DELETE past step 3 of R243: words 0 and 1 of its command; tile, frame and old entry of each of its tiles. -/
structure Leaving where
  w0 : Word
  w1 : Word
  tiles : List (Nat × Nat × Nat)
  deriving DecidableEq, Repr

/-- A MAP between the steps of R243: its words, and whether its entry has been written. -/
structure Mapping where
  w0 : Word
  w1 : Word
  w2 : Word
  written : Bool
  deriving DecidableEq, Repr

/-- The Serai (R2). -/
structure Serai where
  mseq : BitVec 32
  launches : List Launch
  manifests : Tab Manifest
  indices : Tab Index
  tasks : Tab Task
  caravans : Tab Caravan
  /-- master cycle until which each decoder unit is busy, and the caravans that await one, in the order they became decodable (R264) -/
  units : Tab Nat
  decq : List Nat
  /-- group returns of other packages that have come in over Oliac and are still to be taken (R271) -/
  groupsIn : List GroupIn
  /-- completion-node counts below the root (R231): level, unit and manifest packed by `nodeKey` -/
  nodes : Tab Nat
  dsigs : List Dsig
  order : Nat
  evseq : BitVec 32
  /-- events raised in this master cycle and not yet stamped: source, does it need EVACK, payload (R365) -/
  raised : List (Nat × Bool × List Word)
  pageReqs : List PageReq
  /-- requests for a non-resident tile that wait for the driver (R310) -/
  pending : List PageReq
  /-- the image pool: base and number of slots; none until POOL (R322) -/
  poolBase : Nat
  slots : Nat
  images : Tab Image
  seals : List Seal
  watch : WatchRec
  /-- norm-jump reports of this master cycle that have still to reach the record: core, TASKID, norm, the one before (R285) -/
  normq : List (Nat × Word × BitVec 32 × BitVec 32)
  /-- first-touch frames handed out per memory stack, and frames returned (R244) -/
  nextFrame : Tab Nat
  freed : Tab (List Nat)
  /-- frames handed out of order: named by a MAP, or by the image pool (physical address / 64 KiB) -/
  taken : List Nat
  /-- words 0 and 1 of the EVICT and DELETE commands that write back or wait (R243, R308) -/
  evicting : List (Word × Word)
  /-- those whose entries have been written, with their tiles, frames and old entries, until every access that looked these up has been
  performed (R243 step 4) -/
  leaving : List Leaving
  /-- a MAP between the steps of R243 -/
  mapping : Option Mapping
  /-- master cycle of the last residency report of the 1 ms timer (R313) -/
  nodeAt : Nat
  wincntAt : Nat
  spancnt : Nat
  deriving DecidableEq, Repr

def Serai.reset : Serai where
  mseq := 1
  launches := []
  manifests := .empty
  indices := .empty
  tasks := .empty
  caravans := .empty
  units := .empty
  decq := []
  groupsIn := []
  nodes := .empty
  dsigs := []
  order := 0
  evseq := 1
  raised := []
  pageReqs := []
  pending := []
  poolBase := 0
  slots := 0
  images := .empty
  seals := []
  watch := .reset
  normq := []
  nextFrame := .empty
  freed := .empty
  taken := []
  evicting := []
  leaving := []
  mapping := none
  nodeAt := 0
  wincntAt := 0
  spancnt := 0

/-- A thermal sensor (Table 20.5). -/
structure Sensor where
  valid : Bool
  suspect : Bool
  fault : Nat
  level : Nat
  persist : Nat
  raw : Int
  temp : Int
  /-- readings of the last 63 polls, newest first (R358) -/
  hist : List Int
  /-- consecutive polls at TRIP (R357) -/
  tripPolls : Nat
  deriving DecidableEq, Repr

def Sensor.reset : Sensor := ⟨false, false, 0, 0, 0, 0, 0, [], 0⟩

/-- Package registers of firmware and fleet (Tables 18.3, 19.3, 20.1, 21.1). -/
structure PkgRegs where
  predrain : Word
  prewait : Word
  drvctl : Word
  linkto : Word
  repsel : Word
  thd : Word
  thm : Word
  thpol : Word
  fabctl : Word
  /-- fabric modes written and not yet in effect, and the mode in effect (R371) -/
  fabPend : List Word
  fabMode : Word
  podpos : Word
  outpl : Word
  /-- HEALTH reason bits 19:16 and STKEXCL -/
  reasons : BitVec 4
  stkexcl : BitVec 8
  /-- the exclusion before its last write, and that write's master cycle: placement follows the new one from the next (R368) -/
  exclOld : BitVec 8
  exclAt : Nat
  lflim : Word
  deriving DecidableEq, Repr

/-- Reset values of Tables 18.3, 19.3, 20.6, 20.7 and 21.2. -/
def PkgRegs.reset : PkgRegs where
  predrain := 4096
  prewait := 65536
  drvctl := 0
  linkto := 0x0001000000001000
  repsel := 0
  thd := 0x000055055F05690A
  thm := 0x000050055A05640A
  thpol := 0x0000000005005258
  fabctl := 0
  fabPend := []
  fabMode := 0
  podpos := 0
  outpl := 0
  reasons := 0
  stkexcl := 0
  exclOld := 0
  exclAt := 0
  lflim := 0x00000E1000000003

/-- An ordered pair of endpoints of the message layer (R337 to R339). -/
structure Link where
  /-- next PSEQ the source sends, the messages of the script that it keeps for resending, the last number acknowledged, and the master
  cycle since which a message awaits its acknowledgement -/
  next : BitVec 32
  kept : List (BitVec 32 × Word)
  acked : BitVec 32
  oldAt : Nat
  /-- next PSEQ the destination expects, and what it holds -/
  expected : BitVec 32
  holds : List (BitVec 32 × Word)
  /-- messages of the script delivered, in order, newest first -/
  delivered : List Word
  /-- while a gap is open: the master cycle at which the next resend request is due, and that of the first one unanswered -/
  gapAt : Option Nat
  reqAt : Option Nat
  broken : Bool
  deriving DecidableEq, Repr

def Link.reset : Link := ⟨1, [], 0, 0, 1, [], [], none, none, false⟩

/-- The AG-416 package. -/
structure State where
  /-- master cycles since package reset (R8) -/
  now : Nat
  /-- the model's own counter of steps (those of one bundle's slots count once), the argument of the free values of Config -/
  fresh : Nat
  /-- the core whose core cycle is being settled, and the cores that have still to present a bundle in this master cycle
  (the model's own) -/
  focus : Nat
  turns : List Nat
  latch : Latch
  /-- inputs from outside the package and choices of order (the model's own script): events, each with the master cycles that pass
  between the one before it and it -/
  inputs : List (Nat × Instr)
  /-- events that fall due, with their master cycle -/
  timers : List (Nat × Due)
  /-- delays of events whose time the spec leaves open, taken in order (the model's own script) -/
  delays : List Nat
  /-- the runs of bytes that copy commands deliver next, taken in order: first byte and most bytes (the model's own script, R295) -/
  pieces : List (Nat × Nat)
  cores : Tab Core
  pairs : Tab Pair
  clusters : Tab Cluster
  dies : Tab Die
  cstacks : Tab Stack
  procs : Tab Proc
  mem : Memory
  serai : Serai
  host : HostIf
  sensors : Tab Sensor
  pkg : PkgRegs
  links : Tab Link
  /-- all clocks and rails off (R357) -/
  off : Bool
  deriving DecidableEq, Repr

/-- The package right after package reset. -/
def State.reset : State where
  now := 0
  fresh := 0
  focus := 0
  turns := []
  latch := ⟨[], 0, false, none, false, 0⟩
  inputs := []
  timers := []
  delays := []
  pieces := []
  cores := .empty
  pairs := .empty
  clusters := .empty
  dies := .empty
  cstacks := .empty
  procs := .empty
  mem := ⟨[]⟩
  serai := .reset
  host := .reset
  sensors := .empty
  pkg := .reset
  links := .empty
  off := false

end Sys2Proof.Machine
end

