-- ==== Sys2Proof/Machine/Ops.lean ====
section
/-! DEFINITION. The named operations over the state: core numbering, contexts, registers and landing windows, the
memory levels, reports and events, rollback, taking a trap and returning from one. -/

namespace Sys2Proof.Machine

/-! ### Numbering (R38, R334) -/

/-- A Serai management core: cores 2,048 to 2,055 of the model are management cores 0 to 7 (log entry 9). -/
def isMgmt (c : Nat) : Bool := 2048 ≤ c
/-- The die of a core: STACK * 2 + DIE. -/
def dieOf (c : Nat) : Nat := c / 128
/-- The compute stack of a core. -/
def stackOf (c : Nat) : Nat := c / 256
/-- The cluster of a core, numbered over the package. -/
def clusterOf (c : Nat) : Nat := c / 8
/-- The core of the same number on the other die of the stack (R158). -/
def twinOf (c : Nat) : Nat := if c / 128 % 2 = 0 then c + 128 else c - 128
/-- The twin pair of a core. -/
def pairOf (c : Nat) : Nat := c / 256 * 128 + c % 128
/-- The lower core of a pair. -/
def pairCore (p : Nat) : Nat := p / 128 * 256 + p % 128

/-! ### Access to cores and contexts -/

def getCore (s : State) (c : Nat) : Core := s.cores.get Core.reset c
def setCore (s : State) (c : Nat) (v : Core) : State := { s with cores := s.cores.set c v }
def getCtx (s : State) (c x : Nat) : Ctx := (getCore s c).ctxs.get Ctx.reset x
def setCtx (s : State) (c x : Nat) (k : Ctx) : State :=
  setCore s c { getCore s c with ctxs := (getCore s c).ctxs.set x k }

/-- The current context of the core in focus: the context whose bundle issues. -/
def curX (s : State) : Nat := (getCore s s.focus).cur.val
def me (s : State) : Ctx := getCtx s s.focus (curX s)
def setMe (s : State) (k : Ctx) : State := setCtx s s.focus (curX s) k
/-- The core in focus. -/
def myCore (s : State) : Core := getCore s s.focus
def setMyCore (s : State) (v : Core) : State := setCore s s.focus v

def getPair (s : State) (p : Nat) : Pair := s.pairs.get Pair.reset p
def setPair (s : State) (p : Nat) (v : Pair) : State := { s with pairs := s.pairs.set p v }
def getCluster (s : State) (k : Nat) : Cluster := s.clusters.get Cluster.reset k
def setCluster (s : State) (k : Nat) (v : Cluster) : State := { s with clusters := s.clusters.set k v }
def getDie (s : State) (d : Nat) : Die := s.dies.get Die.reset d
def setDie (s : State) (d : Nat) (v : Die) : State := { s with dies := s.dies.set d v }
def getStack (s : State) (k : Nat) : Stack := s.cstacks.get Stack.reset k
def setStack (s : State) (k : Nat) (v : Stack) : State := { s with cstacks := s.cstacks.set k v }
def getProc (s : State) (p : Nat) : Proc := s.procs.get Proc.reset p
def setProc (s : State) (p : Nat) (v : Proc) : State := { s with procs := s.procs.set p v }

/-- Context `x` of core `c`, or, for `x` from 4 on, the saved context in image slot `x - 4`. -/
def getAny (s : State) (c x : Nat) : Ctx :=
  if x < 4 then getCtx s c x
  else match s.serai.images.find (x - 4) with | some i => i.ctx | none => Ctx.reset
def setAny (s : State) (c x : Nat) (k : Ctx) : State :=
  if x < 4 then setCtx s c x k
  else match s.serai.images.find (x - 4) with
    | some i => { s with serai := { s.serai with images := s.serai.images.set (x - 4) { i with ctx := k } } }
    | none => s

/-- A state seen from context `x` of core `c`. -/
def seenFrom (s : State) (c x : Nat) : State :=
  setCore { s with focus := c } c { getCore s c with cur := Fin.ofNat 4 x }

/-- CTXID (Table 2.4): on a management core only PRIV, CORE[2:0] and CTX are non-zero. -/
def ctxid (c x : Nat) : Word :=
  if isMgmt c then BitVec.ofNat 64 (8192 + (c - 2048) % 8 * 4 + x % 4)
  else BitVec.ofNat 64 (c / 256 * 1024 + c / 128 % 2 * 512 + c % 128 * 4 + x % 4)

/-! ### CSTAT (Table 2.6) -/

def cstatRM (w : Word) : BitVec 2 := w.extractLsb' 11 2
def cstatFPM (w : Word) : Bool := w.getLsbD 13
def cstatRES (w : Word) : Bool := w.getLsbD 14

/-- Flag bits of CSTAT. -/
def flNV : BitVec 16 := 1
def flDZ : BitVec 16 := 2
def flOF : BitVec 16 := 4
def flUF : BitVec 16 := 8
def flNX : BitVec 16 := 16
def flSAT : BitVec 16 := 32
def flNR : BitVec 16 := 0x8000

/-- Sticky flags OR-ed into the CSTAT of the current context. -/
def setFlags (s : State) (f : BitVec 16) : State :=
  setMe s { me s with live := { (me s).live with cstat := (me s).live.cstat ||| f.setWidth 64 } }

/-! ### Landing windows and the scoreboard -/

/-- A register with a result in its landing window, issued before this master cycle (R14). The lanes of the result. -/
def flightMask (now : Nat) (d : Dest) : List Flight → Pred
  | [] => 0
  | f :: r => (if f.dest = d ∧ f.issued < now then f.mask else 0) ||| flightMask now d r

/-- The argument of a free register read: the step counter, which stands still while a bundle's slots issue, and the slot. So a slot's
checks and its effect read one value. -/
def readTag (s : State) : Nat := 8 * s.fresh + s.latch.slot

/-- A g register as read at issue: g0 reads 0 (R32); inside a landing window the value is free (R14). -/
def readG (s : State) (n : Reg) : Word :=
  if n = 0 then 0
  else if flightMask s.now (.g n.toNat) (me s).flight = 0 then (me s).live.g.get 0 n.toNat
  else Config.freeG (readTag s) n.toNat

/-- A v register as read at issue; the lanes of a result in its window are free (R14). -/
def readV (s : State) (n : Reg) : Vec :=
  let m := flightMask s.now (.v n.toNat) (me s).flight
  if m = 0 then (me s).live.v.get 0 n.toNat else mergeLanes m (Config.freeV (readTag s) n.toNat) ((me s).live.v.get 0 n.toNat)

/-- A predicate as read at issue: p0 reads all ones (R32); the lanes of a result in its window are free (R14). -/
def readP (s : State) (n : PReg) : Pred :=
  if n = 0 then allLanes
  else
    let m := flightMask s.now (.p n.toNat) (me s).flight
    if m = 0 then (me s).live.p.get 0 n.toNat
    else (Config.freeP (readTag s) n.toNat &&& m) ||| ((me s).live.p.get 0 n.toNat &&& ~~~ m)

/-- Where a task stands: a core and a context, or an image slot. -/
def whereIs (t : Task) : Option (Nat × Nat) :=
  match t.st with
  | .placed => some (t.core, t.x)
  | .saved => some (t.core, 4 + t.slot)
  | _ => none

/-- Where a context that acted for a task, or on its own core, stands now. -/
def standsAt (s : State) (task : Option Nat) (c x : Nat) : Option (Nat × Nat) :=
  match task with
  | none => some (c, x)
  | some e => match s.serai.tasks.find e with | some t => whereIs t | none => none

/-- Where the launcher of a TASKL stands. -/
def launcherAt (s : State) (l : Launch) : Option (Nat × Nat) := standsAt s l.task l.core l.x

/-- Is a register of context `x` of core `c` pending on the scoreboard (R17)? A load of this master cycle belongs to the
bundle in issue. p15 is pending while a vector long load is (R149). -/
def pendingDest (s : State) (c x : Nat) (d : Dest) : Bool :=
  let k := getCtx s c x
  k.loads.any (fun l => (l.dest == d || (l.vec && d == .p 15)) && l.issued < s.now && d != .g 0)
  || (match k.nap with | some n => d == .g n && n != 0 | none => false)
  || s.serai.launches.any (fun l => l.byTask && l.seq.isNone && decide (l.place < k.nload) && launcherAt s l == some (c, x)
    && d == .g l.dest && l.dest != 0)

/-- A result enters its landing window; a result with no lane and no flag leaves no trace. -/
def addFlight (s : State) (d : Dest) (val : Vec) (mask : Pred) (win : Nat) (flags : BitVec 16) (bad : Bool) : State :=
  if mask = 0 ∧ flags = 0 ∧ bad = false then s
  else
    setMe s { me s with
      flight := (me s).flight ++
        [{ dest := d, val := val, mask := mask, left := win - 1, issued := s.now, acquire := false, flags := flags,
           residueBad := bad, slot := s.latch.slot, pc := (me s).bpc }] }

/-- A scalar result (R14, R33): a write to g0 is discarded. -/
def putG (s : State) (n : Reg) (val : Word) (win : Nat) : State :=
  if n = 0 then s else addFlight s (.g n.toNat) (val.setWidth 1024) allLanes win 0 false

/-- A predicate result in the lanes of `mask` (R33, R131): p0 is never written; flags still land. -/
def putP (s : State) (n : PReg) (val mask : Pred) (win : Nat) (flags : BitVec 16) : State :=
  addFlight s (.p n.toNat) (val.setWidth 1024) (if n = 0 then 0 else mask) win flags false

/-- A vector result in the lanes of `mask` (R33). -/
def putV (s : State) (n : Reg) (val : Vec) (mask : Pred) (win : Nat) (flags : BitVec 16) (bad : Bool) : State :=
  addFlight s (.v n.toNat) val mask win flags bad

/-- A result written into a register file (R16, R33). -/
def landRegs (r : Regs) (d : Dest) (val : Vec) (mask : Pred) : Regs :=
  match d with
  | .g n => if mask = 0 ∨ n = 0 then r else { r with g := r.g.set n (val.setWidth 64) }
  | .v n => { r with v := r.v.set n (mergeLanes mask val (r.v.get 0 n)) }
  | .p n => if n = 0 then r else
    { r with p := r.p.set n ((val.setWidth 32 &&& mask) ||| (r.p.get 0 n &&& ~~~ mask)) }

/-- Results before a landing one in program order lose the lanes it writes (R16). -/
def dropOlder (d : Dest) (mask : Pred) (fs : List Flight) : List Flight :=
  fs.map fun f => if f.dest = d then { f with mask := f.mask &&& ~~~ mask } else f

/-- One result lands: register and sticky flags. -/
def landOne (r : Regs) (f : Flight) : Regs :=
  let r' := landRegs r f.dest f.val f.mask
  { r' with cstat := r'.cstat ||| f.flags.setWidth 64 }

/-- Every due result lands, in program order; a result that lands after a later-issued one keeps only the lanes that one
left alone (R16), and is in its window for those only (log entry 113). -/
def landDue (r : Regs) : List Flight → Regs × List Flight
  | [] => (r, [])
  | f :: rest =>
    if f.left = 0 then
      let t := landDue (landOne r f) rest
      t
    else
      let later := (rest.filter fun g => g.dest = f.dest ∧ g.left = 0).foldl (fun m g => m ||| g.mask) 0
      let t := landDue r rest
      (t.1, { f with mask := f.mask &&& ~~~ later } :: t.2)

/-! ### The model's clock of open latencies -/

/-- The next entry of the delay script, or 0 (log entry 10). -/
def nextDelay (s : State) : Nat := s.delays.headD 0

/-- A row that falls due at a latency the spec leaves open: now, plus the next entry of the delay script. -/
def later (s : State) (i : Due) : State :=
  { s with timers := s.timers ++ [(s.now + nextDelay s, i)], delays := s.delays.drop 1 }

/-- A row that falls due after `n` master cycles. -/
def after (s : State) (n : Nat) (i : Due) : State := { s with timers := s.timers ++ [(s.now + n, i)] }

/-! ### Reports and package events (R311) -/

/-- A report of code `code` with words 1 to 3. -/
def report (s : State) (code : Nat) (w1 w2 w3 : Word) : State :=
  let d := s.host.dseq + 1
  { s with host := { s.host with
      dseq := d
      reports := s.host.reports ++
        [⟨d, [BitVec.ofNat 64 (d.toNat * 4294967296 + code * 256), w1, w2, w3]⟩] } }

/-- Number of continuation reports of a payload. -/
def contCount (p : List Word) : Nat := (p.length - 1) / 2

/-- The continuation reports of a payload from its third word on. -/
def contReports (s : State) (hd : Nat) (part : Nat) : List Word → State
  | [] => s
  | [w] => report s 5 (BitVec.ofNat 64 (hd + part * 256)) w 0
  | w :: v :: r => contReports (report s 5 (BitVec.ofNat 64 (hd + part * 256)) w v) hd (part + 1) r

/-- An event reaches the sequencer: it is stamped when its master cycle ends (R365). -/
def raise (s : State) (src : Nat) (needsAck : Bool) (p : List Word) : State :=
  { s with serai := { s.serai with raised := s.serai.raised ++ [(src, needsAck, p)] } }

/-- A package event with its source and payload. -/
def event (s : State) (src : Nat) (p : List Word) : State := raise s src false p

/-- An event that stays open until EVACK names it (R311). -/
def eventOpen (s : State) (src : Nat) (p : List Word) : State := raise s src true p

/-- The sequencer stamps an event and writes one report and its continuations (R311, Table 17.7); a root event of a manifest that a
scheduler node sent goes to the node as well (R313). -/
def stampEvent (s : State) (src : Nat) (needsAck : Bool) (p : List Word) : State :=
  let n := s.serai.evseq
  let hd := n.toNat * 4294967296 + src
  let s1 := { s with serai := { s.serai with evseq := n + 1 } }
  let k := if p.length ≤ 2 then 0 else contCount p
  let s2 := report s1 4 (BitVec.ofNat 64 (hd + k * 256)) (p.headD 0) ((p.drop 1).headD 0)
  let s3 := contReports s2 hd 1 (p.drop 2)
  let s4 := if src = 0x0D ∧ s.host.nodeWait.contains (p.headD 0) = true then
      { s3 with host := { s3.host with
        nodeOut := s3.host.nodeOut ++ [BitVec.ofNat 64 hd :: p], nodeWait := s3.host.nodeWait.erase (p.headD 0) } }
    else s3
  if needsAck then { s4 with host := { s4.host with openEvents := s4.host.openEvents ++ [(src, n)] } } else s4

/-! ### The numbering of every byte

Physical memory of the package is 0 to 2^40 - 1 (R242). The on-chip levels and the frames of other packages stand above
it, each in a range of its own. -/

def hbmTop : Nat := 2 ^ 40
def tileBase (c : Nat) : Nat := 2 ^ 44 + c * 2 ^ 20
def clusterBase (k : Nat) : Nat := 2 ^ 45 + k * 2 ^ 22
def scratchBase (d : Nat) : Nat := 2 ^ 46 + d * 2 ^ 25
def sliceBase (c : Nat) : Nat := 2 ^ 47 + c * 2 ^ 17
def scaleBase (c : Nat) : Nat := 2 ^ 48 + c * 2 ^ 16
def remoteBase (h : Nat) : Nat := 2 ^ 50 * (h + 1)

/-- The die that an on-chip byte belongs to. -/
def dieOfAddr (a : Nat) : Nat :=
  if a < 2 ^ 45 then dieOf ((a - 2 ^ 44) / 2 ^ 20)
  else if a < 2 ^ 46 then (a - 2 ^ 45) / 2 ^ 22 / 16
  else if a < 2 ^ 47 then (a - 2 ^ 46) / 2 ^ 25
  else if a < 2 ^ 48 then dieOf ((a - 2 ^ 47) / 2 ^ 17)
  else dieOf ((a - 2 ^ 48) / 2 ^ 16)

/-- The bank hash of tile store and cluster memory (R246): where the byte at linear offset `b` is stored. -/
def hashed (key : BitVec 32) (b : Nat) : Nat :=
  let row := b / 128
  let x := row % 32768 &&& (key.toNat % 32768)
  let bank := (b / 4 % 32) ^^^ (x % 32) ^^^ (x / 32 % 32) ^^^ (x / 1024 % 32) ^^^ (key.toNat / 2 ^ 27)
  row * 128 + bank * 4 + b % 4

/-- The swizzle of the views 0xFFF5 and 0xFFF6 (R247). -/
def swizzled (b : Nat) : Nat :=
  b / 128 * 128 + ((b / 4 % 32) ^^^ (b / 128 % 32)) * 4 + b % 4

/-- The storage address of a tile-store byte through a view and a key. -/
def tileByte (c : Nat) (key : BitVec 32) (view : Bool) (b : Nat) : Nat :=
  tileBase c + hashed key (if view then swizzled b else b)

/-- The storage address of a cluster-memory byte through a view and a key. -/
def clusterByte (k : Nat) (key : BitVec 32) (view : Bool) (b : Nat) : Nat :=
  clusterBase k + hashed key (if view then swizzled b else b)

/-! ### Tile tables, frames and shadows (R216, R242, R244) -/

/-- The package's number in the pod, PODPOS.PKG (R242). -/
def pkgNo (s : State) : Nat := (s.pkg.podpos.extractLsb' 48 8).toNat

/-- A tile-table entry, 8 bytes at TTAB + 8n (R242). -/
def entryAt (s : State) (l : Layout) (tile : Nat) : Nat := s.mem.readN (l.ttab + 8 * tile) 8

/-- The address of the frame an entry names (Table 10.4). -/
def frameOf (s : State) (e : Nat) : Nat :=
  let phys := e / 2 ^ 16 % 2 ^ 24 * 65536
  let home := e / 2 ^ 48 % 256
  if home = pkgNo s then phys else remoteBase home + phys

/-- A tile as one number: tensor id and tile. -/
def tileKey (tid tile : Nat) : Nat := tid * 2 ^ 48 + tile

/-- First number of the renamed bytes: a store of a divisible task to a write-set tile is kept under the task's
dependence-table entry, the tile and the offset until it is performed (R216). -/
def shadowTop : Nat := 2 ^ 100
def shadowByte (e key off : Nat) : Nat := shadowTop + (e * 2 ^ 64 + key) * 65536 + off

/-- Stands for byte `off` of a tile that has been evicted, in a monitor that is armed on it: no access reaches it (R192, R243). -/
def absentByte (pid key off : Nat) : Nat := 2 ^ 98 + (pid * 2 ^ 64 + key) * 65536 + off

/-- The shadow frame of a tile of a task, by its entry. -/
def shadowFrame (s : State) (e key : Nat) : Option Nat :=
  match s.serai.tasks.find e with
  | some t => findCell key t.shadows
  | none => none

/-- The published frame of a tile of a task's process. -/
def publishedFrame (s : State) (e key : Nat) : Option Nat :=
  match s.serai.tasks.find e with
  | some t => match (getProc s t.pid).tensors.find (key / 2 ^ 48) with
    | some l =>
      let n := entryAt s l (key % 2 ^ 48)
      if n / 2 ^ 62 = 1 then some (frameOf s n) else none
    | none => none
  | none => none

/-- Where a byte stands: a renamed byte stands in the shadow frame once the task has written the tile, else in the published
one (R216). -/
def resolve (s : State) (a : Nat) : Option Nat :=
  if a < shadowTop then some a
  else
    let q := (a - shadowTop) / 65536
    match shadowFrame s (q / 2 ^ 64) (q % 2 ^ 64) with
    | some f => some (f + a % 65536)
    | none => (publishedFrame s (q / 2 ^ 64) (q % 2 ^ 64)).map fun f => f + a % 65536

/-- Is a frame outside the allocator's reach: named by a MAP, or part of the image pool (R308, R322)? -/
def frameTaken (s : State) (f : Nat) : Bool :=
  s.serai.taken.contains f || (decide (s.serai.poolBase / 65536 ≤ f) && decide (f < s.serai.poolBase / 65536 + 32 * s.serai.slots))

/-- The first frame number from `n` on that is within reach, among the next `fuel` ones. -/
def skipTaken (s : State) (m : Nat) : Nat → Nat → Nat
  | 0, n => n
  | f + 1, n => if frameTaken s (m * Config.framesPerStack + n) then skipTaken s m f (n + 1) else n

/-- A free frame of memory stack `m`: a freed one, else the next (frame 0 of stack 0 is the mailbox's, R321; the last ones hold a
checkpoint area, R341). -/
def frameIn (s : State) (m : Nat) : Option (State × Nat) :=
  match s.serai.freed.get [] m with
  | f :: r => some ({ s with serai := { s.serai with freed := s.serai.freed.set m r } }, f * 65536)
  | [] =>
    let n := skipTaken s m (s.serai.taken.length + 32 * s.serai.slots + 1) (s.serai.nextFrame.get (if m = 0 then 1 else 0) m)
    if n < Config.framesPerStack - Config.areaFrames then
      some ({ s with serai := { s.serai with nextFrame := s.serai.nextFrame.set m (n + 1) } },
        (m * Config.framesPerStack + n) * 65536)
    else none

/-- A free frame of the first of these memory stacks that has one. -/
def frameFrom (s : State) : List Nat → Option (State × Nat)
  | [] => none
  | m :: r => match frameIn s m with
    | some f => some f
    | none => frameFrom s r

/-- First-touch order of memory stacks for a core and a tile (R244); a management core touches as stack 0 (log entry 119). -/
def stackOrder (c tile : Nat) : List Nat :=
  let k := if isMgmt c then 0 else stackOf c
  [2 * k + tile % 2, 2 * k + (tile + 1) % 2] ++ List.range 16

/-- Does a task hold a shadow of a tile, or a frame set aside for it? -/
def heldFrame (s : State) (e key : Nat) : Bool :=
  match s.serai.tasks.find e with
  | some t => (findCell key t.shadows).isSome || (findCell key t.spares).isSome
  | none => false

/-- A frame is set aside for the shadow that an issued write will create; with none free the residency service raises the event of
source 0x0F (R216, R244). -/
def setAside (s : State) (c e key : Nat) : State :=
  if heldFrame s e key then s
  else match s.serai.tasks.find e with
    | none => s
    | some t => match frameFrom s (stackOrder c (key % 2 ^ 48)) with
      | some (s1, f) =>
        { s1 with serai := { s1.serai with tasks := s1.serai.tasks.set e { t with spares := t.spares ++ [(key, f)] } } }
      | none => event s 0x0F [BitVec.ofNat 64 key]

/-- The task's first write to a renamed tile creates its shadow frame, a copy of the published contents at the depot, zero where the
tile is unplaced (R109, R216). -/
def makeShadow (s : State) (a : Nat) : State :=
  if a < shadowTop then s
  else
    let q := (a - shadowTop) / 65536
    let e := q / 2 ^ 64
    let key := q % 2 ^ 64
    match s.serai.tasks.find e with
    | none => s
    | some t => match findCell key t.spares with
      | none => s
      | some f =>
        { s with
          mem := match publishedFrame s e key with | some pub => s.mem.copy pub f 65536 | none => s.mem.clear f 65536
          serai := { s.serai with tasks := s.serai.tasks.set e { t with
            shadows := t.shadows ++ [(key, f)], spares := t.spares.filter fun g => g.1 != key } } }

/-! ### Endpoints and pairs of the message layer (R337 to R339; numbered by log entry 17) -/

/-- The endpoint of a core: its die, or the Serai. -/
def coreEnd (c : Nat) : Nat := if isMgmt c then 16 else dieOf c

/-- The base die whose memory stack holds a byte, of this package or another; none for a byte of the on-chip levels. -/
def homeEnd (p : Nat) : Option Nat :=
  if p < hbmTop then some (17 + p / 2 ^ 36)
  else if p < 2 ^ 50 ∨ 2 ^ 59 ≤ p then none
  else some (256 * (p / 2 ^ 50) + 17 + p % 2 ^ 50 / 2 ^ 36)

/-- The ordered pair of source `a` and destination `b`. -/
def pairKey (a b : Nat) : Nat := a * 65536 + b
def getLink (s : State) (a b : Nat) : Link := s.links.get Link.reset (pairKey a b)
def setLink (s : State) (a b : Nat) (l : Link) : State := { s with links := s.links.set (pairKey a b) l }

/-- Is a message older than the expected one (R338)? -/
def isOld (sq expected : BitVec 32) : Bool := decide (2 ^ 31 ≤ (sq - expected).toNat)

/-- Has the destination of a pair still to receive a message that has been sent? -/
def gapOpen (l : Link) : Bool := isOld l.expected l.next

/-- Messages of a pair in its source's retransmit buffer (R339). -/
def unacked (l : Link) : Nat := if isOld (l.next - 1) l.acked then 0 else (l.next - 1 - l.acked).toNat

/-- Messages in the retransmit buffer of endpoint `a`. -/
def occupied (s : State) (a : Nat) : Nat := ((s.links.cells.filter fun e => e.1 / 65536 == a).map fun e => unacked e.2).sum

/-- Can a transfer of a pair be sent and delivered now: none sent before it is still out, and its source has a free entry (R337,
R339)? -/
def mayPass (s : State) (a b : Nat) : Bool := !gapOpen (getLink s a b) && decide (occupied s a < Config.retransmit)

/-! ### Transfers (R337, R344) -/

/-- A transfer passes: the pair counts it. A write-back that cannot wait for an open gap is not counted (log entry 17). -/
def passLink (l : Link) (now : Nat) : Link :=
  if gapOpen l then l else
  { l with next := l.expected + 1, expected := l.expected + 1, oldAt := if l.expected = l.acked + 1 then now else l.oldAt }

/-- A transfer that had been delivered before a reset is sent again: its destination discards it (R338, R348). -/
def repeatLink (l : Link) : Link := if isOld l.next l.expected then { l with next := l.next + 1 } else l

/-- Does die `b` keep an inbound log: has it a checkpoint, or one in the making (R344)? -/
def keepsLog (s : State) (b : Nat) : Bool := decide (b < 16) && ((getDie s b).ckpt.isSome || (getDie s b).capture.isSome)

/-- Is a die held in reset (phases 3 to 5 of Table 19.4)? -/
def dieHeld (s : State) (d : Nat) : Bool := decide (3 ≤ (getDie s d).rphase) && decide ((getDie s d).rphase ≤ 5)

/-- Is die `b` under replay (phase 5 of Table 19.4)? -/
def underReplay (s : State) (b : Nat) : Bool := decide (b < 16) && (getDie s b).rphase == 5

/-- Does a message come to a die by itself, or to a context that may not have asked for it again yet? -/
def waitsInReplay : MsgBody → Bool
  | .page _ _ | .answer _ _ _ => true
  | _ => false

/-- A message delivered to a die joins its inbound log (R344); one that comes while the die replays takes its turn in the replay. -/
def logInbound (s : State) (a b : Nat) (sq : BitVec 32) (m : MsgBody) : State :=
  if keepsLog s b then
    let d := getDie s b
    setDie s b { d with log := d.log ++ [⟨a, sq, m⟩], replay := if d.rphase = 5 ∧ waitsInReplay m then d.replay ++ [⟨a, sq, m⟩] else d.replay }
  else s

/-- Does a message stay with its source until the destination has rejoined: a write to the twin window, to a die held in reset (Table
19.4)? -/
def staysBehind (s : State) (b : Nat) : MsgBody → Bool
  | .twin _ _ _ _ _ => decide (b < 16) && dieHeld s b
  | _ => false

/-- A transfer from endpoint `a` to endpoint `b`: it is numbered, delivered in order, and logged. -/
def carry (s : State) (a b : Nat) (m : MsgBody) : State :=
  if a = b then s
  else if staysBehind s b m then setDie s b { getDie s b with inbox := (getDie s b).inbox ++ [(a, m)] }
  else
    let l := getLink s a b
    logInbound (setLink s a b (passLink l s.now)) a b l.expected m

/-- A transfer whose contents no replay reads. -/
def signal (s : State) (a b : Nat) : State := carry s a b .plain

/-- Transfers of one content to several endpoints. -/
def carryTo (s : State) (a : Nat) (m : MsgBody) : List Nat → State
  | [] => s
  | b :: r => carryTo (carry s a b m) a m r

/-! ### Caches and scope points (R236, R249) -/

def lineByte (l : Line) (i : Nat) : Byte := l.data.extractLsb' (8 * i) 8
def emptyLine : Line := ⟨0, 0, 0⟩

/-- A line with byte `i` written; `d` marks it dirty. -/
def putLine (l : Line) (i : Nat) (v : Byte) (d : Bool) : Line :=
  { data := (l.data &&& ~~~ ((0xFF : BitVec 512) <<< (8 * i))) ||| (v.setWidth 512 <<< (8 * i))
    valid := l.valid ||| ((1 : BitVec 64) <<< i)
    dirty := if d then l.dirty ||| ((1 : BitVec 64) <<< i) else l.dirty }

/-- A byte as the L2 of die `d`, or beyond it, holds it. -/
def readL2 (s : State) (d : Nat) (a : Nat) : Byte :=
  match (getDie s d).l2.find (a / 64) with
  | some l => if l.valid.getLsbD (a % 64) then lineByte l (a % 64) else s.mem.read a
  | none => s.mem.read a

/-- A byte as the L1 of core `c`, or beyond it, holds it. -/
def readL1 (s : State) (c : Nat) (a : Nat) : Byte :=
  match (getCore s c).l1.find (a / 64) with
  | some l => if l.valid.getLsbD (a % 64) then lineByte l (a % 64) else readL2 s (dieOf c) a
  | none => readL2 s (dieOf c) a

/-- A byte at the scope point of a load (Table 10.5): on-chip levels, remotely homed lines and management cores read the
level, the home depot and the depot. -/
def readPlace (s : State) (c scope : Nat) (a : Nat) : Byte :=
  if hbmTop ≤ a ∨ isMgmt c then s.mem.read a
  else if scope ≤ 1 then readL1 s c a
  else if scope ≤ 3 then readL2 s (dieOf c) a
  else s.mem.read a

/-- A byte, renamed or not, at the scope point of a load. -/
def readAt (s : State) (c scope : Nat) (a : Nat) : Byte :=
  match resolve s a with
  | some p => readPlace s c scope p
  | none => 0

/-- A line filled with what every byte of it reads as, keeping the bytes that are valid already. -/
def fillFrom (l : Line) (f : Nat → Byte) : Nat → Line
  | 0 => l
  | n + 1 =>
    let l' := fillFrom l f n
    if l'.valid.getLsbD n then l' else putLine l' n (f n) false

/-- Bytes at a scope point, low byte first, as one number. -/
def readBytes (s : State) (c scope : Nat) : List Nat → Nat
  | [] => 0
  | a :: r => (readAt s c scope a).toNat + 256 * readBytes s c scope r

/-- The monitors of every context armed on the byte fire (R192). -/
def fireMonitors (s : State) (a : Nat) : State :=
  { s with cores := s.cores.map fun _ k =>
      { k with ctxs := k.ctxs.map fun _ t =>
          if t.mon.st = .armed ∧ t.mon.established ∧ (t.mon.addrs.any fun q => resolve s q == some a)
          then { t with mon := { t.mon with st := .fired } } else t } }

/-- The clean copies of a byte leave every L2 before a write at a depot is performed (R236). -/
def dropClean (s : State) (a : Nat) : State :=
  { s with dies := s.dies.map fun _ d =>
      match d.l2.find (a / 64) with
      | some l =>
        if l.dirty.getLsbD (a % 64) then d
        else { d with l2 := d.l2.set (a / 64) { l with valid := l.valid &&& ~~~ ((1 : BitVec 64) <<< (a % 64)) } }
      | none => d }

/-- Is a byte one of an on-chip level? -/
def onLevel (a : Nat) : Bool := decide (2 ^ 44 ≤ a) && decide (a < 2 ^ 49)

/-- The checkpoint area of die `d`: the top 1 GiB of a memory stack of compute stack STACK XOR 1 (R341; log entry 40). -/
def areaBase (d : Nat) : Nat := ((2 * (d / 2 ^^^ 1) + d % 2 + 1) * 2 ^ 36) - Config.areaFrames * 65536

/-- Is a byte one of a checkpoint area? -/
def inArea (a : Nat) : Bool :=
  (List.range 16).any fun d => decide (areaBase d ≤ a) && decide (a < areaBase d + Config.areaFrames * 65536)

/-- The lowest 4 KiB place of an area that neither of two maps names: an area has more places than two captures have blocks. -/
def freePlace (m n : List (Nat × Nat)) : Nat :=
  let used := (m ++ n).map (·.2)
  ((List.range (used.length + 1)).find? fun i => !used.contains i).getD 0 % (Config.areaFrames * 16)

/-- Must the Drover copy the block of a byte before a write to it: a capture lists it and has not copied it yet (R343)? -/
def waitsCopy (s : State) (a : Nat) : Bool :=
  onLevel a && decide (dieOfAddr a < 16) && match (getDie s (dieOfAddr a)).capture with
    | some c => c.blocks.contains (a / 4096) && (findCell (a / 4096) c.map).isNone
    | none => false

/-- The Drover copies block `b` of die `d` to fresh space in the die's area (R343). -/
def copyOut (s : State) (d b : Nat) : State :=
  let k := getDie s d
  match k.capture with
  | none => s
  | some c =>
    let n := freePlace c.map (match k.ckpt with | some o => o.map | none => [])
    carryTo (setDie { s with mem := s.mem.copy (b * 4096) (areaBase d + n * 4096) 4096 } d
      { k with capture := some { c with map := c.map ++ [(b, n)] } }) d .plain (homeEnd (areaBase d)).toList

/-- A write that is at hand waits no longer than the Drover takes to copy its block (R343). -/
def keepBlock (s : State) (a : Nat) : State := if waitsCopy s a then copyOut s (dieOfAddr a) (a / 4096) else s

/-- One byte written at the depot of a memory stack (R249, R250). -/
def writeStack (s : State) (a : Nat) (v : Byte) : State := fireMonitors (dropClean { s with mem := s.mem.write a v } a) a

/-- One byte written in an on-chip level. -/
def writeLevel (s : State) (a : Nat) (v : Byte) : State :=
  let s1 := keepBlock s a
  fireMonitors { s1 with mem := s1.mem.write a v } a

/-- One byte written at its depot or on-chip level (R249, R250). -/
def writeDepot (s : State) (a : Nat) (v : Byte) : State := if a < hbmTop then writeStack s a v else writeLevel s a v

/-- An on-chip write dirties its 4 KiB block for the next checkpoint (R343, R345). -/
def markDirty (s : State) (a : Nat) : State :=
  if !onLevel a then s
  else
    let d := getDie s (dieOfAddr a)
    if d.dirtyBlocks.contains (a / 4096) then s
    else setDie s (dieOfAddr a) { d with dirtyBlocks := d.dirtyBlocks ++ [a / 4096] }

/-- The writing core's own L1 copy follows every plain write (R236). -/
def updateL1 (s : State) (c a : Nat) (v : Byte) : State :=
  match (getCore s c).l1.find (a / 64) with
  | some l =>
    if l.valid.getLsbD (a % 64) then
      setCore s c { getCore s c with l1 := (getCore s c).l1.set (a / 64) (putLine l (a % 64) v false) }
    else s
  | none => s

/-- Dirty bytes `i < n` of a line written back to the depot (R250). -/
def writeBackBytes (s : State) (base : Nat) (l : Line) : Nat → State
  | 0 => s
  | n + 1 =>
    let s' := writeBackBytes s base l n
    if l.dirty.getLsbD n then writeStack s' (base + n) (lineByte l n) else s'

/-- A line of a die's L2 written back; it is clean, and stays valid (R206). -/
def writeBackLine (s : State) (d ln : Nat) : State :=
  match (getDie s d).l2.find ln with
  | none => s
  | some l =>
    let s1 := writeBackBytes (if l.dirty = 0 then s else carryTo s d .plain (homeEnd (ln * 64)).toList) (ln * 64) l 64
    setDie s1 d { getDie s1 d with l2 := (getDie s1 d).l2.set ln { l with dirty := 0 } }

/-- A byte that a die's L2 holds dirty reaches the depot before a write of the die to that depot does (R249, R253). -/
def joinDepot (s : State) (d a : Nat) : State :=
  match (getDie s d).l2.find (a / 64) with
  | some l => if l.dirty.getLsbD (a % 64) then writeBackLine s d (a / 64) else s
  | none => s

/-- The line that makes room for line `ln`: the lowest other one (log entry 106). -/
def victimLine (t : Tab Line) (ln : Nat) : Option Nat := (t.cells.find? fun e => e.1 != ln).map (·.1)

/-- A line stands in the L1 of a core; where that is full another one leaves it (R236). -/
def putL1 (s : State) (c ln : Nat) (l : Line) : State :=
  let t := (getCore s c).l1.set ln l
  setCore s c { getCore s c with l1 :=
    if t.cells.length ≤ Config.l1Lines then t else match victimLine t ln with | some v => t.erase v | none => t }

/-- A line stands in the L2 of a die; where that is full another one is written back and leaves it (R236, R250). -/
def putL2 (s : State) (d ln : Nat) (l : Line) : State :=
  let s1 := setDie s d { getDie s d with l2 := (getDie s d).l2.set ln l }
  if (getDie s1 d).l2.cells.length ≤ Config.l2Lines then s1
  else match victimLine (getDie s1 d).l2 ln with
    | some v => let s2 := writeBackLine s1 d v; setDie s2 d { getDie s2 d with l2 := (getDie s2 d).l2.erase v }
    | none => s1

/-- The line of `a` brought into the L2 of die `d` (R236). -/
def fillL2 (s : State) (d a : Nat) : State :=
  let l := ((getDie s d).l2.find (a / 64)).getD emptyLine
  putL2 s d (a / 64) (fillFrom l (fun i => s.mem.read (a / 64 * 64 + i)) 64)

/-- The 64 bytes of a line at its depot. -/
def lineData (s : State) (ln : Nat) : BitVec 512 := (fillFrom emptyLine (fun i => s.mem.read (ln * 64 + i)) 64).data

/-- A line that has come from its depot joins the L2 of die `d`: it fills the bytes that are not valid there. -/
def layLine (s : State) (d : Nat) (q : Nat × BitVec 512) : State :=
  putL2 s d q.1 (fillFrom (((getDie s d).l2.find q.1).getD emptyLine) (fun i => q.2.extractLsb' (8 * i) 8) 64)

/-- The line of `a` brought into the L1 of core `c`, through the L2 (R236). -/
def fillL1 (s : State) (c a : Nat) : State :=
  let s1 := fillL2 s (dieOf c) a
  let l := ((getCore s1 c).l1.find (a / 64)).getD emptyLine
  putL1 s1 c (a / 64) (fillFrom l (fun i => readL2 s1 (dieOf c) (a / 64 * 64 + i)) 64)

/-- A load leaves its line in the caches its scope reads (R236; log entry 11). -/
def fillFor (s : State) (c scope a : Nat) : State :=
  match resolve s a with
  | none => s
  | some p =>
    if hbmTop ≤ p ∨ isMgmt c then s
    else if scope ≤ 1 then fillL1 s c p
    else if scope ≤ 3 then fillL2 s (dieOf c) p
    else s

/-- One byte of a plain write by core `c`, performed at its scope point (Table 10.5). -/
def writePlace (s : State) (c scope : Nat) (a : Nat) (v : Byte) : State :=
  if hbmTop ≤ a then markDirty (writeDepot s a v) a
  else if isMgmt c then writeDepot s a v
  else
    let s1 := updateL1 s c a v
    if scope ≤ 3 then
      putL2 s1 (dieOf c) (a / 64) (putLine (((getDie s1 (dieOf c)).l2.find (a / 64)).getD emptyLine) (a % 64) v true)
    else writeDepot (joinDepot s1 (dieOf c) a) a v

/-- One byte, renamed or not, of a plain write. -/
def writeAt (s : State) (c scope : Nat) (a : Nat) (v : Byte) : State :=
  let s1 := makeShadow s a
  match (if a < shadowTop then some a else shadowFrame s1 ((a - shadowTop) / 65536 / 2 ^ 64)
      ((a - shadowTop) / 65536 % 2 ^ 64) |>.map (· + a % 65536)) with
  | some p => writePlace s1 c scope p v
  | none => s1

/-- The bytes of a plain write, in order. -/
def writeCellsAt (s : State) (c scope : Nat) : List (Nat × Byte) → State
  | [] => s
  | w :: r => writeCellsAt (writeAt s c scope w.1 w.2) c scope r

/-- Bytes written by an engine or the host at their depot or level. -/
def writeDepots (s : State) : List (Nat × Byte) → State
  | [] => s
  | w :: r => writeDepots (markDirty (writeDepot s w.1 w.2) w.1) r

/-- Every listed line of a die's L2 written back. -/
def writeBackLines (s : State) (d : Nat) : List Nat → State
  | [] => s
  | ln :: r => writeBackLines (writeBackLine s d ln) d r

/-- Every dirty line of a die's L2 written back (R250). -/
def writeBackAll (s : State) (d : Nat) : State :=
  writeBackLines s d (((getDie s d).l2.cells.filter fun e => e.2.dirty != 0).map (·.1))

/-- Every L1 and L2 copy of the bytes `[a, a+n)` leaves the package (R256). -/
def dropCopies (s : State) (a n : Nat) : State :=
  let keep := fun (ln : Nat) => !(a / 64 ≤ ln && ln * 64 < a + n)
  { s with
    cores := s.cores.map fun _ k => { k with l1 := k.l1.filter fun ln _ => keep ln }
    dies := s.dies.map fun _ d => { d with l2 := d.l2.filter fun ln _ => keep ln } }

/-- A frame returned to its memory stack: no cached copy of its bytes outlives it (R243). -/
def freeFrame (s : State) (f : Nat) : State :=
  let m := f / 2 ^ 36
  let s1 := dropCopies s f 65536
  { s1 with serai := { s1.serai with freed := s1.serai.freed.set m (s1.serai.freed.get [] m ++ [f / 65536]) } }

/-! ### Scopes (R43) -/

/-- The scope code of an ordering class. -/
def scopeOf (r : Regs) (cls : BitVec 4) : Nat :=
  let n := cls.toNat
  if n < 8 then (r.ocs0.toNat / 16 ^ n) % 16 else (r.ocs1.toNat / 16 ^ (n - 8)) % 16

/-! ### Licence releases (R274 to R276) -/

/-- Requests of a core. -/
def reqsOf (p : Pair) (c : Nat) : List LicReq := p.reqs.filter fun r => r.core = c

/-- Does request `a` come before `b`: priority, then age, then the lower die (R274)? -/
def licBefore (a b : LicReq) : Bool :=
  a.prio > b.prio || (a.prio == b.prio && (a.age < b.age || (a.age == b.age && a.core / 128 % 2 < b.core / 128 % 2)))

/-- The request that is served first. -/
def licBest : List LicReq → Option LicReq
  | [] => none
  | r :: t => match licBest t with
    | none => some r
    | some q => if licBefore q r then some q else some r

/-- The first master cycle in which a grant to core `c` needs no gap: LASTBEAT of the other array + 64 (R275). -/
def gapFree (p : Pair) (c : Nat) : Nat := if c / 128 % 2 = 0 then p.freeUpper else p.freeLower

/-- State of the licence held on the die of core `c`. -/
def licSide (c : Nat) : LicState := if c / 128 % 2 = 0 then .lower else .upper

/-- Master cycles that moving a parked state takes (R180, R299). -/
def moveCycles (banks : Nat) : Nat := 8 + 20 * banks

/-- Number of live banks. -/
def liveBanks (z : Tab Bank) : Nat := (z.cells.filter fun e => e.2.live).length

/-- The parked state of context `x` of core `c` (of the saved context in image slot `x - 4`): in its twin's parking SRAM, or in
its image (R180, R278). -/
def parkedOf (s : State) (c x : Nat) : Option Parked :=
  let held := if x < 4 then (getCtx s c x).mstate
    else match s.serai.images.find (x - 4) with | some i => i.ctx.mstate | none => none
  match (getCore s (twinOf c)).park with
  | some p => if p.core = c ∧ p.x = x then some p else held
  | none => held

/-- A context whose parked state moves back: it is not ready until the move ends (R299). -/
def startRestore (s : State) (c x : Nat) : State :=
  match parkedOf s c x with
  | some k =>
    let n := moveCycles (liveBanks k.banks)
    after (setCtx (signal s (coreEnd (twinOf c)) (coreEnd c)) c x { getCtx s c x with restoring := true, moveEnd := s.now + n }) n
      (.parkedRestoreDone c x)
  | none => s

/-- Request `r` leaves the queue of its pair. -/
def takeReq (p : Pair) (r : LicReq) : Pair := { p with reqs := p.reqs.filter fun q => !(q.core = r.core && q.x = r.x) }

/-- A grant to a LICQ belongs to the open interval of its context (R27); one to a restored holder does not. -/
def markGrant (s : State) (r : LicReq) : State :=
  if r.implicit then s else setCtx s r.core r.x { getCtx s r.core r.x with grantInInterval := true }

/-- The licence is given to a request: at once if the gap is met, otherwise PASSING (Table 12.2). An implicit request of a
restored holder, or a LICQ of a context whose state is parked, starts the move back (R299). -/
def licChoose (s : State) (pr : Nat) (r : LicReq) : State :=
  let p := getPair s pr
  let p1 := { takeReq p r with grantee := some r, parkedFor := none, choose := none }
  let s0 := markGrant (signal s (coreEnd (twinOf r.core)) (coreEnd r.core)) r
  let s1 := if gapFree p r.core ≤ s.now then
      setPair s0 pr { p1 with st := licSide r.core, holder := some (r.core, r.x), gapEnd := s.now }
    else setPair s0 pr { p1 with st := .passing, holder := none, gapEnd := gapFree p r.core }
  startRestore s1 r.core r.x

/-- The licence of a pair is released (Table 12.2): the next grantee is chosen at the end of the master cycle, so that a request of the
same cycle takes part (R276). `twin` is LICX: a request of the twin core of `c` goes first. -/
def licNext (s : State) (pr c : Nat) (twin : Bool) : State :=
  setPair s pr { getPair s pr with st := .free, holder := none, grantee := none, parkedFor := none, choose := some (c, twin) }

/-- The choice that follows a release: the best request, under LICX the best of the twin core first; none under a pending LICMODE
(R273, R274, R276). A licence that a LICQ has taken as it issued is no longer free. -/
def licDecide (s : State) (pr : Nat) : State :=
  let p := getPair s pr
  let done := setPair s pr { p with choose := none }
  match p.choose with
  | none => s
  | some (c, twin) =>
    let best := match (if twin then licBest (reqsOf p (twinOf c)) else none) with
      | some r => some r
      | none => licBest p.reqs
    if p.pendMode.isSome ∨ p.mode ∨ p.st ≠ .free then done
    else match best with
      | some r => licChoose done pr r
      | none => done

/-- Under ALT, the holder of a core's half (R279). -/
def altHolder (p : Pair) (c : Nat) : Option Nat := if c / 128 % 2 = 0 then p.altLower else p.altUpper

/-- The pair with the half of core `c` given to `h`; STATE is ALT while either core has a holder (R279). -/
def setAlt (p : Pair) (c : Nat) (h : Option Nat) : Pair :=
  let q := if c / 128 % 2 = 0 then { p with altLower := h } else { p with altUpper := h }
  { q with st := if q.altLower.isSome || q.altUpper.isSome then .alt else .free }

/-- Under ALT, a free half goes to the core's next request (R279). -/
def altNext (s : State) (pr c : Nat) : State :=
  let p := getPair s pr
  match (if p.pendMode.isSome then none else licBest (reqsOf p c)) with
  | some r => startRestore (setPair (markGrant s r) pr (setAlt (takeReq p r) c (some r.x))) r.core r.x
  | none => setPair s pr (setAlt p c none)

/-- The licence of a free pair goes to a waiting request: under EXCL the best of all, under ALT the best of each core (R274,
R279). -/
def licServe (s : State) (pr : Nat) : State :=
  let p := getPair s pr
  if p.pendMode.isSome ∨ p.choose.isSome then s
  else if p.mode then
    let s1 := if p.altLower.isNone ∧ (reqsOf p (pairCore pr)).isEmpty = false then altNext s pr (pairCore pr) else s
    let up := twinOf (pairCore pr)
    if p.altUpper.isNone ∧ (reqsOf p up).isEmpty = false then altNext s1 pr up else s1
  else if p.st = .free then
    match licBest p.reqs with
    | some r => licChoose s pr r
    | none => s
  else s

/-- The request that takes a licence PARKED for context `h`: the best of the twin core with at least its priority, else the parked context's
own (Table 12.2). Grants on the twin ignore a parked context whose core is gated (R361). -/
def parkedTaker (s : State) (p : Pair) (h : Nat × Nat) : Option LicReq :=
  let gated := (getCluster s (clusterOf h.1)).st != 0
  match licBest (p.reqs.filter fun r => r.core == twinOf h.1 && (gated || decide ((getAny s h.1 h.2).prio.toNat ≤ r.prio))) with
  | some r => some r
  | none => p.reqs.find? fun r => h == (r.core, r.x)

/-- A PARKED licence goes to the request that may take it. -/
def licUnpark (s : State) (pr : Nat) : State :=
  let p := getPair s pr
  match (if p.pendMode.isSome then none else p.parkedFor) with
  | some h => (match parkedTaker s p h with | some r => licChoose s pr r | none => s)
  | none => s

/-- A request arrives (R274): a free licence, or one PARKED that it may take, goes to it at once; otherwise it waits. The request and the
grant cross the bond between the dies of the pair (R337). -/
def licArrive (s : State) (pr : Nat) (r : LicReq) : State :=
  let p := getPair s pr
  let s1 := setPair (signal s (coreEnd r.core) (coreEnd (twinOf r.core))) pr { p with reqs := p.reqs ++ [r] }
  if p.st = .parked ∧ !p.mode then licUnpark s1 pr else licServe s1 pr

/-- LIC.MINE of context `x` of core `c` (Table 12.3). -/
def licMine (s : State) (c x : Nat) : Bool :=
  let p := getPair s (pairOf c)
  if isMgmt c then false
  else if p.mode then altHolder p c == some x && !p.moving.contains c && !(getCtx s c x).restoring
  else p.holder == some (c, x) && p.moving.isEmpty && !(getCtx s c x).restoring

/-- Does context `x` of core `c` hold the licence, a move of its state included? -/
def licHolds (s : State) (c x : Nat) : Bool :=
  let p := getPair s (pairOf c)
  if isMgmt c then false else if p.mode then altHolder p c == some x else p.holder == some (c, x)

/-- The licence goes on as on a release by context `x` of core `c` (R276); the matrix state stays as it is. -/
def licReturn (s : State) (c x : Nat) (twin : Bool) : State :=
  let p := getPair s (pairOf c)
  if p.mode then (if altHolder p c = some x then altNext s (pairOf c) c else s)
  else if p.holder = some (c, x) then licNext s (pairOf c) c twin
  else match p.grantee with
    | some g => if g.core = c ∧ g.x = x ∧ p.st = .passing then licNext s (pairOf c) c twin else s
    | none => s

/-- A waiting request is withdrawn (R274). -/
def licWithdraw (s : State) (c x : Nat) : State :=
  let p := getPair s (pairOf c)
  setPair s (pairOf c) { p with reqs := p.reqs.filter fun r => !(r.core = c && r.x = x) }

/-- Where the parked state of a context is laid: its twin's parking SRAM, or the context's image where that holds one already
(R180), or where the twin's die drains for its reset or is in it (R281). -/
def layParked (s : State) (c x : Nat) (p : Parked) : State :=
  let t := getCore s (twinOf c)
  if (getAny s c x).mstate.isSome ∨ 2 ≤ (getDie s (dieOf (twinOf c))).rphase then setAny s c x { getAny s c x with mstate := some p }
  else match t.park with
  | none => setCore s (twinOf c) { t with park := some p }
  | some o =>
    if o.core = c ∧ o.x = x then setCore s (twinOf c) { t with park := some p }
    else setAny s c x { getAny s c x with mstate := some p }

/-- A parked state leaves the place where it is parked. -/
def clearParked (s : State) (c x : Nat) : State :=
  let s1 := setAny s c x { getAny s c x with mstate := none }
  match (getCore s1 (twinOf c)).park with
  | some o => if o.core = c ∧ o.x = x then setCore s1 (twinOf c) { getCore s1 (twinOf c) with park := none } else s1
  | none => s1

/-- A core with no live bank and empty queues. -/
def emptyMatrix (k : Core) : Core :=
  { k with z := k.z.map fun _ b => { b with live := false }, zwp := k.zwp.map fun _ b => { b with live := false },
           zdirty := [], sqa := .reset, sqb := .reset }

/-- LICR or LICX taking effect, or the end of a context: every live bank stops being live, both queues are emptied, a move of the state
ends, the licence goes on (R180, R227). -/
def licRelease (s : State) (c x : Nat) (twin : Bool) : State :=
  if licHolds s c x then
    let s1 := setCore s c (emptyMatrix (getCore s c))
    let p := getPair s1 (pairOf c)
    licReturn (setPair s1 (pairOf c) { p with moving := p.moving.filter (· != c) }) c x twin
  else s

/-! ### Rollback (R27, Table 1.4) -/

/-- A scale queue at rollback: pointers restored, entries pushed in the interval discarded, drawn entries intact. -/
def rollbackQ (q : ScaleQ) : ScaleQ :=
  { q with rd := (q.rd + 16 - q.drawn % 16) % 16, wr := (q.wr + 16 - q.pushed % 16) % 16, cnt := q.cnt - q.pushed,
           drawn := 0, pushed := 0, pend := [] }

/-- The context's own state at rollback. -/
def rollbackCtx (k : Ctx) : Ctx :=
  { k with
    live := k.wp
    pc := k.wppc
    jumped := k.wpjumped
    flight := []
    loads := k.loads.filter fun l => l.committed
    wbuf := k.wbuf.filter fun e => e.committed
    releases := []
    acts := []
    post := []
    committing := false
    handedOver := false
    watch := []
    nload := k.wpseq
    sent := k.sent.filter fun q => q.1 < k.wpseq
    fences := k.fences.filter fun f => f.2.2 < k.wpseq
    allow := k.allow - k.allowAdded
    allowAdded := 0
    grantInInterval := false
    unpark := none
    dropped := []
    reserved := k.reserved.filter fun r => !k.dropped.contains r.2.2
    restoring := k.restoring && !k.grantInInterval
    block := .no
    yielded := false }

/-- Accumulator banks written in the interval are restored from their waypoint images. -/
def rollbackBanks (z zwp : Tab Bank) : List Nat → Tab Bank
  | [] => z
  | b :: r => rollbackBanks (z.set b (zwp.get Bank.reset b)) zwp r

/-- A matrix state that a save parked within the interval, as the waypoint had it. -/
def rollbackParked (k : Ctx) (p : Parked) : Parked :=
  { p with banks := rollbackBanks p.banks k.zwp k.zdirty, sqa := rollbackQ p.sqa, sqb := rollbackQ p.sqb, tiles := k.wp.tiles }

/-- The parked matrix state of context `x` of core `c` at a rollback (R27, R180), `k` the context before it: a state that a LICQ of the
interval took back is parked again; one that a save parked is as the waypoint had it, and gone where the interval's own LICQ gave the
licence; one that a ZXT parked stays. -/
def unparkBack (s : State) (c x : Nat) (k : Ctx) : State :=
  match k.unpark with
  | some p =>
    let q := getCore s c
    layParked (setCtx (setCore s c (emptyMatrix q)) c x
      { getCtx s c x with zwp := if k.zwp = .empty then q.zwp else k.zwp, zdirty := [] }) c x p
  | none => match (parkedOf s c x).filter (·.bySave) with
    | none => s
    | some p =>
      if k.grantInInterval then setCtx (clearParked s c x) c x { getCtx (clearParked s c x) c x with zwp := .empty, zdirty := [] }
      else
        layParked (setCtx s c x { getCtx s c x with
          live := { k.wp with tiles := .empty }, zdirty := [] }) c x (rollbackParked k p)

/-- A trapping context rolls back to its last committed waypoint. The request of a restored holder stands (R278). -/
def rollback (s : State) (c x : Nat) : State :=
  let k := getCore s c
  let k1 := if licHolds s c x then
      { k with z := rollbackBanks k.z k.zwp k.zdirty, zdirty := [], sqa := rollbackQ k.sqa, sqb := rollbackQ k.sqb }
    else k
  let t := getCtx s c x
  let s1 := setCore s c k1
  let s2 := unparkBack (setCtx (if t.licWait ∧ !t.grantInInterval then s1 else licWithdraw s1 c x) c x (rollbackCtx t)) c x t
  if t.grantInInterval then licReturn s2 c x false else s2

/-! ### Taking a trap (R27, R315, R319, R320, R329) -/

/-- TRAPCAUSE (Table 2.7). -/
def trapcauseOf (t : TrapReq) : Word :=
  BitVec.ofNat 64 ((if t.late then 4096 else 0) + t.slot % 8 * 256 + t.cause.toNat)

/-- The trap's three registers written. -/
def writeTrapRegs (k : Ctx) (t : TrapReq) : Ctx :=
  { k with trapcause := trapcauseOf t, trappc := t.pc.setWidth 64, trapinfo := t.info }

/-- A management context enters its handler (R319): the rolled-back pc, g1, g2 and CSTAT are saved; the state at entry is
the handler's first waypoint. -/
def handlerEntry (k : Ctx) : Ctx :=
  let k1 := { k with
    hepc := k.pc, hg1 := k.live.g.get 0 1, hg2 := k.live.g.get 0 2, hcstat := k.live.cstat
    hmode := true, live := { k.live with cstat := 0 }
    pc := k.live.hvec.setWidth 48, jumped := true, wpjumped := true }
  { k1 with wp := k1.live, wppc := k1.pc }

/-- RESUME leaves the handler (R188, R319): g1, g2 and CSTAT come back, and the next bundle is at `target`. -/
def handlerReturn (k : Ctx) (target : BitVec 48) : Ctx :=
  { k with
    live := { k.live with g := (k.live.g.set 1 k.hg1).set 2 k.hg2, cstat := k.hcstat }
    hmode := false, pc := target, jumped := true }

/-- The bundle in issue is abandoned if it is this context's. -/
def dropIssue (s : State) (c x : Nat) : State :=
  if s.focus = c ∧ curX s = x then { s with latch := { s.latch with words := [], hold := false } } else s

/-- Engine beats of a context run, or windows of it are open: they finish before its state is restored (R28). -/
def inFlight (s : State) (c x : Nat) : Bool :=
  !(getCtx s c x).flight.isEmpty
  || (match (getCore s c).mma with | some j => j.x == x | none => false)
  || (match (getCore s c).drain with | some j => j.x == x | none => false)

/-- The context is restored and the trap's registers are written (R27). After the first residue trap of an interval the hardware
executes the interval again (R82, R316); a management context enters its handler; a task context waits to be delivered. -/
def restoreTrap (s : State) (c x : Nat) (t : TrapReq) : State :=
  let s1 := rollback s c x
  let k := { writeTrapRegs (getCtx s1 c x) t with stopping := false, pend := none }
  if t.cause = 0x11 then setCtx s1 c x { k with residueRetry := true }
  else if isMgmt c then setCtx s1 c x { handlerEntry k with status := .running }
  else setCtx s1 c x { k with status := .trapped, pend := some t }

/-- A context of core `c` takes a trap. Causes 0x20 and 0x21, and any trap of a management context in handler mode, freeze
it at its bundle with no rollback; otherwise issue stops, and the context is restored at once, or, while its engine beats and windows
run, at the TRAP_DELIVERY that follows them (R28). The bundle in issue is abandoned. A context whose trap is not settled yet takes no
other. -/
def takeTrap (s : State) (c x : Nat) (t : TrapReq) : State :=
  let s0 := dropIssue s c x
  let k := getCtx s0 c x
  let freeze := fun (u : TrapReq) =>
    setCtx s0 c x { writeTrapRegs k u with status := .frozen, pend := some u, pc := k.bpc, jumped := false, acts := [] }
  if k.pend.isSome then s0
  else if isMgmt c && k.hmode then freeze { t with cause := 0x22 }
  else if t.cause = 0x20 ∨ t.cause = 0x21 then freeze t
  else if inFlight s0 c x then setCtx s0 c x { k with pend := some t, stopping := true }
  else restoreTrap s0 c x t

/-- A residue trap (R82, R316): the first of an interval is settled by the hardware, which executes the interval again; a
second before that interval commits freezes the context. -/
def residueTrap (s : State) (c x : Nat) (slot : Nat) (pc : BitVec 48) : State :=
  takeTrap s c x ⟨if (getCtx s c x).residueRetry then 0x21 else 0x11, slot, true, Config.freeInfo s.fresh, pc⟩

/-! ### The issue buffer -/

/-- Words after a slot's own word that are its LX slots, at most two (R10). -/
def lxWords : List Nat → Nat
  | w :: v :: _ =>
    if w / 2 ^ 28 % 8 = 7 then (if v / 2 ^ 28 % 8 = 7 then 2 else 1) else 0
  | [w] => if w / 2 ^ 28 % 8 = 7 then 1 else 0
  | [] => 0

/-- The issue buffer after its first slot has issued. -/
def nextSlot (l : Latch) : Latch :=
  { l with words := l.words.drop (1 + lxWords (l.words.drop 1)), slot := l.slot + 1 }

/-- The slot at the head of the issue buffer has issued. -/
def endSlot (s : State) : State := { s with latch := nextSlot s.latch }

/-- The word of the slot in issue. -/
def slotWord (s : State) : Nat := s.latch.words.headD 0

/-- TRAPINFO of Table 4.9 for the slot in issue. -/
def reasonInfo (s : State) (reason : Nat) : Word := BitVec.ofNat 64 (reason % 256 * 2 ^ 32 + slotWord s % 2 ^ 32)

/-- TRAPINFO of Table 4.9 where the spec gives no reason code: the reason is free (log entry 7). -/
def openReasonInfo (s : State) : Word := reasonInfo s ((Config.freeInfo s.fresh).toNat % 256)

end Sys2Proof.Machine
end

