-- ==== Sys2Proof/Machine/Flags.lean ====
section
/-! DEFINITION. Binary floating point with one rounding and its sticky flags (R58 to R64), and the integer flag rules. -/

namespace Sys2Proof.Machine

/-! ### Values -/

/-- A value read from a floating-point format: a NaN, an infinity, or (-1)^neg * m * 2^e, exactly. -/
inductive FV where
  | nan (signalling : Bool)
  | inf (neg : Bool)
  | num (neg : Bool) (m : Nat) (e : Int)
  deriving DecidableEq, Repr

/-- An IEEE 754-2019 binary format: exponent bits and fraction bits. -/
structure Fmt where
  ex : Nat
  fr : Nat
  deriving DecidableEq, Repr

def f16 : Fmt := ⟨5, 10⟩
def f32 : Fmt := ⟨8, 23⟩
def f64 : Fmt := ⟨11, 52⟩

def Fmt.bias (f : Fmt) : Nat := 2 ^ (f.ex - 1) - 1
/-- Exponent of the smallest normal number. -/
def Fmt.emin (f : Fmt) : Int := 1 - (f.bias : Int)
/-- The canonical quiet NaN (R60). -/
def Fmt.qnan (f : Fmt) : Nat := (2 ^ f.ex - 1) * 2 ^ f.fr + 2 ^ (f.fr - 1)
/-- An infinity. -/
def Fmt.infBits (f : Fmt) (neg : Bool) : Nat := b2n neg * 2 ^ (f.ex + f.fr) + (2 ^ f.ex - 1) * 2 ^ f.fr
/-- The largest finite value. -/
def Fmt.maxBits (f : Fmt) (neg : Bool) : Nat := f.infBits neg - 1
/-- A signed zero. -/
def Fmt.zero (f : Fmt) (neg : Bool) : Nat := b2n neg * 2 ^ (f.ex + f.fr)

/-- Reading a value; with `fpm` clear a subnormal reads as zero of its sign (R62). -/
def Fmt.read (f : Fmt) (fpm : Bool) (b : Nat) : FV :=
  let neg := b / 2 ^ (f.ex + f.fr) % 2 == 1
  let ex := b / 2 ^ f.fr % 2 ^ f.ex
  let fr := b % 2 ^ f.fr
  if ex = 2 ^ f.ex - 1 then (if fr = 0 then .inf neg else .nan (fr < 2 ^ (f.fr - 1)))
  else if ex = 0 then (if fpm then .num neg fr (f.emin - f.fr) else .num neg 0 (f.emin - f.fr))
  else .num neg (2 ^ f.fr + fr) ((ex : Int) - f.bias - f.fr)

def FV.isNan : FV → Bool | .nan _ => true | _ => false
def FV.isSnan : FV → Bool | .nan b => b | _ => false

/-! ### Rounding (R59, R61, R62) -/

/-- Number of bits of a number. -/
def bitLen (n : Nat) : Nat := if n = 0 then 0 else Nat.log2 n + 1

/-- `m / 2^k` rounded to an integer in mode `rm` for a value of sign `neg`, and whether it was inexact. -/
def roundShift (rm : BitVec 2) (neg : Bool) (m k : Nat) : Nat × Bool :=
  let q := m / 2 ^ k
  let r := m % 2 ^ k
  let up :=
    if rm = 0 then r * 2 > 2 ^ k || (r * 2 == 2 ^ k && q % 2 == 1)
    else if rm = 1 then false
    else if rm = 2 then !neg && r != 0
    else neg && r != 0
  (if up then q + 1 else q, r != 0)

/-- `m * 2^e` rounded to an integer. -/
def roundInt (rm : BitVec 2) (neg : Bool) (m : Nat) (e : Int) : Nat × Bool :=
  if 0 ≤ e then (m * 2 ^ e.toNat, false) else roundShift rm neg m (-e).toNat

/-- A result rounded once to a format, with its flags: tininess after rounding; a tiny result is flushed with `fpm`
clear. -/
def Fmt.round (f : Fmt) (rm : BitVec 2) (fpm : Bool) (neg : Bool) (m : Nat) (e : Int) : Nat × BitVec 16 :=
  if m = 0 then (f.zero neg, 0)
  else
    let p := f.fr + 1
    let n := bitLen m
    let t := if n ≤ p then (m * 2 ^ (p - n), false) else roundShift rm neg m (n - p)
    let carry := t.1 == 2 ^ p
    let q := if carry then 2 ^ f.fr else t.1
    let ex := e + n - 1 + (if carry then 1 else 0)
    if ex < f.emin then
      if fpm then
        let r := roundInt rm neg m (e - (f.emin - f.fr))
        (f.zero neg + r.1, if r.2 then flUF ||| flNX else 0)
      else (f.zero neg, flUF ||| flNX)
    else if ex > f.bias then
      let toInf := rm = 0 || (rm = 2 && !neg) || (rm = 3 && neg)
      (if toInf then f.infBits neg else f.maxBits neg, flOF ||| flNX)
    else
      (f.zero neg + (ex + f.bias).toNat * 2 ^ f.fr + (q - 2 ^ f.fr), if t.2 then flNX else 0)

/-- Sign of an exact zero sum (IEEE 754-2019 6.3). -/
def zeroSign (rm : BitVec 2) (a b : Bool) : Bool := if a = b then a else rm = 3

/-- Signed magnitude as an integer at exponent `e0 ≤ e`. -/
def scaled (neg : Bool) (m : Nat) (e e0 : Int) : Int :=
  let v : Int := (m * 2 ^ (e - e0).toNat : Nat)
  if neg then -v else v

/-- The exact sum of two finite values, rounded once. -/
def Fmt.sum (f : Fmt) (rm : BitVec 2) (fpm : Bool) (na : Bool) (ma : Nat) (ea : Int) (nb : Bool) (mb : Nat) (eb : Int) :
    Nat × BitVec 16 :=
  let e0 := if ea ≤ eb then ea else eb
  let v := scaled na ma ea e0 + scaled nb mb eb e0
  if v = 0 then (f.zero (zeroSign rm na nb), 0)
  else f.round rm fpm (v < 0) v.natAbs e0

/-! ### Arithmetic (R59, R60, R135, R136) -/

/-- A NaN result: canonical; NV when an operand is signalling. -/
def Fmt.nanOf (f : Fmt) (signalling : Bool) : Nat × BitVec 16 := (f.qnan, if signalling then flNV else 0)
/-- An invalid operation. -/
def Fmt.invalid (f : Fmt) : Nat × BitVec 16 := (f.qnan, flNV)

def Fmt.addV (f : Fmt) (rm : BitVec 2) (fpm : Bool) (a b : FV) : Nat × BitVec 16 :=
  match a, b with
  | .nan x, y => f.nanOf (x || y.isSnan)
  | _, .nan y => f.nanOf y
  | .inf x, .inf y => if x = y then (f.infBits x, 0) else f.invalid
  | .inf x, _ => (f.infBits x, 0)
  | _, .inf y => (f.infBits y, 0)
  | .num na ma ea, .num nb mb eb => f.sum rm fpm na ma ea nb mb eb

/-- The value with its sign turned. -/
def FV.neg : FV → FV
  | .nan s => .nan s
  | .inf n => .inf (!n)
  | .num n m e => .num (!n) m e

def Fmt.mulV (f : Fmt) (rm : BitVec 2) (fpm : Bool) (a b : FV) : Nat × BitVec 16 :=
  match a, b with
  | .nan x, y => f.nanOf (x || y.isSnan)
  | _, .nan y => f.nanOf y
  | .inf x, .inf y => (f.infBits (x != y), 0)
  | .inf x, .num nb mb _ => if mb = 0 then f.invalid else (f.infBits (x != nb), 0)
  | .num na ma _, .inf y => if ma = 0 then f.invalid else (f.infBits (na != y), 0)
  | .num na ma ea, .num nb mb eb => f.round rm fpm (na != nb) (ma * mb) (ea + eb)

/-- Is the product of two values 0 * infinity? -/
def zeroTimesInf : FV → FV → Bool
  | .inf _, .num _ m _ => m == 0
  | .num _ m _, .inf _ => m == 0
  | _, _ => false

/-- a * b + c with one rounding; 0 * infinity is invalid whatever the addend (R135). -/
def Fmt.fmaV (f : Fmt) (rm : BitVec 2) (fpm : Bool) (a b c : FV) : Nat × BitVec 16 :=
  if zeroTimesInf a b then f.invalid
  else match a, b, c with
  | .num na ma ea, .num nb mb eb, .num nc mc ec => f.sum rm fpm (na != nb) (ma * mb) (ea + eb) nc mc ec
  | .num _ _ _, .num _ _ _, .inf y => (f.infBits y, 0)
  | .inf x, .inf y, .inf z => if (x != y) = z then (f.infBits z, 0) else f.invalid
  | .inf x, .num nb _ _, .inf z => if (x != nb) = z then (f.infBits z, 0) else f.invalid
  | .num na _ _, .inf y, .inf z => if (na != y) = z then (f.infBits z, 0) else f.invalid
  | .inf x, .inf y, .num _ _ _ => (f.infBits (x != y), 0)
  | .inf x, .num nb _ _, .num _ _ _ => (f.infBits (x != nb), 0)
  | .num na _ _, .inf y, .num _ _ _ => (f.infBits (na != y), 0)
  | x, y, z => f.nanOf (x.isSnan || y.isSnan || z.isSnan)

def Fmt.divV (f : Fmt) (rm : BitVec 2) (fpm : Bool) (a b : FV) : Nat × BitVec 16 :=
  match a, b with
  | .nan x, y => f.nanOf (x || y.isSnan)
  | _, .nan y => f.nanOf y
  | .inf _, .inf _ => f.invalid
  | .inf x, .num nb _ _ => (f.infBits (x != nb), 0)
  | .num na _ _, .inf y => (f.zero (na != y), 0)
  | .num na ma ea, .num nb mb eb =>
    if mb = 0 then (if ma = 0 then f.invalid else (f.infBits (na != nb), flDZ))
    else
      let k := f.fr + 4 + bitLen mb
      let q := ma * 2 ^ k / mb
      let sticky := b2n (ma * 2 ^ k % mb != 0)
      f.round rm fpm (na != nb) (2 * q + sticky) (ea - eb - k - 1)

/-- Square root of a number below 4^k, rounded down: bit by bit from bit k - 1. -/
def isqrt (n : Nat) : Nat → Nat → Nat
  | 0, r => r
  | k + 1, r => isqrt n k (if (r + 2 ^ k) * (r + 2 ^ k) ≤ n then r + 2 ^ k else r)

/-- The square root of m * 2^e, rounded once. -/
def Fmt.sqrtPos (f : Fmt) (rm : BitVec 2) (fpm : Bool) (m : Nat) (e : Int) : Nat × BitVec 16 :=
  if m = 0 then (0, 0)
  else
    let k := 2 * (f.fr + 4) + (e % 2).toNat
    let n := m * 2 ^ k
    let r := isqrt n (bitLen n / 2 + 1) 0
    f.round rm fpm false (2 * r + b2n (r * r != n)) ((e - k) / 2 - 1)

def Fmt.sqrtV (f : Fmt) (rm : BitVec 2) (fpm : Bool) (a : FV) : Nat × BitVec 16 :=
  match a with
  | .nan x => f.nanOf x
  | .inf n => if n then f.invalid else (f.infBits false, 0)
  | .num n m e => if m = 0 then (f.zero n, 0) else if n then f.invalid else f.sqrtPos rm fpm m e

/-! ### Comparison, minimum and maximum (R63) -/

/-- Order of two values that are no NaN. -/
def FV.lt (a b : FV) : Bool :=
  match a, b with
  | .inf x, .inf y => x && !y
  | .inf x, _ => x
  | _, .inf y => !y
  | .num na ma ea, .num nb mb eb =>
    let e0 := if ea ≤ eb then ea else eb
    decide (scaled na ma ea e0 < scaled nb mb eb e0)
  | _, _ => false

def FV.eq (a b : FV) : Bool := !a.isNan && !b.isNan && !a.lt b && !b.lt a

/-- An exactly representable value written back. -/
def Fmt.write (f : Fmt) (a : FV) : Nat :=
  match a with
  | .nan _ => f.qnan
  | .inf n => f.infBits n
  | .num n m e => (f.round 0 true n m e).1

/-- Is `a` below `b`, with -0 below +0? -/
def FV.below (a b : FV) : Bool :=
  a.lt b || (match a, b with
    | .num na ma _, .num nb mb _ => ma == 0 && mb == 0 && na && !nb
    | _, _ => false)

def Fmt.minV (f : Fmt) (max : Bool) (a b : FV) : Nat × BitVec 16 :=
  let fl := if a.isSnan || b.isSnan then flNV else 0
  match a, b with
  | .nan _, .nan _ => (f.qnan, fl)
  | .nan _, y => (f.write y, fl)
  | x, .nan _ => (f.write x, fl)
  | x, y => (f.write (if (if max then y.below x else x.below y) then x else y), fl)

/-- Quiet equality: NV only for a signalling NaN. -/
def cmpEqV (a b : FV) : Bool × BitVec 16 := (a.eq b, if a.isSnan || b.isSnan then flNV else 0)
/-- Signalling less-than and less-or-equal: NV for any NaN. -/
def cmpLtV (a b : FV) : Bool × BitVec 16 :=
  if a.isNan || b.isNan then (false, flNV) else (a.lt b, 0)
def cmpLeV (a b : FV) : Bool × BitVec 16 :=
  if a.isNan || b.isNan then (false, flNV) else (a.lt b || a.eq b, 0)

/-! ### Conversions (R64, R137, R138) -/

/-- binary32 to i32 (Table 3.4). -/
def toI32 (rm : BitVec 2) (a : FV) : BitVec 32 × BitVec 16 :=
  match a with
  | .nan _ => (0, flNV)
  | .inf n => (if n then 0x80000000 else 0x7FFFFFFF, flNV)
  | .num n m e =>
    let r := roundInt rm n m e
    if n then (if r.1 ≤ 2 ^ 31 then (-(BitVec.ofNat 32 r.1), if r.2 then flNX else 0) else (0x80000000, flNV))
    else (if r.1 < 2 ^ 31 then (BitVec.ofNat 32 r.1, if r.2 then flNX else 0) else (0x7FFFFFFF, flNV))

/-- i32 to binary32. -/
def fromI32 (rm : BitVec 2) (x : BitVec 32) : Nat × BitVec 16 :=
  let v := x.toInt
  if v = 0 then (0, 0) else f32.round rm true (v < 0) v.natAbs 0

/-- binary32 to binary16. -/
def narrow16 (rm : BitVec 2) (fpm : Bool) (a : FV) : Nat × BitVec 16 :=
  match a with
  | .nan x => f16.nanOf x
  | .inf n => (f16.infBits n, 0)
  | .num n m e => if m = 0 then (f16.zero n, 0) else f16.round rm fpm n m e

/-- binary16 to binary32, exactly. -/
def widen16 (a : FV) : Nat × BitVec 16 :=
  match a with
  | .nan x => f32.nanOf x
  | .inf n => (f32.infBits n, 0)
  | .num n m e => if m = 0 then (f32.zero n, 0) else (f32.write (.num n m e), 0)

/-! ### Integer saturation (R57) -/

/-- An exact i32 sum or difference clamped, with SAT where it was. -/
def clamp32 (v : Int) : BitVec 32 × BitVec 16 :=
  if v > 2147483647 then (0x7FFFFFFF, flSAT) else if v < -2147483648 then (0x80000000, flSAT)
  else (BitVec.ofInt 32 v, 0)

/-! ### Residue check (R81) -/

/-- y mod 31 in 0 to 30. -/
def rho (y : Int) : Int := y % 31

end Sys2Proof.Machine
end

