-- ==== Sys2Proof/Machine/Formats.lean ====
section
/-! DEFINITION. BX blocks and their quantisation, LG6 codes, and the 80-bit accumulators (R65 to R79). -/

namespace Sys2Proof.Machine

/-! ### BX blocks (R65, R66, R68) -/

/-- The limit L of a BX format: 0 BX4, 1 BX8, 2 BX16 (Table 3.5). -/
def bxLimit (fmt : Nat) : Nat := if fmt = 0 then 7 else if fmt = 1 then 127 else 32767

/-- Magnitude order of two inputs. -/
def absLe (a b : FV) : Bool :=
  match a, b with
  | _, .inf _ => true
  | .inf _, _ => false
  | .num _ ma ea, .num _ mb eb => !(FV.num false mb eb).lt (.num false ma ea)
  | _, _ => true

/-- The largest magnitude of a block whose NaNs read as 0. -/
def blockMax : List FV → FV
  | [] => .num false 0 0
  | x :: r => let m := blockMax r; if absLe x m then m else x

/-- A NaN of a block reads as 0 (R68). -/
def zeroNan : FV → FV
  | .nan _ => .num false 0 0
  | v => v

/-- The smallest integer n with rnd(a / 2^n) at most L, for finite non-zero a. -/
def fitExp (rm : BitVec 2) (limit m : Nat) (e : Int) : Int :=
  let n := e + bitLen m - bitLen limit
  if (roundInt rm false m (e - n)).1 ≤ limit then n else n + 1

/-- rnd(x / 2^e) clamped to -L and L; an infinite element is clamped (R68). -/
def mantissa (rm : BitVec 2) (limit : Nat) (e : Int) (x : FV) : Int :=
  match x with
  | .nan _ => 0
  | .inf n => if n then -(limit : Int) else limit
  | .num n m ex =>
    let q := Nat.min (roundInt rm n m (ex - e)).1 limit
    if n then -(q : Int) else q

/-- A quantised block: exponent, mantissas, NV, and the counts it makes. -/
structure BxBlock where
  e : Int
  m : List Int
  nv : Bool
  under : Nat
  sat : Nat
  deriving DecidableEq, Repr

/-- `quantise` of R68. -/
def quantise (xs : List FV) (limit : Nat) (rm : BitVec 2) : BxBlock :=
  let nv := xs.any FV.isNan
  let ys := xs.map zeroNan
  let zeros := ys.map fun _ => (0 : Int)
  match blockMax ys with
  | .nan _ => ⟨-128, zeros, nv, 0, 0⟩
  | .inf _ =>
    let ms := ys.map (mantissa rm limit 127)
    ⟨127, ms, nv, 0, 1⟩
  | .num _ m ex =>
    if m = 0 then ⟨-128, zeros, nv, 0, 0⟩
    else
      let e0 := fitExp rm limit m ex
      let e1 := if e0 < -127 then -127 else e0
      let high := decide (e1 > 127)
      let e := if high then 127 else e1
      let ms := ys.map (mantissa rm limit e)
      if ms.all (· == 0) then ⟨-128, zeros, nv, 1, b2n high⟩
      else ⟨e, ms, nv, 0, b2n high⟩

/-! ### LG6 (R70 to R72) -/

def lgT (f : Nat) : Nat := [64, 76, 91, 108].getD f 64

/-- Magnitude of code c = 4 i + f, times 2^10. -/
def lgMag (c : Nat) : Nat := lgT (c % 4) * 2 ^ (c / 4)

/-- Is m * 2^e at least `n` / 2^11, or above it? -/
def atLeast (m : Nat) (e : Int) (n : Nat) : Bool := decide (scaled false n (-11) (if e ≤ -11 then e else -11) ≤ scaled false m e (if e ≤ -11 then e else -11))
def above (m : Nat) (e : Int) (n : Nat) : Bool := decide (scaled false n (-11) (if e ≤ -11 then e else -11) < scaled false m e (if e ≤ -11 then e else -11))

/-- The code of the nearest magnitude; a tie goes to the code with even f: the number of codes c whose upper neighbour is
as near or nearer. -/
def lgNearest (m : Nat) (e : Int) : Nat :=
  ((List.range 31).filter fun c =>
    let mid := lgMag c + lgMag (c + 1)
    if (c + 1) % 2 = 0 then atLeast m e mid else above m e mid).length

/-- VLGENC (Table 3.8). -/
def lgEncode (a : FV) : BitVec 6 × BitVec 16 :=
  match a with
  | .nan _ => (0x20, flNV)
  | .inf n => (BitVec.ofNat 6 (b2n n * 32 + 31), flOF ||| flNX)
  | .num n m e =>
    if m = 0 then (0x20, 0)
    else if !above m e 64 then (0x20, flUF ||| flNX)
    else if above m e (2 * lgMag 31) then (BitVec.ofNat 6 (b2n n * 32 + 31), flOF ||| flNX)
    else
      let c := lgNearest m e
      let exact := atLeast m e (2 * lgMag c) && !above m e (2 * lgMag c)
      if n && c == 0 then (0x21, flNX)
      else (BitVec.ofNat 6 (b2n n * 32 + c), if exact then 0 else flNX)

/-- An LG6 code as a binary32 value (R70). -/
def lgDecode (c : BitVec 6) : Nat :=
  if c = 0x20 then 0 else (f32.round 0 true (c.toNat / 32 == 1) (lgMag (c.toNat % 32)) (-10)).1

/-- lg6_product (R72): an integer times 2^-14. -/
def lgProduct (a b : Nat) : Int :=
  if a = 0x20 ∨ b = 0x20 then 0
  else
    let f := a % 4 + b % 4
    let n : Int := (lgT (f % 4) * 2 ^ (a / 4 % 8 + b / 4 % 8 + f / 4) : Nat)
    if a / 32 = b / 32 then n else -n

/-! ### Accumulators (R75, R76, R79) -/

/-- A sum being formed: element, INEXACT, OVF. -/
structure AccSum where
  v : Int
  inexact : Bool
  ovf : Bool
  deriving DecidableEq, Repr

/-- One contribution n * 2^e aligned to ZEXP and added (R76). -/
def contribute (zexp : Int) (a : AccSum) (n : Int) (e : Int) : AccSum :=
  let q : Int × Bool :=
    if zexp ≤ e then (n * 2 ^ (e - zexp).toNat, false)
    else
      let r := roundShift 0 (n < 0) n.natAbs (zexp - e).toNat
      (if n < 0 then -(r.1 : Int) else r.1, r.2)
  let v := a.v + q.1
  if v > 2 ^ 79 - 1 then ⟨2 ^ 79 - 1, a.inexact || q.2, true⟩
  else if v < -(2 ^ 79) then ⟨-(2 ^ 79), a.inexact || q.2, true⟩
  else ⟨v, a.inexact || q.2, a.ovf⟩

/-- An element of a bank. -/
def Bank.elem (b : Bank) (r n : Nat) : Int := (b.elems.get 0 (32 * r + n)).toInt

/-- A raw 80-bit element as 128 bits (Table 3.11). -/
def rawElem (b : Bank) (r n : Nat) : Nat :=
  (b.elems.get 0 (32 * r + n)).toNat + (BitVec.ofInt 16 b.zexp).toNat * 2 ^ 80 + b2n b.inexact * 2 ^ 96 + b2n b.ovf * 2 ^ 97

end Sys2Proof.Machine
end

