-- ==== Sys2Proof/Machine/Info.lean ====
section
/-! DEFINITION. What issue needs to know of each slot: class, floor energy class, guard, the registers it names, and
whether it is non-undoable (Tables 1.1, 1.3, 4.1 to 4.7). -/

namespace Sys2Proof.Machine

/-- How a slot is guarded (R47). -/
inductive Guard where
  /-- no guard: E-format slots, WAYPT, SEL and VSEL -/
  | always
  /-- performs only if gp[0] = 1 -/
  | scalar (pn : Bool) (pg : PReg)
  /-- lane i performs only if gp[i] = 1 -/
  | lanes (pn : Bool) (pg : PReg)
  deriving DecidableEq, Repr

/-- The facts of one slot. -/
structure SlotInfo where
  cls : Nat
  /-- floor energy class (R84) -/
  floor : Nat
  /-- the E field, or none for an M-format slot, which is charged at its floor (R29) -/
  e : Option (BitVec 2)
  guard : Guard
  /-- registers read and registers written, the guard's predicate not included -/
  reads : List Dest
  writes : List Dest
  /-- the slot names p15 as a destination for the duplicate rule (R149) -/
  p15 : Bool
  /-- non-undoable (Table 1.3) -/
  nonUndo : Bool
  /-- XF direction: 1 for g to v, 2 for v to g (Table 1.1) -/
  dir : Nat
  isWaypt : Bool
  deriving DecidableEq, Repr

/-- The index register of an M-format address (R50). -/
def idxReads : Idx → List Dest
  | .reg b => [.g b.toNat]
  | .lx1 _ => []
  | .lx2 _ _ => []

/-- Control registers held by the context: a CWR of one is undoable (R25, R41, R349). -/
def ctxHeld (ix : Nat) : Bool :=
  ix < 0x100 && ix != 0x013 || ix == 0x100 || ix == 0x180 || ix == 0x18F || ix == 0x190

/-- A format-T or format-J slot whose guard is one bit. -/
def infS (cls floor : Nat) (h : TH) (rd wr : List Dest) : SlotInfo :=
  ⟨cls, floor, some h.e, .scalar h.pn h.pg, rd, wr, false, false, 0, false⟩
/-- A format-T slot guarded lane by lane. -/
def infL (cls floor : Nat) (h : TH) (rd wr : List Dest) : SlotInfo :=
  ⟨cls, floor, some h.e, .lanes h.pn h.pg, rd, wr, false, false, 0, false⟩
/-- A scalar M-format slot. -/
def infM (floor : Nat) (pg : BitVec 3) (rd wr : List Dest) : SlotInfo :=
  ⟨1, floor, none, .scalar false (pg.setWidth 4), rd, wr, false, false, 0, false⟩
/-- A vector M-format slot. -/
def infV (floor : Nat) (pg : BitVec 3) (rd wr : List Dest) : SlotInfo :=
  ⟨3, floor, none, .lanes false (pg.setWidth 4), rd, wr, true, false, 0, false⟩
/-- An E-format slot, or WAYPT. -/
def infE (cls floor : Nat) (e : BitVec 2) : SlotInfo := ⟨cls, floor, some e, .always, [], [], false, false, 0, false⟩

/-- The facts of each slot; an event has none. -/
def slotInfo : Instr → SlotInfo
  | .add h d a b => infS 0 0 h ([.g a.toNat, .g b.toNat]) [.g d.toNat]
  | .sub h d a b => infS 0 0 h ([.g a.toNat, .g b.toNat]) [.g d.toNat]
  | .addi h d a _ => infS 0 0 h ([.g a.toNat]) [.g d.toNat]
  | .mul h d a b => infS 0 1 h ([.g a.toNat, .g b.toNat]) [.g d.toNat]
  | .mulh h d a b => infS 0 1 h ([.g a.toNat, .g b.toNat]) [.g d.toNat]
  | .mulhn h d a b => infS 0 1 h ([.g a.toNat, .g b.toNat]) [.g d.toNat]
  | .div h d a b => infS 0 1 h ([.g a.toNat, .g b.toNat]) [.g d.toNat]
  | .divn h d a b => infS 0 1 h ([.g a.toNat, .g b.toNat]) [.g d.toNat]
  | .rem h d a b => infS 0 1 h ([.g a.toNat, .g b.toNat]) [.g d.toNat]
  | .remn h d a b => infS 0 1 h ([.g a.toNat, .g b.toNat]) [.g d.toNat]
  | .and h d a b => infS 0 0 h ([.g a.toNat, .g b.toNat]) [.g d.toNat]
  | .or h d a b => infS 0 0 h ([.g a.toNat, .g b.toNat]) [.g d.toNat]
  | .xor h d a b => infS 0 0 h ([.g a.toNat, .g b.toNat]) [.g d.toNat]
  | .andn h d a b => infS 0 0 h ([.g a.toNat, .g b.toNat]) [.g d.toNat]
  | .andi h d a _ => infS 0 0 h ([.g a.toNat]) [.g d.toNat]
  | .ori h d a _ => infS 0 0 h ([.g a.toNat]) [.g d.toNat]
  | .xori h d a _ => infS 0 0 h ([.g a.toNat]) [.g d.toNat]
  | .shl h d a b => infS 0 0 h ([.g a.toNat, .g b.toNat]) [.g d.toNat]
  | .shr h d a b => infS 0 0 h ([.g a.toNat, .g b.toNat]) [.g d.toNat]
  | .sha h d a b => infS 0 0 h ([.g a.toNat, .g b.toNat]) [.g d.toNat]
  | .shli h d a _ => infS 0 0 h ([.g a.toNat]) [.g d.toNat]
  | .shri h d a _ => infS 0 0 h ([.g a.toNat]) [.g d.toNat]
  | .shai h d a _ => infS 0 0 h ([.g a.toNat]) [.g d.toNat]
  | .rot h d a b => infS 0 0 h ([.g a.toNat, .g b.toNat]) [.g d.toNat]
  | .min h d a b => infS 0 0 h ([.g a.toNat, .g b.toNat]) [.g d.toNat]
  | .max h d a b => infS 0 0 h ([.g a.toNat, .g b.toNat]) [.g d.toNat]
  | .minn h d a b => infS 0 0 h ([.g a.toNat, .g b.toNat]) [.g d.toNat]
  | .maxn h d a b => infS 0 0 h ([.g a.toNat, .g b.toNat]) [.g d.toNat]
  | .abs h d a => infS 0 0 h ([.g a.toNat]) [.g d.toNat]
  | .clz h d a => infS 0 0 h ([.g a.toNat]) [.g d.toNat]
  | .ctz h d a => infS 0 0 h ([.g a.toNat]) [.g d.toNat]
  | .popc h d a => infS 0 0 h ([.g a.toNat]) [.g d.toNat]
  | .bext h d a _ => infS 0 0 h ([.g a.toNat]) [.g d.toNat]
  | .bins h d a _ => infS 0 0 h ([.g a.toNat, .g d.toNat]) [.g d.toNat]
  | .sext h d a _ => infS 0 0 h ([.g a.toNat]) [.g d.toNat]
  | .zext h d a _ => infS 0 0 h ([.g a.toNat]) [.g d.toNat]
  | .sel h d a b => { infS 0 0 h ([.g a.toNat, .g b.toNat] ++ [.p h.pg.toNat]) [.g d.toNat] with guard := .always }
  | .movi h d _ => infS 0 0 h [] [.g d.toNat]
  | .cmpeq h d a b => infS 0 0 h ([.g a.toNat, .g b.toNat]) [.p d.toNat]
  | .cmpne h d a b => infS 0 0 h ([.g a.toNat, .g b.toNat]) [.p d.toNat]
  | .cmplt h d a b => infS 0 0 h ([.g a.toNat, .g b.toNat]) [.p d.toNat]
  | .cmple h d a b => infS 0 0 h ([.g a.toNat, .g b.toNat]) [.p d.toNat]
  | .cmpltn h d a b => infS 0 0 h ([.g a.toNat, .g b.toNat]) [.p d.toNat]
  | .cmplen h d a b => infS 0 0 h ([.g a.toNat, .g b.toNat]) [.p d.toNat]
  | .cmpeqi h d a _ => infS 0 0 h ([.g a.toNat]) [.p d.toNat]
  | .cmplti h d a _ => infS 0 0 h ([.g a.toNat]) [.p d.toNat]
  | .pand h d a b => infS 0 0 h ([.p a.toNat, .p b.toNat]) [.p d.toNat]
  | .por h d a b => infS 0 0 h ([.p a.toNat, .p b.toNat]) [.p d.toNat]
  | .pxor h d a b => infS 0 0 h ([.p a.toNat, .p b.toNat]) [.p d.toNat]
  | .pandn h d a b => infS 0 0 h ([.p a.toNat, .p b.toNat]) [.p d.toNat]
  | .pany h d a => infS 0 0 h ([.p a.toNat]) [.p d.toNat]
  | .pall h d a => infS 0 0 h ([.p a.toNat]) [.p d.toNat]
  | .pset h d a => infS 0 0 h ([.g a.toNat]) [.p d.toNat]
  | .pget h d a => infS 0 0 h ([.p a.toNat]) [.g d.toNat]
  | .pcnt h d a => infS 0 0 h ([.p a.toNat]) [.g d.toNat]
  | .ldb h d a x => infM 0 h.pg ([.g a.toNat] ++ idxReads x) [.g d.toNat]
  | .ldbn h d a x => infM 0 h.pg ([.g a.toNat] ++ idxReads x) [.g d.toNat]
  | .ldh h d a x => infM 0 h.pg ([.g a.toNat] ++ idxReads x) [.g d.toNat]
  | .ldhn h d a x => infM 0 h.pg ([.g a.toNat] ++ idxReads x) [.g d.toNat]
  | .ldw h d a x => infM 0 h.pg ([.g a.toNat] ++ idxReads x) [.g d.toNat]
  | .ldwn h d a x => infM 0 h.pg ([.g a.toNat] ++ idxReads x) [.g d.toNat]
  | .ldd h d a x => infM 0 h.pg ([.g a.toNat] ++ idxReads x) [.g d.toNat]
  | .stb h d a x => infM 0 h.pg ([.g a.toNat, .g d.toNat] ++ idxReads x) []
  | .sth h d a x => infM 0 h.pg ([.g a.toNat, .g d.toNat] ++ idxReads x) []
  | .stw h d a x => infM 0 h.pg ([.g a.toNat, .g d.toNat] ++ idxReads x) []
  | .std h d a x => infM 0 h.pg ([.g a.toNat, .g d.toNat] ++ idxReads x) []
  | .lda h d a x => infM 1 h.pg ([.g a.toNat] ++ idxReads x) [.g d.toNat]
  | .stl h d a x => { infM 1 h.pg ([.g a.toNat, .g d.toNat] ++ idxReads x) [] with nonUndo := true }
  | .aadd h d a x => { infM 1 h.pg ([.g a.toNat, .g d.toNat] ++ idxReads x) [.g d.toNat] with nonUndo := true }
  | .aand h d a x => { infM 1 h.pg ([.g a.toNat, .g d.toNat] ++ idxReads x) [.g d.toNat] with nonUndo := true }
  | .aor h d a x => { infM 1 h.pg ([.g a.toNat, .g d.toNat] ++ idxReads x) [.g d.toNat] with nonUndo := true }
  | .axor h d a x => { infM 1 h.pg ([.g a.toNat, .g d.toNat] ++ idxReads x) [.g d.toNat] with nonUndo := true }
  | .amin h d a x => { infM 1 h.pg ([.g a.toNat, .g d.toNat] ++ idxReads x) [.g d.toNat] with nonUndo := true }
  | .amax h d a x => { infM 1 h.pg ([.g a.toNat, .g d.toNat] ++ idxReads x) [.g d.toNat] with nonUndo := true }
  | .aswp h d a x => { infM 1 h.pg ([.g a.toNat, .g d.toNat] ++ idxReads x) [.g d.toNat] with nonUndo := true }
  | .acas h d a x => { infM 1 h.pg ([.g a.toNat, .g (2 * d.toNat), .g (2 * d.toNat + 1)] ++ idxReads x) [.g (2 * d.toNat)] with nonUndo := true }
  | .fnc pg _ => infM 0 pg [] []
  | .pfl pg _ a x => infM 0 pg ([.g a.toNat] ++ idxReads x) []
  | .br h _ => infS 1 0 h [] []
  | .brl h _ => infS 1 0 h [] [.g 1]
  | .jr h a => infS 1 0 h ([.g a.toNat]) []
  | .jrl h a => infS 1 0 h ([.g a.toNat]) [.g 1]
  | .loop h d _ => infS 1 0 h ([.g d.toNat]) [.g d.toNat]
  | .vmov h d a => infL 2 0 h ([.v a.toNat]) [.v d.toNat]
  | .vadd h d a b => infL 2 0 h ([.v a.toNat, .v b.toNat]) [.v d.toNat]
  | .vsub h d a b => infL 2 0 h ([.v a.toNat, .v b.toNat]) [.v d.toNat]
  | .vadds h d a b => infL 2 0 h ([.v a.toNat, .v b.toNat]) [.v d.toNat]
  | .vsubs h d a b => infL 2 0 h ([.v a.toNat, .v b.toNat]) [.v d.toNat]
  | .vmul h d a b => infL 2 1 h ([.v a.toNat, .v b.toNat]) [.v d.toNat]
  | .vmulh h d a b => infL 2 1 h ([.v a.toNat, .v b.toNat]) [.v d.toNat]
  | .vmad h d a b => infL 2 1 h ([.v a.toNat, .v b.toNat, .v d.toNat]) [.v d.toNat]
  | .vand h d a b => infL 2 0 h ([.v a.toNat, .v b.toNat]) [.v d.toNat]
  | .vor h d a b => infL 2 0 h ([.v a.toNat, .v b.toNat]) [.v d.toNat]
  | .vxor h d a b => infL 2 0 h ([.v a.toNat, .v b.toNat]) [.v d.toNat]
  | .vandn h d a b => infL 2 0 h ([.v a.toNat, .v b.toNat]) [.v d.toNat]
  | .vshl h d a b => infL 2 0 h ([.v a.toNat, .v b.toNat]) [.v d.toNat]
  | .vshr h d a b => infL 2 0 h ([.v a.toNat, .v b.toNat]) [.v d.toNat]
  | .vsha h d a b => infL 2 0 h ([.v a.toNat, .v b.toNat]) [.v d.toNat]
  | .vmin h d a b => infL 2 0 h ([.v a.toNat, .v b.toNat]) [.v d.toNat]
  | .vmax h d a b => infL 2 0 h ([.v a.toNat, .v b.toNat]) [.v d.toNat]
  | .vminn h d a b => infL 2 0 h ([.v a.toNat, .v b.toNat]) [.v d.toNat]
  | .vmaxn h d a b => infL 2 0 h ([.v a.toNat, .v b.toNat]) [.v d.toNat]
  | .vabs h d a => infL 2 0 h ([.v a.toNat]) [.v d.toNat]
  | .vcmpeq h d a b => infL 2 0 h ([.v a.toNat, .v b.toNat]) [.p d.toNat]
  | .vcmplt h d a b => infL 2 0 h ([.v a.toNat, .v b.toNat]) [.p d.toNat]
  | .vcmple h d a b => infL 2 0 h ([.v a.toNat, .v b.toNat]) [.p d.toNat]
  | .vcmpltn h d a b => infL 2 0 h ([.v a.toNat, .v b.toNat]) [.p d.toNat]
  | .vsel h d a b => { infS 2 0 h ([.v a.toNat, .v b.toNat] ++ [.p h.pg.toNat]) [.v d.toNat] with guard := .always }
  | .vfadd h d a b => infL 2 1 h ([.v a.toNat, .v b.toNat]) [.v d.toNat]
  | .vfsub h d a b => infL 2 1 h ([.v a.toNat, .v b.toNat]) [.v d.toNat]
  | .vfmul h d a b => infL 2 1 h ([.v a.toNat, .v b.toNat]) [.v d.toNat]
  | .vfma h d a b => infL 2 1 h ([.v a.toNat, .v b.toNat, .v d.toNat]) [.v d.toNat]
  | .vfnma h d a b => infL 2 1 h ([.v a.toNat, .v b.toNat, .v d.toNat]) [.v d.toNat]
  | .vfdiv h d a b => infL 2 2 h ([.v a.toNat, .v b.toNat]) [.v d.toNat]
  | .vfsqrt h d a => infL 2 2 h ([.v a.toNat]) [.v d.toNat]
  | .vfmin h d a b => infL 2 1 h ([.v a.toNat, .v b.toNat]) [.v d.toNat]
  | .vfmax h d a b => infL 2 1 h ([.v a.toNat, .v b.toNat]) [.v d.toNat]
  | .vfcmpeq h d a b => infL 2 1 h ([.v a.toNat, .v b.toNat]) [.p d.toNat]
  | .vfcmplt h d a b => infL 2 1 h ([.v a.toNat, .v b.toNat]) [.p d.toNat]
  | .vfcmple h d a b => infL 2 1 h ([.v a.toNat, .v b.toNat]) [.p d.toNat]
  | .vdadd h d a b => infL 2 2 h ([.v a.toNat, .v b.toNat]) [.v d.toNat]
  | .vdmul h d a b => infL 2 2 h ([.v a.toNat, .v b.toNat]) [.v d.toNat]
  | .vdfma h d a b => infL 2 2 h ([.v a.toNat, .v b.toNat, .v d.toNat]) [.v d.toNat]
  | .vddiv h d a b => infL 2 2 h ([.v a.toNat, .v b.toNat]) [.v d.toNat]
  | .vdcmplt h d a b => infL 2 2 h ([.v a.toNat, .v b.toNat]) [.p d.toNat]
  | .vfcvt h d a _ => infL 2 1 h ([.v a.toNat, .v d.toNat]) [.v d.toNat]
  | .vftoi h d a => infL 2 1 h ([.v a.toNat]) [.v d.toNat]
  | .vitof h d a => infL 2 1 h ([.v a.toNat]) [.v d.toNat]
  | .vqnt h d a _ => infL 2 1 h ([.v a.toNat]) [.v d.toNat]
  | .vbexp h d a _ => infL 2 1 h ([.v a.toNat]) [.v d.toNat]
  | .vpack h d a _ => infL 2 0 h ([.v a.toNat]) [.v d.toNat]
  | .vunpk h d a _ => infL 2 0 h ([.v a.toNat]) [.v d.toNat]
  | .vlgenc h d a => infL 2 1 h ([.v a.toNat]) [.v d.toNat]
  | .vlgdec h d a => infL 2 1 h ([.v a.toNat]) [.v d.toNat]
  | .vradd h d a => infL 2 1 h ([.v a.toNat]) [.v d.toNat]
  | .vrmax h d a => infL 2 1 h ([.v a.toNat]) [.v d.toNat]
  | .vrmin h d a => infL 2 1 h ([.v a.toNat]) [.v d.toNat]
  | .vperm h d a b => infL 2 0 h ([.v a.toNat, .v b.toNat]) [.v d.toNat]
  | .vrotl h d a _ => infL 2 0 h ([.v a.toNat]) [.v d.toNat]
  | .viota h d a => infL 2 0 h ([.p a.toNat]) [.v d.toNat]
  | .vnrm h d a => infL 2 2 h ([.v a.toNat]) [.v d.toNat]
  | .vld h d a x => infV 1 h.pg ([.g a.toNat] ++ idxReads x) [.v d.toNat]
  | .vldx8 h d a x => infV 1 h.pg ([.g a.toNat] ++ idxReads x) [.v d.toNat]
  | .vldx16 h d a x => infV 1 h.pg ([.g a.toNat] ++ idxReads x) [.v d.toNat]
  | .vst h d a x => infV 1 h.pg ([.g a.toNat, .v d.toNat] ++ idxReads x) []
  | .vstn8 h d a x => infV 1 h.pg ([.g a.toNat, .v d.toNat] ++ idxReads x) []
  | .vstn16 h d a x => infV 1 h.pg ([.g a.toNat, .v d.toNat] ++ idxReads x) []
  | .vlds pg d a x => { infV 1 pg ([.g a.toNat] ++ idxReads x) [.v d.toNat] with p15 := false }
  | .vsts pg d a x => { infV 1 pg ([.g a.toNat, .v d.toNat] ++ idxReads x) [] with p15 := false }
  | .vgth h d a b => infV 2 h.pg ([.g a.toNat, .v b.toNat]) [.v d.toNat]
  | .vsct h d a b => infV 2 h.pg ([.g a.toNat, .v b.toNat, .v d.toNat]) []
  | .vlda h d a x => infV 1 h.pg ([.g a.toNat] ++ idxReads x) [.v d.toNat]
  | .vstl h d a x => { infV 1 h.pg ([.g a.toNat, .v d.toNat] ++ idxReads x) [] with nonUndo := true }
  | .vaadd h d a x => { infV 2 h.pg ([.g a.toNat, .v d.toNat] ++ idxReads x) [.v d.toNat] with nonUndo := true }
  | .vamin h d a x => { infV 2 h.pg ([.g a.toNat, .v d.toNat] ++ idxReads x) [.v d.toNat] with nonUndo := true }
  | .vamax h d a x => { infV 2 h.pg ([.g a.toNat, .v d.toNat] ++ idxReads x) [.v d.toNat] with nonUndo := true }
  | .vaswp h d a x => { infV 2 h.pg ([.g a.toNat, .v d.toNat] ++ idxReads x) [.v d.toNat] with nonUndo := true }
  | .tcfg h _ a => infS 4 0 h ([.g a.toNat]) []
  | .tstat h d _ => infS 4 0 h [] [.g d.toNat]
  | .tfree h _ => infS 4 0 h [] []
  | .mma e _ _ _ _ _ _ => infE 4 2 e
  | .mmat e _ _ _ _ _ _ => infE 4 2 e
  | .zclr h _ _ => infS 4 0 h [] []
  | .zst e _ _ _ _ => infE 4 1 e
  | .zld e _ _ _ => infE 4 1 e
  | .zadd h _ _ => infS 4 1 h [] []
  | .zfree h _ => infS 4 0 h [] []
  | .sqld h _ a => infS 4 1 h ([.g a.toNat]) []
  | .sqclr h _ => infS 4 0 h [] []
  | .cpin h _ a b => { infS 4 1 h ([.g a.toNat, .g b.toNat]) [] with nonUndo := true }
  | .cpout h _ a b => { infS 4 1 h ([.g a.toNat, .g b.toNat]) [] with nonUndo := true }
  | .cpcl h d a b => { infS 4 1 h ([.g d.toNat, .g a.toNat, .g b.toNat]) [] with nonUndo := true }
  | .cpmc h _ a b => { infS 4 1 h ([.g a.toNat, .g b.toNat]) [] with nonUndo := true }
  | .cpenc h _ a b => { infS 4 2 h ([.g a.toNat, .g (2 * b.toNat), .g (2 * b.toNat + 1)]) [] with nonUndo := true }
  | .cpsc h d a b => { infS 4 1 h ([.g d.toNat, .g a.toNat, .g b.toNat]) [] with nonUndo := true }
  | .trel h _ => infS 4 0 h [] []
  | .arrwTile h _ => infS 4 0 h [] []
  | .arrwCounter h _ a => infS 4 0 h ([.g a.toNat]) []
  | .publ h a => infS 4 0 h ([.g a.toNat]) []
  | .licq h => infS 4 0 h [] []
  | .licr h => infS 4 0 h [] []
  | .licx h => infS 4 0 h [] []
  | .zxt h => { infS 4 1 h [] [] with nonUndo := true }
  | .vsplat h d a => { infL 5 0 h ([.g a.toNat]) [.v d.toNat] with dir := 1 }
  | .vins h d a _ => { infL 5 0 h ([.g a.toNat]) [.v d.toNat] with dir := 1 }
  | .vext h d a _ => { infS 5 0 h ([.v a.toNat]) [.g d.toNat] with dir := 2 }
  | .twset h _ a => { infS 5 0 h ([.g a.toNat]) [] with dir := 1 }
  | .twget h d _ => { infS 5 0 h [] [.g d.toNat] with dir := 2 }
  | .twclr h _ => { infS 5 0 h [] [] with dir := 1 }
  | .waypt e => { infE 6 0 e with isWaypt := true }
  | .trap h _ => { infS 6 0 h [] [] with nonUndo := true }
  | .resume h a => { infS 6 0 h ([.g a.toNat]) [] with nonUndo := true }
  | .crd h d _ => infS 6 0 h [] [.g d.toNat]
  | .cwr h d n => { infS 6 0 h ([.g d.toNat]) [] with nonUndo := !ctxHeld n.toNat }
  | .mona h a b => infS 6 0 h ([.g a.toNat, .g b.toNat]) []
  | .mnap h d a => { infS 6 0 h ([.g a.toNat]) [.g d.toNat] with nonUndo := true }
  | .rqpg h d a b => infS 6 0 h ([.g a.toNat, .g b.toNat]) [.g d.toNat]
  | .taskl h d a => { infS 6 0 h ([.g a.toNat]) [.g d.toNat] with nonUndo := true }
  | .taskr h => { infS 6 0 h [] [] with nonUndo := true }
  | .dsig h a => { infS 6 0 h ([.g a.toNat]) [] with nonUndo := true }
  | .claim h _ a => infS 6 0 h ([.g a.toNat]) []
  | .yield h => infS 6 0 h [] []
  | .seal h a b => { infS 6 0 h ([.g a.toNat, .g b.toNat]) [] with nonUndo := true }
  | .unseal h a b => { infS 6 0 h ([.g a.toNat, .g b.toNat]) [] with nonUndo := true }
  | .vjoin h => infS 6 0 h [] []
  | .dcflLine h a => infS 6 0 h ([.g a.toNat]) []
  | .dcflL2 h => infS 6 0 h [] []
  | .dcinvLine h a => { infS 6 0 h ([.g a.toNat]) [] with nonUndo := true }
  | .dcinvL2 h => { infS 6 0 h [] [] with nonUndo := true }
  | .icinv h => infS 6 0 h [] []
  | .halt h => { infS 6 0 h [] [] with nonUndo := true }
  | .evsig h a => { infS 6 0 h ([.g a.toNat]) [] with nonUndo := true }
  | .bundleFetch => infE 8 0 0
  | .waypointCommit _ _ => infE 8 0 0
  | .resultLanding _ _ => infE 8 0 0
  | .longLoadReturn _ _ _ => infE 8 0 0
  | .storePerformed _ _ => infE 8 0 0
  | .monitorArmEstablished _ _ => infE 8 0 0
  | .mnapWake _ _ => infE 8 0 0
  | .mnapTimeout _ _ => infE 8 0 0
  | .l2Writeback _ _ => infE 8 0 0
  | .trapDelivery _ _ => infE 8 0 0
  | .scaleEntryWrite _ _ => infE 8 0 0
  | .matrixBeat _ => infE 8 0 0
  | .drainComplete _ => infE 8 0 0
  | .copyDelivery _ _ _ => infE 8 0 0
  | .copyComplete _ _ _ => infE 8 0 0
  | .relayDelivery _ _ _ _ => infE 8 0 0
  | .relayHoldTimeout _ _ _ => infE 8 0 0
  | .publSwap _ _ => infE 8 0 0
  | .passingGapEnd _ => infE 8 0 0
  | .zxtMoveDone _ _ => infE 8 0 0
  | .parkedRestoreDone _ _ => infE 8 0 0
  | .licmodeWrite _ _ => infE 8 0 0
  | .licmodeTakesEffect _ => infE 8 0 0
  | .bankkeyWrite _ _ _ => infE 8 0 0
  | .nwatchWrite _ _ _ => infE 8 0 0
  | .registerWrite _ _ _ _ => infE 8 0 0
  | .contextPreemption _ _ => infE 8 0 0
  | .predrainExpiry _ _ => infE 8 0 0
  | .prewaitExpiry _ => infE 8 0 0
  | .contextSaveDone _ => infE 8 0 0
  | .contextRestore _ => infE 8 0 0
  | .taskPlacement _ _ _ => infE 8 0 0
  | .dieClearDone _ => infE 8 0 0
  | .allowExpiry _ _ => infE 8 0 0
  | .taskRetirement _ _ => infE 8 0 0
  | .tilePublication _ => infE 8 0 0
  | .manifestEntry => infE 8 0 0
  | .dsigApply => infE 8 0 0
  | .caravanDecode _ _ => infE 8 0 0
  | .deadlineExpiry _ _ => infE 8 0 0
  | .pageRequestService => infE 8 0 0
  | .hostMemoryWrite _ _ _ => infE 8 0 0
  | .hostMemoryRead _ _ => infE 8 0 0
  | .mqtailWrite _ _ => infE 8 0 0
  | .mqctlWrite _ _ => infE 8 0 0
  | .cmdtailWrite _ => infE 8 0 0
  | .ringBaseWrite _ _ => infE 8 0 0
  | .rpackWrite _ => infE 8 0 0
  | .manifestQueueTake _ => infE 8 0 0
  | .queueSwitch _ _ => infE 8 0 0
  | .tensor _ _ _ => infE 8 0 0
  | .map _ _ _ => infE 8 0 0
  | .evict _ _ _ => infE 8 0 0
  | .evictionDone _ _ => infE 8 0 0
  | .delete _ _ _ => infE 8 0 0
  | .refuse _ _ _ => infE 8 0 0
  | .evack _ _ _ => infE 8 0 0
  | .rqpool _ _ _ => infE 8 0 0
  | .reportWrite => infE 8 0 0
  | .pool _ _ _ => infE 8 0 0
  | .preempt _ _ _ => infE 8 0 0
  | .mailboxResume _ _ _ => infE 8 0 0
  | .mailboxEnd _ _ _ => infE 8 0 0
  | .thaw _ _ _ => infE 8 0 0
  | .move _ _ _ => infE 8 0 0
  | .diereset _ _ _ => infE 8 0 0
  | .setreg _ _ _ => infE 8 0 0
  | .getreg _ _ _ => infE 8 0 0
  | .fabricManifest _ _ _ => infE 8 0 0
  | .resquery _ _ => infE 8 0 0
  | .residencyReportTimer => infE 8 0 0
  | .messageArrival _ _ _ _ => infE 8 0 0
  | .gapTimeout _ _ => infE 8 0 0
  | .resendRequest _ _ _ => infE 8 0 0
  | .cumulativeAck _ _ _ => infE 8 0 0
  | .pairBroken _ _ => infE 8 0 0
  | .transitDrainTimeout _ => infE 8 0 0
  | .dieResetPhase _ => infE 8 0 0
  | .checkpointCapture _ => infE 8 0 0
  | .droverBlockCopy _ _ => infE 8 0 0
  | .checkpointCommit _ => infE 8 0 0
  | .clkpatWrite _ _ => infE 8 0 0
  | .clgrantWrite _ _ => infE 8 0 0
  | .eprofWrite _ _ _ => infE 8 0 0
  | .rbctlWrite _ _ => infE 8 0 0
  | .bankTransitionDone _ _ => infE 8 0 0
  | .mclkfWrite _ _ => infE 8 0 0
  | .clockChange _ => infE 8 0 0
  | .quiesce _ => infE 8 0 0
  | .retain _ => infE 8 0 0
  | .clkoff _ => infE 8 0 0
  | .railoff _ => infE 8 0 0
  | .clusterRailOn _ => infE 8 0 0
  | .clusterClockRestart _ => infE 8 0 0
  | .clusterRetentionExit _ => infE 8 0 0
  | .run _ => infE 8 0 0
  | .clusterStepDone _ => infE 8 0 0
  | .wakesetWrite _ _ => infE 8 0 0
  | .managementWake _ _ => infE 8 0 0
  | .thermalPoll _ => infE 8 0 0
  | .healthWrite _ => infE 8 0 0
  | .locatedWindowReset => infE 8 0 0
  | .fabctlWrite _ => infE 8 0 0
  | .fabricModeChange => infE 8 0 0
  | .packageReset => infE 8 0 0
  | .commandRingTake => infE 8 0 0
  | .l1Eviction _ _ => infE 8 0 0
  | .softError _ _ => infE 8 0 0

end Sys2Proof.Machine
end

