-- ==== Sys2Proof/Machine/Operands.lean ====
section
/-! DEFINITION. Operand forms: guards, immediates and indices, tensor addresses and their checks, residency, and the
bytes a load sees. -/

namespace Sys2Proof.Machine

/-! ### Guards (R47) -/

/-- The lanes in which a slot performs; a scalar guard is all lanes or none. -/
def guardLanes (s : State) : Guard → Pred
  | .always => allLanes
  | .scalar pn pg => if (readP s pg).getLsbD 0 != pn then allLanes else 0
  | .lanes pn pg => if pn then ~~~ (readP s pg) else readP s pg

/-- The lanes of a slot. -/
def lanesOf (s : State) (i : Instr) : Pred := guardLanes s (slotInfo i).guard

/-! ### Tensor references (R107, R233, R237 to R241) -/

/-- The index operand of an M-format slot, as it is added to the reference (R50). -/
def idxVal (s : State) : Idx → Word
  | .reg b => readG s b
  | .lx1 p => p.signExtend 64
  | .lx2 p q => (q ++ p : BitVec 56).signExtend 64

/-- A reference with an index added to its element index modulo 2^48; the tensor id is unchanged. -/
def refAdd (r i : Word) : Word :=
  (r.extractLsb' 48 16 ++ (r.extractLsb' 0 48 + i.extractLsb' 0 48) : BitVec 64)

def refTid (r : Word) : Nat := (r.extractLsb' 48 16).toNat
def refIdx (r : Word) : Nat := (r.extractLsb' 0 48).toNat

/-- The on-chip tensor ids (R233). -/
def onChip (tid : Nat) : Bool := tid == 0xFFF0 || tid == 0xFFF1 || tid == 0xFFF2 || tid == 0xFFF3 || tid == 0xFFF5 || tid == 0xFFF6

/-- Bytes of an on-chip level as one context sees it (Table 10.1): the lane slice is four bytes per slice word claimed. -/
def chipSize (k : Ctx) (tid : Nat) : Nat :=
  if tid = 0xFFF0 then Nat.min 4096 (4 * k.live.slice)
  else if tid = 0xFFF1 ∨ tid = 0xFFF5 then 2 ^ 20
  else if tid = 0xFFF2 ∨ tid = 0xFFF6 then 2 ^ 22
  else 2 ^ 25

/-- Half-bytes of an element (R239). -/
def elemHalf (elem : Nat) : Nat := [2, 4, 8, 16, 1, 2, 4, 2, 2].getD elem 2

/-- The coordinates of an index: the last dimension is the fastest (R239). -/
def coords (dims : List Nat) (i : Nat) : Nat × List Nat :=
  dims.foldr (fun d t => (t.1 / d, (t.1 % d) :: t.2)) (i, [])

/-- Tile and in-tile offset of coordinates (R239). -/
def tileOff : List Nat → List Nat → List Nat → Nat × Nat → Nat × Nat
  | d :: ds, t :: ts, c :: cs, (tile, off) =>
    tileOff ds ts cs (tile * ((d + t - 1) / t) + c / t, off * t + c % t)
  | _, _, _, r => r

/-- The layout unit (R239, R241): tile and byte location of an element index, or none beyond the extent. -/
def layoutLoc (tid : Nat) (l : Layout) (i : Nat) : Option (Nat × Nat) :=
  if tid = 0 then (if i < l.ntile * 65536 then some (i / 65536, i % 65536) else none)
  else if i < l.dims.foldl (· * ·) 1 then
    let r := tileOff l.dims l.tiles (coords l.dims i).2 (0, 0)
    some (r.1, r.2 * elemHalf l.elem / 2)
  else none

/-- The layout record of a tensor id in a process. -/
def layoutOf (s : State) (pid tid : Nat) : Option Layout :=
  if tid < 0xFFF0 then (getProc s pid).tensors.find tid else none

/-- Check 1 of Table 5.6: tile and byte location of a reference. -/
def locate (s : State) (k : Ctx) (r : Word) : Option (Nat × Nat) :=
  let tid := refTid r
  if onChip tid then
    (if refIdx r < chipSize k tid then some (refIdx r / 65536, refIdx r % 65536) else none)
  else match layoutOf s k.pid tid with
    | some l => layoutLoc tid l (refIdx r)
    | none => none

/-- The storage address of an on-chip byte at offset `b`, for a lane of context `k` of core `c` (R234, R246); a management
core's levels are cluster 256's and die 16's (log entry 120). -/
def chipByte (k : Ctx) (c lane tid b : Nat) : Nat :=
  let key := k.live.bankkey.setWidth 32
  if tid = 0xFFF0 then sliceBase c + lane * 4096 + k.slbase * 4 + b
  else if tid = 0xFFF1 then tileByte c key false b
  else if tid = 0xFFF5 then tileByte c key true b
  else if tid = 0xFFF2 then clusterByte (clusterOf c) key false b
  else if tid = 0xFFF6 then clusterByte (clusterOf c) key true b
  else scratchBase (dieOf c) + b

/-- Outcome of the residency lookup of a tile (R108). -/
inductive Look where
  /-- resident: the address of the tile's first byte -/
  | resident (base : Nat)
  | unplaced
  | nonres
  /-- entry state 11: the address fault (Table 10.4) -/
  | bad
  deriving DecidableEq, Repr

/-! ### Declared tile sets (R214, R215) -/

/-- The cells that bounds lo to hi cover along an axis. -/
def cellsCovered (o g lo hi : Nat) : List Nat :=
  (List.range ((hi - 1 - o) / g + 1 - (lo - o) / g)).map fun i => (lo - o) / g + i

/-- The runs of tiles of a tile-set record for a subdomain: first tile and count. -/
def setRuns (grains o lo hi : List Nat) (r : SetRec) : List (Nat × Nat) :=
  let cs := fun (a step : Nat) =>
    if step = 0 then [0] else cellsCovered (o.getD a 0) (grains.getD a 1) (lo.getD a 0) (hi.getD a 1)
  (cs r.ax0 r.step0).flatMap fun c0 => (cs r.ax1 r.step1).map fun c1 =>
    (tileKey r.tid (r.first + c0 * r.step0 + c1 * r.step1), r.count)

def codeK (m : Manifest) : Nat := m.code.toNat % 16
def codeM (m : Manifest) : Nat := m.code.toNat / 16 % 16

/-- The caravan that an index of a coded manifest is declared in, and its member (R230, R259). -/
def indexCar (m : Manifest) (i : Nat) : Nat := if i < m.ntask then i / codeK m else (i - m.ntask) / codeM m
def indexMember (m : Manifest) (i : Nat) : Nat := if i < m.ntask then i % codeK m else codeK m + (i - m.ntask) % codeM m

/-- KO and MO (Table 9.4): 0 without an outer code. -/
def outerK (m : Manifest) : Nat := m.code.toNat / 2 ^ 48 % 16
def outerM (m : Manifest) : Nat := m.code.toNat / 2 ^ 52 % 16
/-- Is the operator coded a second time across packages (R271)? -/
def outerCoded (m : Manifest) : Bool := outerK m != 0
/-- The first task index of outer outriders, and that of record `t` in outer outrider package `j` (R271). -/
def outerBase : Nat := 0xC00000
def outerIndex (j t : Nat) : Nat := outerBase + (j - 1) * 0x100000 + t

/-- The task record that gives an index its origin, extents and write sets: an outrider takes those of the first data task of its
caravan (R230), a replica those of its data task (R270), an outer outrider those of its record of group 0 (R271). -/
def recIndex (m : Manifest) (i : Nat) : Nat :=
  if i < m.ntask then i
  else if outerBase ≤ i then i % 0x100000
  else
    let q := indexCar m i
    if m.replicas.contains q then codeK m * q + (i - m.ntask) % codeM m % codeK m else codeK m * q

def emptyRec : TaskRec := ⟨0, 0, 0, 0, 0, 0, [], []⟩
def recFor (m : Manifest) (i : Nat) : TaskRec := m.recs.getD (recIndex m i) emptyRec

/-- The write set of an index within bounds, and its full-domain read set; an outrider has none (R230). -/
def writeRuns (m : Manifest) (i : Nat) (lo hi : List Nat) : List (Nat × Nat) :=
  let r := recFor m i
  ((m.sets.drop r.wridx).take r.nwr).flatMap (setRuns m.grains r.origin lo hi)
def readRuns (m : Manifest) (i : Nat) (lo hi : List Nat) : List (Nat × Nat) :=
  let r := recFor m i
  if m.ntask ≤ i then [] else ((m.sets.drop r.rdidx).take r.nrd).flatMap (setRuns m.grains r.origin lo hi)

/-- Upper bounds of an index's full domain. -/
def fullHi (m : Manifest) (i : Nat) : List Nat := List.zipWith (· + ·) (recFor m i).origin (recFor m i).extent

/-- Is a tile in one of the runs? -/
def covers (l : List (Nat × Nat)) (key : Nat) : Bool := l.any fun r => decide (r.1 ≤ key) && decide (key < r.1 + r.2)
def runsMeet (a b : List (Nat × Nat)) : Bool :=
  a.any fun p => b.any fun q => decide (p.1 < q.1 + q.2) && decide (q.1 < p.1 + p.2)
/-- Every tile of the runs. -/
def runTiles (l : List (Nat × Nat)) : List Nat := l.flatMap fun r => (List.range r.2).map fun i => r.1 + i

/-- The write set of a task. -/
def taskRuns (s : State) (t : Task) : List (Nat × Nat) :=
  match s.serai.manifests.find t.seq.toNat with
  | some m => writeRuns m t.index t.lo t.hi
  | none => []

/-- The entry of the dependence table of a task's context that renames a tile, if the tile is in the task's write set (R216). -/
def renames (s : State) (k : Ctx) (tid tile : Nat) : Option Nat :=
  match k.task with
  | none => none
  | some e => match s.serai.tasks.find e with
    | none => none
    | some t => if covers (taskRuns s t) (tileKey tid tile) then some e else none

/-- The residency lookup (R108, R216, R242). A renamed tile that the task has written is its shadow, whatever the published tile is. -/
def lookTile (s : State) (k : Ctx) (tid tile : Nat) : Look :=
  match layoutOf s k.pid tid with
  | none => .bad
  | some l =>
    let e := entryAt s l tile
    let own := renames s k tid tile
    if e / 2 ^ 62 = 3 then .bad
    else if own.any fun d => heldFrame s d (tileKey tid tile) then .resident (shadowByte (own.getD 0) (tileKey tid tile) 0)
    else if e / 2 ^ 62 = 0 then .unplaced
    else if e / 2 ^ 62 = 1 then
      (match own with
        | some d => .resident (shadowByte d (tileKey tid tile) 0)
        | none => .resident (frameOf s e))
    else .nonres

/-- A tile gets a zeroed frame, and its entry is written. With no free frame it stays as it is and the residency service raises the event
of source 0x0F (R244, Table 21.3). -/
def putFrame (s : State) (c : Nat) (l : Layout) (tid tile : Nat) : State :=
  match frameFrom s (stackOrder c tile) with
  | some (s1, f) =>
    let s2 := dropCopies { s1 with mem := s1.mem.clear f 65536 } f 65536
    let entry := 2 ^ 62 + pkgNo s * 2 ^ 48 + f / 65536 * 65536
    { s2 with mem := Memory.writeN s2.mem (l.ttab + 8 * tile) entry 8 }
  | none => event s 0x0F [BitVec.ofNat 64 (tileKey tid tile)]

/-- First-touch placement of an unplaced tile (R109, R244). -/
def placeTile (s : State) (c : Nat) (k : Ctx) (tid tile : Nat) : State :=
  match layoutOf s k.pid tid with
  | none => s
  | some l => if entryAt s l tile / 2 ^ 62 ≠ 0 then s else putFrame s c l tid tile

/-- A tile that an access reads: an unplaced one is placed (R109). -/
def placeRead (s : State) (c : Nat) (k : Ctx) (tid tile : Nat) : State :=
  if lookTile s k tid tile = .unplaced then placeTile s c k tid tile else s

/-- A tile that an access writes: a renamed one gets a frame for its shadow and leaves the published tile as it is, another unplaced
one is placed (R109, R216). -/
def placeWrite (s : State) (c : Nat) (k : Ctx) (tid tile : Nat) : State :=
  match renames s k tid tile with
  | some e => if lookTile s k tid tile = .nonres then s else setAside s c e (tileKey tid tile)
  | none => placeRead s c k tid tile

/-- Can a write reach a tile: does a renamed tile have its frame? -/
def canWrite (s : State) (k : Ctx) (tid tile : Nat) : Bool :=
  match renames s k tid tile with
  | some e => heldFrame s e (tileKey tid tile)
  | none => true

/-- A step for every tile of a list, each once. -/
def eachTile (f : State → Nat → Nat → State) (s : State) : List (Nat × Nat) → State
  | [] => s
  | t :: r => eachTile f (f s t.1 t.2) r

/-! ### Checks (Table 5.6) -/

/-- What an access asks of its address. -/
structure Acc where
  /-- bytes -/
  w : Nat
  write : Bool
  /-- an atomic or STL (check 2; Table 6.4 settles the ids of VSTL) -/
  sync : Bool
  deriving DecidableEq, Repr

/-- Is a tile under SEAL for this context (R203)? Management contexts are not subject to seals. -/
def isSealed (s : State) (c pid tid tile : Nat) : Bool :=
  !isMgmt c && s.serai.seals.any fun e => e.pid == pid && e.tid == tid && e.first ≤ tile && tile < e.first + e.count

/-- May the context write the tile (R111)? -/
def inWriteSet (s : State) (k : Ctx) (tid tile : Nat) : Bool :=
  onChip tid || (renames s k tid tile).isSome ||
  match k.task with
  | none => true
  | some e => match s.serai.tasks.find e with
    | none => true
    | some t => t.fixed

/-- Check `n` of Table 5.6 for one reference: the cause it raises. -/
def checkAt (s : State) (c : Nat) (k : Ctx) (a : Acc) (r : Word) (n : Nat) : Option (BitVec 8) :=
  let tid := refTid r
  match locate s k r with
  | none => if n = 1 then some 0x04 else none
  | some (tile, off) =>
    if n = 2 then (if a.sync ∧ (tid = 0xFFF0 ∨ tid = 0xFFF5 ∨ tid = 0xFFF6) then some 0x04 else none)
    else if n = 3 then (if off % a.w ≠ 0 then some 0x05 else none)
    else if n = 4 then
      (if a.write && !onChip tid && (match layoutOf s k.pid tid with | some l => l.ro | none => false) then some 0x06 else none)
    else if n = 5 then (if a.write && !onChip tid && isSealed s c k.pid tid tile then some 0x07 else none)
    else if n = 6 then (if a.write && !inWriteSet s k tid tile then some 0x20 else none)
    else if n = 7 then (if !onChip tid && lookTile s k tid tile == .bad then some 0x04 else none)
    else none

/-- The first check of Table 5.6 that fails, over references lowest lane first (R107, R148): cause and reference. -/
def firstFail (s : State) (c : Nat) (k : Ctx) (a : Acc) (refs : List Word) : List Nat → Option (BitVec 8 × Word)
  | [] => none
  | n :: ns =>
    match refs.findSome? fun r => (checkAt s c k a r n).map fun q => (q, r) with
    | some f => some f
    | none => firstFail s c k a refs ns

/-- The checks of Table 5.6 in order. -/
def checkAddr (s : State) (c : Nat) (k : Ctx) (a : Acc) (refs : List Word) : Option (BitVec 8 × Word) :=
  firstFail s c k a refs [1, 2, 3, 4, 5, 6, 7]

/-! ### Bytes of an access -/

/-- Storage addresses of `n` bytes at byte location `off` of a tile, for one lane; none on a non-resident tile. -/
def bytesAt (s : State) (c : Nat) (k : Ctx) (lane tid tile off n : Nat) : List Nat :=
  if onChip tid then (List.range n).map fun i => chipByte k c lane tid (tile * 65536 + off + i)
  else match lookTile s k tid tile with
    | .resident b => (List.range n).map fun i => b + off + i
    | _ => []

/-- Is this the swizzled view of a level (R205)? -/
def swzId (tid : Nat) : Bool := tid == 0xFFF5 || tid == 0xFFF6

/-- The youngest entry of the withheld store buffer that holds a byte (R23): forwarding stays within one view; a byte that
the open interval wrote through the other view is free (R205). The list is youngest first. -/
def forwardByte (fresh a : Nat) (swz : Bool) : List StoreEntry → Option Byte
  | [] => none
  | e :: r =>
    match findCell a e.cells.reverse with
    | some v =>
      if e.swz = swz then some v
      else if e.committed then forwardByte fresh a swz r
      else some (Config.freeByte fresh a)
    | none => forwardByte fresh a swz r

/-- The forwarded bytes of an access. -/
def forwards (s : State) (k : Ctx) (swz : Bool) (as : List Nat) : List (Option Byte) :=
  as.map fun a => forwardByte s.fresh a swz k.wbuf.reverse

/-- The bytes of an access as one number, low byte first: forwarded bytes from the buffer, the others from the scope
point. -/
def partValue (s : State) (c scope : Nat) : List Nat → List (Option Byte) → Nat
  | a :: as, f :: fs =>
    (match f with | some v => v.toNat | none => (readAt s c scope a).toNat) + 256 * partValue s c scope as fs
  | _, _ => 0

/-- A loaded value of `w` bytes, sign- or zero-extended. -/
def extend (w : Nat) (sext : Bool) (v : Nat) : Word :=
  let b := BitVec.ofNat (8 * w) v
  if sext then b.signExtend 64 else b.setWidth 64

/-- The window of an on-chip level (Table 1.2). -/
def chipWindow (tid : Nat) : Nat :=
  if tid = 0xFFF0 then 2 else if tid = 0xFFF1 ∨ tid = 0xFFF5 then 12
  else if tid = 0xFFF2 ∨ tid = 0xFFF6 then 24 else 64

end Sys2Proof.Machine
end

