-- ==== Sys2Proof/Machine/Checks.lean ====
section
/-! DEFINITION. The conditions of the slots' own instructions at issue (R88): what faults, what blocks (R20), what waits. -/

namespace Sys2Proof.Machine

/-- A fault found at issue: cause and TRAPINFO. -/
abbrev Found := Option (BitVec 8 × Word)

/-- A fault of cause `q` and reason `r` if `b` holds. -/
def failIf (s : State) (b : Bool) (q : BitVec 8) (r : Nat) : Found := if b then some (q, reasonInfo s r) else none
/-- The same for a cause whose reason code the spec does not give. -/
def failOpen (s : State) (b : Bool) (q : BitVec 8) : Found := if b then some (q, openReasonInfo s) else none

/-! ### Scalar and vector memory -/

/-- The reference of a scalar access. -/
def scalarRef (s : State) (a : Reg) (x : Idx) : Word := refAdd (readG s a) (idxVal s x)

/-- Entries of the open interval in the withheld store buffer (WBSTAT, R23). -/
def openEntries (k : Ctx) : Nat := (k.wbuf.filter fun e => !e.committed && !e.release).length
/-- Entries in the withheld store buffer; a release store takes none (R117). -/
def heldEntries (k : Ctx) : Nat := (k.wbuf.filter fun e => !e.release).length

/-- Does a lane's store reach storage: an on-chip byte, or a tile that is resident once it has been placed; where no frame is free for
it the store is dropped (R108, R149, R244)? -/
def reaches (s : State) (k : Ctx) (r : Word) : Bool :=
  onChip (refTid r) || match locate s k r with
    | some (tile, _) =>
      let u := placeWrite s s.focus k (refTid r) tile
      (match lookTile u k (refTid r) tile with | .resident _ => canWrite u k (refTid r) tile | _ => false)
    | none => false

/-- Has the open interval no entry left for a store that takes one (R23)? -/
def entriesSpent (s : State) (extra : Nat) : Bool := decide (openEntries (me s) + extra + 1 > Config.storeEntries)

/-- The checks of a scalar access, and for a store those of the buffer (R107, R23): `extra` store slots of the bundle
stand before it. -/
def scalarFault (s : State) (a : Acc) (r : Word) (store : Bool) (extra : Nat) : Found :=
  match checkAddr s s.focus (me s) a [r] with
  | some f => some f
  | none =>
    if store && entriesSpent s extra && reaches s (me s) r then
      some (0x08, Config.freeInfo s.fresh) else none

/-- Tensor ids a VM instruction refuses (Table 6.4): `kind` 0 contiguous, 1 VLDS and VSTS, 2 VGTH and VSCT, 3 lane
atomics. -/
def idRefused (kind tid : Nat) : Bool :=
  if kind = 0 then tid == 0xFFF0
  else if kind = 1 then onChip tid && tid != 0xFFF0
  else if kind = 2 then false
  else tid == 0xFFF0 || tid == 0xFFF5 || tid == 0xFFF6

/-- VLDS and VSTS name the slice level alone. -/
def idForeign (kind tid : Nat) : Bool := kind == 1 && tid != 0xFFF0

/-- The enabled lanes, lowest first. -/
def lanesList (m : Pred) : List Nat := (List.range 32).filter fun i => m.getLsbD i

/-- The references of a gather or scatter, one per enabled lane (R148, R150). -/
def gatherRefs (r : Word) (vb : Vec) (m : Pred) : List Word :=
  (lanesList m).map fun i => refAdd r ((lane vb i).signExtend 64)

/-- The checks of a contiguous vector access (R146 to R148). -/
def contigFault (s : State) (kind : Nat) (a : Acc) (r : Word) (span : Nat) (m : Pred) (store : Bool) (extra : Nat) : Found :=
  if m = 0 then none
  else if idRefused kind (refTid r) || idForeign kind (refTid r) then some (0x04, r)
  else match firstFail s s.focus (me s) a [r] [1, 2] with
  | some f => some f
  | none =>
    let spans := match locate s (me s) r with
      | some (_, off) => decide (off + span > 65536)
      | none => false
    if spans then some (0x05, r)
    else match firstFail s s.focus (me s) a [r] [3, 4, 5, 6, 7] with
      | some f => some f
      | none =>
        if store && entriesSpent s extra && reaches s (me s) r then
          some (0x08, Config.freeInfo s.fresh) else none

/-- The checks of a gather or scatter. -/
def gatherFault (s : State) (a : Acc) (r : Word) (vb : Vec) (m : Pred) (store : Bool) (extra : Nat) : Found :=
  let refs := gatherRefs r vb m
  match checkAddr s s.focus (me s) a refs with
  | some f => some f
  | none =>
    if store && entriesSpent s extra && refs.any (reaches s (me s)) then
      some (0x08, Config.freeInfo s.fresh) else none

/-! ### Waits and blocks of memory accesses -/

/-- Long loads that have not returned, the bundle in issue left out. -/
def oldLoads (s : State) : List LongLoad := (me s).loads.filter fun l => decide (l.issued < s.now)

/-- Does a fence hold back a load or atomic of class `cls`: earlier long loads of the fence's classes are outstanding, or committed
stores of them still in the buffer (R122)? -/
def fenceHeld (s : State) (cls : BitVec 4) : Bool :=
  (me s).fences.any fun f => f.1.getLsbD cls.toNat &&
    ((oldLoads s).any (fun l => f.1.getLsbD l.cls.toNat && decide (l.id < f.2.2))
      || (me s).wbuf.any fun e => e.committed && f.1.getLsbD e.cls.toNat && decide (e.seq < f.2.2))

/-- A load, LDA or atomic of class `cls` blocks: on an LDA that is a long load (R116), on a fence while any long load is outstanding
(R122; log entry 140); a load or LDA, not an atomic, on an outstanding atomic of its class (R251). -/
def orderBlock (s : State) (atomic : Bool) (cls : BitVec 4) : Bool :=
  let ls := oldLoads s
  ls.any (fun l => l.acquire || (!atomic && l.atomic.isSome && l.cls == cls)) || (fenceHeld s cls && !ls.isEmpty)

/-- It waits at issue: on a flight of an on-chip LDA (R116), a monitor arm not established (R191), or a fence. -/
def orderWait (s : State) (cls : BitVec 4) : Bool :=
  (me s).flight.any (fun f => f.acquire && decide (f.issued < s.now))
  || ((me s).mon.st == .armed && !(me s).mon.established)
  || fenceHeld s cls

/-- Is the access a long load (R17)? -/
def isLong (r : Word) : Bool := !onChip (refTid r)

/-- Does the withheld store buffer have to drain before a store can enter (R23)? -/
def bufferFull (s : State) (extra : Nat) : Bool := decide (heldEntries (me s) + extra ≥ Config.storeEntries)

/-! ### Matrix engine -/

/-- Table 2.8 fields of a tile handle of the current context. -/
def tileOfMe (s : State) (t : TReg) : Tile := (me s).live.tiles.get Tile.off t.toNat

def mine (s : State) : Bool := licMine s s.focus (curX s)

def noLicence (s : State) : Found := failIf s (!mine s) 0x0A 0x40

/-- Live matrix-array and drain jobs of the current context. -/
def myMma (s : State) : Option MmaJob := (myCore s).mma.filter fun j => j.x == curX s
def myDrain (s : State) : Option DrainJob := (myCore s).drain.filter fun j => j.x == curX s

/-- Does an unfinished job of the context read or write bank `z` (R161)? -/
def zBusy (s : State) (z : TReg) : Bool :=
  (match myMma s with | some j => j.z == z | none => false) ||
  (match myDrain s with | some j => j.z == z || (j.kind == .zadd && j.z2 == z) | none => false)

/-- Does an unfinished job of the context read or write tile `t`? With `read` set, the destination of a running ZST is left
out: a slot that reads it blocks (R161). -/
def tBusy (s : State) (t : TReg) (read : Bool) : Bool :=
  (match myMma s with | some j => j.na == t || j.nb == t | none => false) ||
  (match myDrain s with
    | some j => j.kind != .zadd && j.t == t && !(read && j.kind == .zst)
    | none => false)

/-- A slot that names a busy tile. -/
def tileFault (s : State) (t : TReg) (read : Bool) : Found := failIf s (tBusy s t read) 0x09 0x39

/-- A TCFG operand's fields (Table 2.7). -/
def cfgBase (w : Word) : Nat := w.toNat / 16 % 65536 * 16
def cfgBytes (w : Word) : Nat := w.toNat / 2 ^ 32 % 2 ^ 21
def cfgFmt (w : Word) : BitVec 3 := w.extractLsb' 58 3
def cfgView (w : Word) : Bool := w.getLsbD 57

/-- The configured ranges of context `x` of core `c`, parked handles included (R164, R297). -/
def ranges (s : State) (c x : Nat) : List (Nat × Nat) :=
  let own := ((getCtx s c x).live.tiles.cells.filter fun e => e.2.v).map fun e => (e.2.base, e.2.bytes)
  let parked := match parkedOf s c x with
    | some p => (p.tiles.cells.filter fun e => e.2.v).map fun e => (e.2.base, e.2.bytes)
    | none => []
  own ++ parked ++ ((getCtx s c x).reserved.map fun r => (r.1, r.2.1))

def overlaps (a b : Nat × Nat) : Bool := decide (a.1 < b.1 + b.2) && decide (b.1 < a.1 + a.2)

/-- A range inserted by its first byte. -/
def insertRange (r : Nat × Nat) : List (Nat × Nat) → List (Nat × Nat)
  | [] => [r]
  | q :: t => if r.1 ≤ q.1 then r :: q :: t else q :: insertRange r t

/-- The ranges in rising order of first byte. -/
def sortRanges (l : List (Nat × Nat)) : List (Nat × Nat) := l.foldr insertRange []

/-- Bytes covered by ranges in rising order of first byte, each byte once; `upto` is the first byte not yet counted. -/
def coveredFrom (upto : Nat) : List (Nat × Nat) → Nat
  | [] => 0
  | r :: t =>
    let lo := Nat.max upto r.1
    let hi := r.1 + r.2
    (hi - lo) + coveredFrom (Nat.max upto hi) t

def covered (l : List (Nat × Nat)) : Nat := coveredFrom 0 (sortRanges l)

/-- Saved contexts keep their tiles on their core (R297): the image slots tied to a core. Until a save is over, the hardware context
holds them. -/
def slotsOn (s : State) (c : Nat) : List (Nat × Image) :=
  s.serai.images.cells.filter fun e => e.2.core == c && e.2.coretied && !e.2.saving
def imagesOn (s : State) (c : Nat) : List Image := (slotsOn s c).map (·.2)

/-- Configured ranges of a set of tiles. -/
def tileRanges (t : Tab Tile) : List (Nat × Nat) := (t.cells.filter fun e => e.2.v).map fun e => (e.2.base, e.2.bytes)

/-- Ranges of a parked state. -/
def parkedRanges (p : Option Parked) : List (Nat × Nat) :=
  match p with | some q => tileRanges q.tiles | none => []

/-- Ranges held by others of the core: its other contexts and the saved contexts tied to it. -/
def foreignRanges (s : State) (c x : Nat) : List (Nat × Nat) :=
  ([0, 1, 2, 3].filter fun y => y != x).flatMap (ranges s c) ++
  (slotsOn s c).flatMap fun e => tileRanges e.2.ctx.live.tiles ++ parkedRanges (parkedOf s c (4 + e.1))
    ++ e.2.ctx.reserved.map fun r => (r.1, r.2.1)

/-- The ranges of the context's other configured handles. -/
def ownOther (s : State) (t : TReg) : List (Nat × Nat) :=
  (((me s).live.tiles.cells.filter fun e => e.2.v && e.1 != t.toNat).map fun e => (e.2.base, e.2.bytes)) ++
  (match parkedOf s s.focus (curX s) with
    | some p => (p.tiles.cells.filter fun e => e.2.v).map fun e => (e.2.base, e.2.bytes)
    | none => [])

/-- Does the binding exceed the context's tile-store claim (Table 7.3)? -/
def overClaim (s : State) (t : TReg) (w : Word) : Bool :=
  decide (covered ((cfgBase w, cfgBytes w) :: ownOther s t) > (me s).live.claimb)

/-- Checks of TCFG that fault (Table 7.3); the claim failure comes after them. -/
def tcfgFault (s : State) (t : TReg) (w : Word) : Found :=
  let bad := decide (w.toNat / 2 ^ 53 % 16 ≠ 0) || decide (w.toNat / 2 ^ 20 % 2 ^ 12 ≠ 0) || decide (w.toNat % 16 ≠ 0)
    || cfgFmt w == 7 || cfgBytes w == 0
  (failIf s bad 0x0B 0x28)
  <|> (failOpen s (decide (cfgBase w + cfgBytes w > Config.tileStoreBytes)) 0x04)
  <|> (failIf s ((foreignRanges s s.focus (curX s)).any (overlaps (cfgBase w, cfgBytes w))) 0x0D 0x3C)
  <|> (failIf s ((tileOfMe s t).st == .filling || (tileOfMe s t).st == .draining || tBusy s t false) 0x09 0x39)

/-- Depth per beat of an operand pair of Table 3.9; 0 for any other pair. -/
def pairDepth (fa fb : BitVec 3) : Nat :=
  if fa = 1 ∧ fb = 1 then 4 else if fa = 2 ∧ fb = 1 then 4 else if fa = 0 ∧ fb = 0 then 8
  else if fa = 3 ∧ fb = 3 then 8 else if fa = 2 ∧ fb = 2 then 2 else 0

/-- Half-bytes of an operand format. -/
def fmtHalf (f : BitVec 3) : Nat := if f = 0 then 1 else if f = 2 then 4 else 2

/-- Depth of a tile of `rows` rows, and whether it is an integer (R171). -/
def tileDepth (t : Tile) (rows : Nat) : Nat := t.bytes * 2 / (rows * fmtHalf t.fmt)
def depthWhole (t : Tile) (rows : Nat) : Bool := t.bytes * 2 % (rows * fmtHalf t.fmt) == 0

def bankOf (s : State) (z : TReg) : Bank := (myCore s).z.get Bank.reset z.toNat

/-- A scale entry is there for a draw: held and not yet drawn. -/
def scaleReady (q : ScaleQ) : Bool := decide (q.drawn < q.cnt)

/-- Checks of MMA and MMAT (Table 7.7). -/
def mmaFault (s : State) (z ta tb : TReg) (beats : Nat) : Found :=
  let a := tileOfMe s ta
  let b := tileOfMe s tb
  let d := pairDepth a.fmt b.fmt
  let k := beats * d
  let bx := a.fmt != 3
  let busy := tBusy s ta true || tBusy s tb true
  noLicence s
  <|> failIf s (!a.v || !b.v) 0x0B 0x20
  <|> failIf s (d == 0) 0x0B 0x21
  <|> failIf s (!depthWhole a 64 || !depthWhole b 32 || decide (k > tileDepth a 64) || decide (k > tileDepth b 32)
        || (bx && k % 32 != 0)) 0x0B 0x22
  <|> failIf s (!(bankOf s z).live) 0x0B 0x23
  <|> failIf s (myMma s).isSome 0x09 0x38
  <|> failIf s (zBusy s z || busy) 0x09 0x39
  <|> failIf s (bx && ((!scaleReady (myCore s).sqa && (myCore s).sqa.pend.isEmpty)
        || (!scaleReady (myCore s).sqb && (myCore s).sqb.pend.isEmpty))) 0x0C 0x30

/-- What an MMA blocks on. -/
def mmaBlock (s : State) (ta tb : TReg) : Option Block :=
  let a := tileOfMe s ta
  let b := tileOfMe s tb
  if a.st != .ready || b.st != .ready then some .tile
  else if a.fmt != 3 && (!scaleReady (myCore s).sqa || !scaleReady (myCore s).sqb) then some .scale
  else none

/-- EPI.FMT and its tile (Table 7.8). -/
def epiFmt (w : Word) : Nat := w.toNat / 2 ^ 24 % 16
def epiRM (w : Word) : BitVec 2 := w.extractLsb' 28 2
def zstTileOk (f : Nat) (t : Tile) : Bool :=
  t.v && t.st == .empty &&
    (if f = 0 then t.fmt == 1 && t.bytes == 2112 else if f = 1 then t.fmt == 2 && t.bytes == 4160
     else if f = 2 then t.fmt == 4 && t.bytes == 8192 else t.fmt == 6 && t.bytes == 32768)

/-- Checks of ZST, in the order of R173; the beats of R163 are checked after the licence (log entry 104). -/
def zstFault (s : State) (z t u : TReg) (beats : Nat) : Found :=
  noLicence s
  <|> failIf s (beats != 32) 0x0B 0x22
  <|> failIf s (!(bankOf s z).live) 0x0B 0x23
  <|> failIf s (!zstTileOk (epiFmt ((me s).live.epi.get 0 u.toNat)) (tileOfMe s t)) 0x0B 0x24
  <|> failIf s (myDrain s).isSome 0x09 0x38
  <|> failIf s (zBusy s z || tBusy s t false) 0x09 0x39

/-- A byte of a tile as an engine of core `c` reads it, through the tile's view and a key. -/
def tileRead (s : State) (c : Nat) (key : BitVec 32) (t : Tile) (b : Nat) : Nat :=
  (s.mem.read (tileByte c key t.view (t.base + b))).toNat

/-- `n` bytes of a tile, low byte first. -/
def tileReadN (s : State) (c : Nat) (key : BitVec 32) (t : Tile) (b : Nat) : Nat → Nat
  | 0 => 0
  | n + 1 => tileReadN s c key t b n + tileRead s c key t (b + n) * 2 ^ (8 * n)

def myKey (s : State) : BitVec 32 := (me s).live.bankkey.setWidth 32

/-- Checks of ZLD, in the order of R173; the beats of R163 are checked after the licence (log entry 104). -/
def zldFault (s : State) (z t : TReg) (beats : Nat) : Found :=
  let l := tileOfMe s t
  let ze := (BitVec.ofNat 16 (tileReadN s s.focus (myKey s) l 10 2)).toInt
  noLicence s
  <|> failIf s (beats != 32) 0x0B 0x22
  <|> failIf s (!(l.v && l.fmt == 6 && l.bytes == 32768)) 0x0B 0x24
  <|> failIf s (myDrain s).isSome 0x09 0x38
  <|> failIf s (zBusy s z || tBusy s t true) 0x09 0x39
  <|> failIf s (l.st == .ready && (decide (ze < -512) || decide (ze > 511))) 0x0B 0x25

/-- Checks of ZADD (R173), in an order of the model's (log entry 145). -/
def zaddFault (s : State) (d a : TReg) : Found :=
  noLicence s
  <|> failIf s (!(bankOf s d).live || !(bankOf s a).live) 0x0B 0x23
  <|> failIf s (myDrain s).isSome 0x09 0x38
  <|> failIf s (zBusy s d || zBusy s a) 0x09 0x39

def queueOf (s : State) (q : Bool) : ScaleQ := if q then (myCore s).sqb else (myCore s).sqa

/-- Checks of SQLD (R171), in an order of the model's, the licence first (log entry 145). -/
def sqldFault (s : State) (q : Bool) (w : Word) : Found :=
  let off := w.toNat % 65536
  let n := if q then 32 else 64
  noLicence s
  <|> failOpen s (off % n != 0) 0x05
  <|> failOpen s (decide (off + n > 65536)) 0x04
  <|> failIf s (decide ((queueOf s q).cnt + (queueOf s q).pend.length + 1 > Config.scaleEntries)) 0x0C 0x32

/-- A 65th recorded release (R328). -/
def releaseFault (s : State) : Found :=
  failIf s (decide ((me s).releases.length + 1 > Config.releaseEntries)) 0x08 0x61

/-- Checks of TFREE (R167), V first (log entry 145). -/
def tfreeFault (s : State) (t : TReg) : Found := failIf s (!(tileOfMe s t).v) 0x0B 0x20 <|> releaseFault s
/-- Checks of TREL (R166), in an order of the model's (log entry 145). -/
def trelFault (s : State) (t : TReg) : Found :=
  failIf s (!(tileOfMe s t).v) 0x0B 0x20 <|> failIf s ((tileOfMe s t).st != .ready) 0x0B 0x29 <|> releaseFault s

/-! ### Copies (R174 to R178) -/

def dStride (w : Word) : Nat := w.toNat / 2 ^ 40
def dRows (w : Word) : Nat := w.toNat / 2 ^ 28 % 4096
def dLen (w : Word) : Nat := w.toNat / 2 ^ 8 % 2 ^ 20
def dCE (w : Word) : Bool := w.getLsbD 3
def dCnt (w : Word) : Nat := w.toNat % 8
def dMask (w : Word) : Nat := w.toNat % 256

/-- Half-bytes of an element of the tensor a reference names; on-chip ids count bytes (R233). -/
def refHalf (s : State) (k : Ctx) (r : Word) : Nat :=
  match layoutOf s k.pid (refTid r) with
  | some l => if refTid r = 0 then 2 else elemHalf l.elem
  | none => 2

/-- Number of elements of a tensor as the context sees it. -/
def extentOf (s : State) (k : Ctx) (tid : Nat) : Nat :=
  if onChip tid then chipSize k tid
  else match layoutOf s k.pid tid with
    | some l => if tid = 0 then l.ntile * 65536 else l.dims.foldl (· * ·) 1
    | none => 0

/-- Elements from index `i` on that stand side by side in one tile. -/
def runLen (s : State) (k : Ctx) (tid i : Nat) : Nat :=
  if onChip tid ∨ tid = 0 then 65536 - i % 65536
  else match layoutOf s k.pid tid with
    | some l =>
      let dl := l.dims.getLastD 1
      let tl := l.tiles.getLastD 1
      Nat.min (tl - i % dl % tl) (dl - i % dl)
    | none => 1

/-- The runs of `len` elements from index `i`: first index and length; `fuel` bounds their number. -/
def runsFrom (s : State) (k : Ctx) (tid : Nat) : Nat → Nat → Nat → List (Nat × Nat)
  | 0, _, _ => []
  | f + 1, i, len =>
    if len = 0 then []
    else
      let n := Nat.max 1 (Nat.min len (runLen s k tid i))
      (i, n) :: runsFrom s k tid f (i + n) (len - n)

/-- A reference to element `i` of a tensor. -/
def mkRef (tid i : Nat) : Word := BitVec.ofNat 64 (tid * 2 ^ 48 + i % 2 ^ 48)

/-- References whose checks stand for those of every element of a row: the first of each run, and the first element
beyond the extent. -/
def rowRefs (s : State) (k : Ctx) (tid i len : Nat) : List Word :=
  let ext := extentOf s k tid
  if i + len ≤ ext then (runsFrom s k tid len i len).map fun r => mkRef tid r.1
  else
    let inside := ext - i
    ((runsFrom s k tid inside i inside).map fun r => mkRef tid r.1) ++ [mkRef tid (Nat.max i ext)]

/-- The references of the tensor side of a copy. -/
def descRefs (s : State) (k : Ctx) (r d : Word) : List Word :=
  (List.range (dRows d)).flatMap fun p => rowRefs s k (refTid r) ((refIdx r + p * dStride d) % 2 ^ 48) (dLen d)

/-- Bytes a copy moves (R175). -/
def descBytes (s : State) (k : Ctx) (r d : Word) : Nat := dRows d * (dLen d * refHalf s k r / 2)

/-- A descriptor refused by R175; `mask` allows the MASK bits of CPMC. -/
def descBad (s : State) (k : Ctx) (r d : Word) (mask : Bool) : Bool :=
  dRows d == 0 || dLen d == 0 || (!mask && d.toNat / 16 % 16 != 0) || (refHalf s k r == 1 && dLen d % 2 != 0)

def readAcc : Acc := ⟨1, false, false⟩
def writeAcc : Acc := ⟨1, true, false⟩

/-- Every element of the source of a copy passes Table 5.6. -/
def copyRead (s : State) (r d : Word) : Found := checkAddr s s.focus (me s) readAcc (descRefs s (me s) r d)

/-- The same for the copies that refuse lane slices: CPIN, CPMC as CPIN, and CPSC, whose source is a scale tensor (Table 7.10, R177;
log entry 141). -/
def copySource (s : State) (r d : Word) : Found := failOpen s (refTid r == 0xFFF0) 0x04 <|> copyRead s r d

/-- State checks of a tile that a fill goes into: V, ready, and room (Table 7.10, R165). -/
def fillFault (s : State) (t : TReg) (n : Nat) : Found :=
  let l := tileOfMe s t
  failIf s (!l.v) 0x0B 0x20
  <|> failIf s (l.st == .ready) 0x0B 0x29
  <|> failIf s (l.st != .draining && decide (l.arrived + l.sched + n > l.bytes)) 0x0B 0x26
  <|> tileFault s t false

/-- Checks of CPIN (Table 7.10): the source, the descriptor (R175), then the tile, in an order of the model's (log entry 145). -/
def cpinFault (s : State) (t : TReg) (r d : Word) : Found :=
  copySource s r d
  <|> failIf s (descBad s (me s) r d false) 0x0B 0x27
  <|> fillFault s t (descBytes s (me s) r d)

/-- Checks of CPOUT (Table 7.10): the destination, the descriptor, then the tile (log entry 145). -/
def cpoutFault (s : State) (t : TReg) (r d : Word) : Found :=
  let l := tileOfMe s t
  failOpen s (onChip (refTid r)) 0x04
  <|> checkAddr s s.focus (me s) writeAcc (descRefs s (me s) r d)
  <|> failIf s (descBad s (me s) r d false) 0x0B 0x27
  <|> failIf s (!l.v) 0x0B 0x20
  <|> failIf s (decide (descBytes s (me s) r d ≠ l.bytes)) 0x0B 0x26
  <|> tileFault s t true

/-- Any destination of CPCL but 0xFFF2, 0xFFF3 and 0xFFF6 (Table 7.10). -/
def badClusterDst (dst : Word) : Bool := !(refTid dst == 0xFFF2 || refTid dst == 0xFFF3 || refTid dst == 0xFFF6)

/-- Checks of CPCL (Table 7.10): the source, the destination, then the descriptor (log entry 145). -/
def cpclFault (s : State) (dst r d : Word) : Found :=
  let n := descBytes s (me s) r d
  copyRead s r d
  <|> failOpen s (badClusterDst dst) 0x04
  <|> (if n = 0 then none else if refIdx dst + n > chipSize (me s) (refTid dst) then
        some (0x04, mkRef (refTid dst) (Nat.max (refIdx dst) (chipSize (me s) (refTid dst)))) else none)
  <|> failIf s (descBad s (me s) r d false) 0x0B 0x27

/-- Checks of CPMC (Table 7.10), in the order of CPIN's (log entry 145). -/
def cpmcFault (s : State) (t : TReg) (r d : Word) : Found :=
  copySource s r d
  <|> failIf s (descBad s (me s) r d true || dMask d == 0) 0x0B 0x27
  <|> failIf s (!(tileOfMe s t).v) 0x0B 0x20
  <|> failIf s (decide (descBytes s (me s) r d > (tileOfMe s t).bytes)) 0x0B 0x26

/-- Checks of CPSC (Table 7.10, R177): the source, the descriptor, then the range in the scale space (log entry 145). -/
def cpscFault (s : State) (dst r d : Word) : Found :=
  copySource s r d
  <|> failIf s (descBad s (me s) r d false) 0x0B 0x27
  <|> failOpen s (decide (dst.toNat % 65536 + descBytes s (me s) r d > 65536)) 0x04

/-- The task of the current context. -/
def myTask (s : State) : Option Task := match (me s).task with | some e => s.serai.tasks.find e | none => none

/-- The manifest of a task. -/
def manifestOf (s : State) (q : BitVec 32) : Option Manifest := s.serai.manifests.find q.toNat

/-- k, the outrider number j (from 1) and m of a task, if it is an outrider of a coded operator (R178, R260); in an outer outrider they
are those of the outer code (R271). -/
def outriderOf (m : Manifest) (t : Task) : Option (Nat × Nat × Nat) :=
  if !m.coded then none
  else if outerBase ≤ t.index then some (outerK m, (t.index - outerBase) / 0x100000 + 1, outerM m)
  else if t.car.isSome && decide (codeK m ≤ t.member) then some (codeK m, t.member - codeK m + 1, codeM m)
  else none

/-- The same for the current task. -/
def myOutrider (s : State) : Option (Nat × Nat × Nat) :=
  (myTask s).bind fun t => (manifestOf s t.seq).bind fun m => outriderOf m t

/-- Element format of the tensor a reference names. -/
def refElem (s : State) (r : Word) : Nat :=
  if onChip (refTid r) ∨ refTid r = 0 then 99 else match layoutOf s (me s).pid (refTid r) with
    | some l => l.elem
    | none => 99

def encSoff (w : Word) : Nat := w.toNat / 2 ^ 48
def encStride (w : Word) : Nat := w.toNat % 2 ^ 48

/-- The scale tensor's references for a row of a BX source (R240). -/
def scaleRefs (s : State) (r : Word) (i len : Nat) : List Word :=
  match layoutOf s (me s).pid (refTid r) with
  | some l => rowRefs s (me s) l.scale (i / 32) (len / 32)
  | none => [r]

/-- Every element of the k blocks and of their scale tensor. -/
def encRefs (s : State) (kk : Nat) (r d w : Word) : List Word :=
  (List.range kk).flatMap fun i =>
    (List.range (dRows d)).flatMap fun p =>
      let a := (refIdx r + i * encStride w + p * dStride d) % 2 ^ 48
      rowRefs s (me s) (refTid r) a (dLen d) ++ scaleRefs s r a (dLen d)

/-- Checks of CPENC, in the order of R178. -/
def cpencFault (s : State) (t : TReg) (r d w : Word) : Found :=
  let n := 64 * dLen d * 2
  failIf s (myOutrider s).isNone 0x0B 0x2A
  <|> failIf s (!(refElem s r == 5 || refElem s r == 4) || (tileOfMe s t).fmt != 2) 0x0B 0x21
  <|> failIf s (descBad s (me s) r d false || decide (dRows d > 64) || dLen d % 32 != 0 || encSoff w % 64 != 0) 0x0B 0x27
  <|> failOpen s (decide (encSoff w + 64 * (dLen d / 32) > 65536)) 0x04
  <|> fillFault s t n
  <|> checkAddr s s.focus (me s) readAcc (encRefs s ((myOutrider s).getD (0, 0, 0)).1 r d w)

/-- PUBL fails check 5 on a sealed tile (R203). -/
def publFault (s : State) (r : Word) : Found :=
  (if (me s).outFrames.any fun f => f.key / 2 ^ 48 == refTid r &&
      isSealed s s.focus (me s).pid (refTid r) (f.key % 2 ^ 48) then some (0x07, r) else none)
  <|> releaseFault s

/-! ### System -/

/-- A check of Table 5.6 that an SY slot makes: TRAPINFO is in the layout of Table 4.9 (R209). -/
def sysCheck (s : State) (r : Word) (n : Nat) : Found :=
  match checkAt s s.focus (me s) readAcc r n with | some q => failOpen s true q | none => none

/-- MONA: check 1, ids and homes it refuses, then a bad entry (R191). -/
def monaFault (s : State) (r : Word) : Found :=
  let tid := refTid r
  let remote := !onChip tid && (match locate s (me s) r with
    | some (tile, _) => (match lookTile s (me s) tid tile with
        | .resident b => decide (hbmTop ≤ b) && decide (b < shadowTop)
        | _ => false)
    | none => false)
  sysCheck s r 1
  <|> failIf s (tid == 0xFFF0 || tid == 0xFFF1 || tid == 0xFFF5 || remote) 0x04 0x52
  <|> sysCheck s r 7

/-- RQPG: check 1, on-chip ids, a process with no request pool (R194, R195). -/
def rqpgFault (s : State) (r : Word) : Found :=
  sysCheck s r 1
  <|> failIf s (onChip (refTid r)) 0x04 0x52
  <|> failIf s (getProc s (me s).pid).pool.isNone 0x04 0x52

/-- DCFL and DCINV of a line: check 1 and on-chip ids (R206). -/
def lineFault (s : State) (r : Word) : Found := sysCheck s r 1 <|> failIf s (onChip (refTid r)) 0x04 0x52

/-- TASKL: a 64-byte-aligned element of tensor 0; checks 1 and 7 (R196). -/
def tasklFault (s : State) (a : Word) : Found :=
  let r := mkRef 0 (refIdx a)
  failOpen s (refIdx a % 64 != 0) 0x05 <|> sysCheck s r 1 <|> sysCheck s r 7

/-- SEAL and UNSEAL count (R203); a full table for SEAL. -/
def sealFault (s : State) (b : Word) (full : Bool) : Found :=
  failIf s (b.toNat % 2 ^ 17 == 0 || decide (b.toNat % 2 ^ 17 > 65536)) 0x0B 0x51
  <|> failIf s (full && decide (s.serai.seals.length ≥ Config.sealTable)) 0x0B 0x53

/-- The state of a core's cluster. -/
def clusterState (s : State) (c : Nat) : Nat := (getCluster s (clusterOf c)).st

/-- Is the twin core's cluster power-gated or held in reset (R160, R361)? A management core has no twin; that its TWGET finds the twin
absent is the model's choice (log entry 146). -/
def twinAbsent (s : State) : Bool :=
  isMgmt s.focus || decide (clusterState s (twinOf s.focus) ≥ 3) || dieHeld s (dieOf (twinOf s.focus))

/-- The twin window's registers of the same context number on the twin core; a die under replay sees them as its log has brought them so
far (R158, R348). -/
def twinRegs (s : State) : Tab WReg :=
  let c := twinOf s.focus
  if (getDie s (dieOf s.focus)).rphase = 5 then (getDie s (dieOf s.focus)).view.get .empty (4 * c + curX s)
  else (getCtx s c (curX s)).w

/-- The twin's register of the same context number, as this core cycle sees it (R158, R159). -/
def twinReg (s : State) (w : TReg) : Word × Bool :=
  let r := (twinRegs s).get WReg.reset w.toNat
  if r.stamp < s.now then (r.val, r.valid) else (r.oldVal, r.oldValid)

/-- Committed entries still in the buffer. -/
def committedEntries (k : Ctx) : List StoreEntry := k.wbuf.filter fun e => e.committed

/-- Is a store entry to tile store or cluster memory? -/
def chipEntry (e : StoreEntry) : Bool :=
  let t := refTid e.ref
  t == 0xFFF1 || t == 0xFFF2 || t == 0xFFF5 || t == 0xFFF6

/-- A context can take the core: it holds a task, is running and is not blocked (R20, R21); `blocked` says whether its own
bundle would block. -/
def runnable (k : Ctx) : Bool := k.status == .running && k.pend.isNone && !k.committing

end Sys2Proof.Machine
end

