-- ==== Sys2Proof/Machine/Links.lean ====
section
/-! DEFINITION. Transfers between dies as numbered messages, a die's inbound log and its replay, and the routes of messages (R337 to R340,
R344, R348, R371). -/

namespace Sys2Proof.Machine

/-! ### Accesses beyond a die (R337) -/

/-- Requests to the base dies of some bytes and their answers; the last answer carries `m`. -/
def askHomes (s : State) (a : Nat) (m : MsgBody) : List Nat → State
  | [] => s
  | [b] => carry (carry s a b .plain) b a m
  | b :: r => askHomes (carry (carry s a b .plain) b a .plain) a m r

/-- Base dies of bytes beyond the on-chip levels, each once. -/
def homesOf (ps : List Nat) : List Nat := (ps.filterMap homeEnd).eraseDups

/-- The base dies that an access of core `c` at scope `scope` reaches past the caches that hold its bytes (R236, Table 10.5). -/
def farHomes (s : State) (c scope : Nat) (as : List Nat) : List Nat :=
  homesOf ((as.filterMap (resolve s)).filter fun p =>
    let hit := fun (t : Tab Line) => match t.find (p / 64) with | some l => l.valid.getLsbD (p % 64) | none => false
    !(decide (p < hbmTop) && !isMgmt c && decide (scope ≤ 3)
      && (hit (getDie s (dieOf c)).l2 || (decide (scope ≤ 1) && hit (getCore s c).l1))))

/-- The base dies that a write of core `c` at scope `scope` goes to at once: none where its die's L2 takes it. -/
def writeHomes (s : State) (c scope : Nat) (as : List Nat) : List Nat :=
  homesOf ((as.filterMap (resolve s)).filter fun p => !(decide (p < hbmTop) && !isMgmt c && decide (scope ≤ 3)))

/-- Can a core's requests and their answers pass between it and some base dies now? -/
def homesPass (s : State) (c : Nat) (bs : List Nat) : Bool :=
  bs.all fun b => mayPass s (coreEnd c) b && mayPass s b (coreEnd c)

/-! ### What a run has sent (R348) -/

/-- Kinds of sends, beside a store (0). -/
inductive SendKind where | dsig | evsig | taskl | seal | publ | twin | rqpg | norm
  deriving DecidableEq, Repr

def SendKind.code : SendKind → Nat
  | .dsig => 1 | .evsig => 2 | .taskl => 3 | .seal => 4 | .publ => 5 | .twin => 6 | .rqpg => 7 | .norm => 8

/-- Had context `x` of core `c` sent this before the reset that it is replayed after? -/
def sentBefore (s : State) (c x place kind : Nat) : Bool :=
  let k := getAny s c x
  k.ghost || k.redo.contains (place, kind)

/-- The run's record of what it sends. -/
def noteSent (s : State) (c x place kind : Nat) : State :=
  if keepsLog s (coreEnd c) then setAny s c x { getAny s c x with sent := (getAny s c x).sent ++ [(place, kind)] } else s

/-- A transfer of a context with its effect, unless it is a duplicate of one delivered before a reset. -/
def sendOnce (s : State) (c x place kind b : Nat) (m : MsgBody) (f : State → State) : State :=
  if sentBefore s c x place kind then (if b = coreEnd c then s else setLink s (coreEnd c) b (repeatLink (getLink s (coreEnd c) b)))
  else f (noteSent (carry s (coreEnd c) b m) c x place kind)

/-- The first entry of a list that `f` reads, and the others. -/
def takeItem {α : Type} (f : MsgBody → Option α) : List LogItem → Option (α × List LogItem)
  | [] => none
  | i :: r => match f i.body with
    | some v => some (v, r)
    | none => (takeItem f r).map fun q => (q.1, i :: q.2)

/-- A logged answer for core `c` that `f` reads is delivered, if its die's replay holds one (R348). -/
def takeReplay {α : Type} (s : State) (c : Nat) (f : MsgBody → Option α) : Option (α × State) :=
  let d := getDie s (dieOf c)
  (takeItem f (if isMgmt c then [] else d.replay)).map fun q => (q.1, setDie s (dieOf c) { d with replay := q.2 })

/-- The logged value for the register of a TASKL or MNAP. -/
def isAnswer (run place : Nat) (m : MsgBody) : Option Word :=
  match m with | .answer r p v => if r = run ∧ p = place then some v else none | _ => none

/-- A send of a context that reaches the Serai later, with its effect, unless it is a duplicate of one delivered before a reset. -/
def actOnce (s : State) (c x place : Nat) (kind : SendKind) (f : State → State) : State :=
  sendOnce s c x place kind.code (coreEnd c) .plain f

/-- A message without its contents, where they are of run `r`. -/
def forgetBody (r : Nat) (m : MsgBody) : MsgBody :=
  match m with
  | .reply n _ _ _ | .row n _ _ _ | .answer n _ _ | .page n _ | .fault n _ => if n = r then .plain else m
  | .place _ _ k _ => if k.run = r then .plain else m
  | _ => m

def forgetCkpt (r : Nat) (c : Ckpt) : Ckpt := { c with ctxs := c.ctxs.filter fun q => q.2.2.run != r }

/-- A run that ends in an image, or by an abort, is not replayed: the checkpoint and the log of its die keep nothing of it. -/
def forgetRun (s : State) (c r : Nat) : State :=
  if isMgmt c then s
  else
    let d := getDie s (dieOf c)
    setDie s (dieOf c) { d with
      ckpt := d.ckpt.map (forgetCkpt r), capture := d.capture.map (forgetCkpt r)
      log := d.log.map fun i => { i with body := forgetBody r i.body }
      replay := d.replay.map fun i => { i with body := forgetBody r i.body } }

/-! ### What a checkpoint keeps (Table 19.2) -/

/-- The twin window as the contexts of a die see it. -/
def windowOf (s : State) (d : Nat) : Tab (Tab WReg) :=
  ⟨(s.cores.cells.filter fun e => dieOf e.1 == (d ^^^ 1) && !isMgmt e.1).flatMap fun e => e.2.ctxs.cells.map fun x => (4 * e.1 + x.1, x.2.w)⟩

/-- Next PSEQ of each pair that a die sends on. -/
def diePseq (s : State) (d : Nat) : List (Nat × BitVec 32) :=
  (s.links.cells.filter fun e => e.1 / 65536 == d).map fun e => (e.1, e.2.next)

/-- A capture in progress is given up; what it was to copy is still to be copied (R343). -/
def dropCapture (k : Die) : Die :=
  match k.capture with
  | none => k
  | some c => { k with
      capture := none, dphase := 0, dirtyBlocks := k.dirtyBlocks ++ c.blocks.filter fun b => !k.dirtyBlocks.contains b }

/-- The checkpoint of a die that has just been cleared for another process (R235): no context and no byte of the old one, and nothing logged
(log entry 151). -/
def freshCkpt (s : State) (d : Nat) (k : Die) : Die :=
  { k with
    ckpt := k.ckpt.map fun c => { c with at_ := s.now, ctxs := [], win := windowOf s d, pseq := diePseq s d, map := [], blocks := [], logged := 0 }
    log := if k.ckpt.isSome then [] else k.log
    replay := [] }

/-! ### Routes inside the package (R335, R340; log entry 111) -/

/-- The compute stack at which an endpoint of this package stands; none for the Serai. -/
def stackOfEnd (e : Nat) : Option Nat := if e < 16 then some (e / 2) else if e = 16 then none else some ((e - 17) / 2 % 8)

/-- The stacks on the way from `k` to `t` round the ring of eight, the shorter way, the positive one on a tie. -/
def stackArc (k t : Nat) : List Nat :=
  let n := (t + 8 - k) % 8
  if n ≤ 4 then (List.range (n + 1)).map fun i => (k + i) % 8 else (List.range (9 - n)).map fun i => (k + 8 - i) % 8

/-- The dies that forward a message from `a` to `b` over the neighbour bridges: lower dies, but for its own ends. Between the Serai and a
die, between the dies of a stack, and between a die and the memory stacks of its own stack there are none. -/
def bridgeDies (a b : Nat) : List Nat :=
  match stackOfEnd a, stackOfEnd b with
  | some k, some t => if k = t then [] else ((stackArc k t).map (2 * ·)).filter fun d => d != a && d != b
  | _, _ => []

/-- The transit dies of a message: none where it goes round one of them through the Serai's lateral links (R340). -/
def localDies (s : State) (a b : Nat) : List Nat :=
  let ds := bridgeDies a b
  if ds.any fun d => (getDie s d).around then [] else ds

/-! ### Routes between packages (R371; directions 0 to 7 as R335 numbers them) -/

/-- Ring size and own coordinate on an axis, 0 to 3 for X, Y, Z, W. -/
def axisSize (s : State) (a : Nat) : Nat := s.pkg.podpos.toNat / 2 ^ (16 + 4 * a) % 16 + 1
def ownCoord (s : State) (a : Nat) : Nat := s.pkg.podpos.toNat / 2 ^ (4 * a) % 16

/-- Packages before axis `a` in the numbering of the pod. -/
def podStride (s : State) (a : Nat) : Nat := ((List.range a).map (axisSize s)).foldl (· * ·) 1

/-- The coordinates of package `q`: its number counts the pod with X fastest (log entry 112). -/
def coordOf (s : State) (q a : Nat) : Nat := q / podStride s a % axisSize s a

/-- The direction back. -/
def opposite (d : Nat) : Nat := if d % 2 = 0 then d + 1 else d - 1

/-- The hops along axis `a` from one coordinate to another: the shorter way round the ring, the positive one on a tie. -/
def ringHops (s : State) (a src dst : Nat) : List Nat :=
  let n := axisSize s a
  let k := (dst + n - src % n) % n
  if 2 * k ≤ n then List.replicate k (2 * a) else List.replicate (n - k) (2 * a + 1)

/-- The hops from package to package, in dimension order. -/
def torusHops (s : State) (src dst : Nat → Nat) : List Nat := (List.range 4).flatMap fun a => ringHops s a (src a) (dst a)

/-- Is a torus direction of this package lost: is its die routed around? -/
def dirLost (s : State) (d : Nat) : Bool := (getDie s (2 * d)).around

/-- The hop that a detour of direction `d` begins with: on the axes after it, the positive way first (R371). -/
def sideHop (s : State) (d : Nat) : Option Nat :=
  ([1, 2, 3].flatMap fun i => [2 * ((d / 2 + i) % 4), 2 * ((d / 2 + i) % 4) + 1]).find? fun e => !dirLost s e

/-- The hops of a message of this package to package `q`, its first one detoured where its direction is lost. -/
def hopsTo (s : State) (q : Nat) : List Nat :=
  match torusHops s (ownCoord s) (coordOf s q) with
  | [] => []
  | d :: r =>
    if dirLost s d then (match sideHop s d with | some e => [e, d, opposite e] ++ r | none => d :: r) else d :: r

/-- The direction by which a message of package `q` comes in: back along its last hop. -/
def entryDir (s : State) (q : Nat) : Option Nat := (torusHops s (coordOf s q) (ownCoord s)).getLast?.map opposite

/-- The package of an endpoint, by its number in the pod; none for this one. -/
def pkgOfEnd (e : Nat) : Option Nat := if e < 256 then none else some (e / 256 - 1)

/-- The torus direction that a message of a pair takes out of or into this package, in torus mode. -/
def torusDir (s : State) (a b : Nat) : Option Nat :=
  if !s.pkg.fabMode.getLsbD 8 then none
  else match pkgOfEnd a, pkgOfEnd b with
  | none, some q => (hopsTo s q).head?
  | some q, none => entryDir s q
  | _, _ => none

/-- Every die of this package that forwards the messages of a pair: inside the package, and the lower die whose ports serve their torus
direction. -/
def transitDies (s : State) (a b : Nat) : List Nat :=
  match torusDir s a b with
  | none => localDies s a b
  | some d => let e := if (pkgOfEnd a).isSome then b else a; (2 * d) :: localDies s e (2 * d)

/-- The ports that a direction runs on, and the one that a message takes, by its number (log entry 112). -/
def portCount (mode : Word) (d : Nat) : Nat := if mode.getLsbD d then 11 else 12
def portOf (mode : Word) (d : Nat) (sq : BitVec 32) : Nat := sq.toNat % portCount mode d

/-- Does a change of the fabric mode change a port: TORUS changes all of them, an ETH bit port 11 of its direction? -/
def portChanged (old new : Word) (d p : Nat) : Bool :=
  old.getLsbD 8 != new.getLsbD 8 || (p == 11 && old.getLsbD d != new.getLsbD d)

/-- Messages on their way that satisfy a test of source, destination and number are lost; R338 recovers them from their sources. -/
def loseMessages (s : State) (f : Nat → Nat → BitVec 32 → Bool) : State :=
  { s with timers := s.timers.filter fun t => match t.2 with | .messageArrival a b sq _ => !f a b sq | _ => true }

end Sys2Proof.Machine
end

