-- ==== Sys2Proof/Machine/Perform.lean ====
section
/-! DEFINITION. Performing accesses: stores leaving the withheld store buffer, long loads and atomics (R17, R23, R112 to R122,
R149, R249 to R254). -/

namespace Sys2Proof.Machine

/-! ### Performing stores (R23, R117, R122) -/

/-- Outstanding accesses of a context that hold back its oldest committed store: a release waits for every earlier load and
atomic; a plain store for the earlier loads and atomics of its class (R251); a fence for the earlier accesses of its classes; every access for a
publication of its tensor that is queued before it (R179). -/
def storeReady (k : Ctx) (e : StoreEntry) : Bool :=
  let swap := k.pubq.any fun p => p.tid.toNat == refTid e.ref && decide (p.seq < e.seq)
  if swap then false
  else if e.release then !k.loads.any fun l => decide (l.id < e.seq)
  else
    !(k.loads.any fun l => l.cls == e.cls && decide (l.id < e.seq))
    && k.fences.all fun f =>
        !(f.1.getLsbD e.cls.toNat && decide (f.2.2 < e.seq) &&
          k.loads.any fun l => f.1.getLsbD l.cls.toNat && decide (l.id < f.2.2))

/-- The scope at which a store is performed: its own, or that of a later fence over its class where that is wider (R122). -/
def storeScope (k : Ctx) (e : StoreEntry) : Nat :=
  (k.fences.filter fun f => f.1.getLsbD e.cls.toNat && decide (e.seq < f.2.2)).foldl (fun m f => Nat.max m f.2.1) e.scope

/-- The oldest committed entry of a buffer. -/
def oldestEntry (k : Ctx) : Option StoreEntry := k.wbuf.find? fun e => e.committed

/-- The dirty bytes that a replayed write leaves in the L2 of its die are those that were still to be written back at the reset (R348). -/
def keepUnsent (s : State) (d : Nat) : List Nat → State
  | [] => s
  | p :: r =>
    let had := match (getDie s d).unsent.find (p / 64) with | some l => l.dirty.getLsbD (p % 64) | none => false
    keepUnsent (match (getDie s d).l2.find (p / 64) with
      | some l => if had then s
        else setDie s d { getDie s d with l2 := (getDie s d).l2.set (p / 64) { l with dirty := l.dirty &&& ~~~ ((1 : BitVec 64) <<< (p % 64)) } }
      | none => s) d r

/-- The bytes of a write that had been performed before a reset: its messages are duplicates, and only the die's own caches take it
again (R338, R348). -/
def repeatWrite (s : State) (c scope : Nat) (cs : List (Nat × Byte)) : State :=
  let as := cs.map (·.1)
  let hs := writeHomes s c scope as
  let s1 := hs.foldl (fun t b => setLink t (coreEnd c) b (repeatLink (getLink t (coreEnd c) b))) s
  if hs.isEmpty then keepUnsent (writeCellsAt s1 c scope cs) (dieOf c) (as.filterMap (resolve s1))
  else cs.foldl (fun t w => match resolve t w.1 with | some p => updateL1 t c p w.2 | none => t) s1

/-- Does a write reach beyond the on-chip levels of its die? -/
def leavesDie (as : List Nat) : Bool := as.any fun a => !onLevel a

/-- A plain write of a context that it numbers `place`: it is carried to the base dies of its bytes, and written there, or in its die's
own memories (R337, R249). -/
def writeOut (s : State) (c x place scope : Nat) (cs : List (Nat × Byte)) : State :=
  let as := cs.map (·.1)
  if !leavesDie as then writeCellsAt s c scope cs
  else if sentBefore s c x place 0 then repeatWrite s c scope cs
  else
    let s1 := noteSent (carryTo s (coreEnd c) .plain (writeHomes s c scope as)) c x place 0
    writeCellsAt s1 c scope cs

/-- One entry is performed and leaves the buffer. A release of stack scope or wider first writes back the dirty lines of its
die (R117, R250). The lanes of a vector store are performed in one step, the lowest first (log entry 142). -/
def performEntry (s : State) (c x : Nat) (e : StoreEntry) : State :=
  let k := getAny s c x
  let s1 := setAny s c x { k with wbuf := k.wbuf.filter fun q => q.seq != e.seq }
  let s2 := if e.release ∧ 4 ≤ e.scope ∧ !isMgmt c then writeBackAll s1 (dieOf c) else s1
  writeOut s2 c x e.seq (storeScope k e) e.cells

/-- Can the messages of a store pass now (R337, R339)? -/
def storePasses (s : State) (c : Nat) (k : Ctx) (e : StoreEntry) : Bool :=
  (writeHomes s c (storeScope k e) (e.cells.map (·.1))).all fun b => mayPass s (coreEnd c) b

/-- The oldest committed store is performed, if nothing holds it back; those of other classes wait behind it (log entry 137). -/
def performOldest (s : State) (c x : Nat) : State :=
  let k := getAny s c x
  match oldestEntry k with
  | some e => if storeReady k e && storePasses s c k e then performEntry s c x e else s
  | none => s

/-- Entries are performed until no committed one of the class stands before place `upto`: a load of the class performs after
them (R251). -/
def drainClass (s : State) (c x : Nat) (cls : BitVec 4) (upto : Nat) : Nat → State
  | 0 => s
  | n + 1 =>
    if (getAny s c x).wbuf.any fun e => e.committed && e.cls == cls && decide (e.seq < upto)
    then drainClass (performOldest s c x) c x cls upto n
    else s

/-- Every committed store of a context is performed, if nothing holds it back. -/
def drainAll (s : State) (c x : Nat) : Nat → State
  | 0 => s
  | n + 1 => if (getAny s c x).wbuf.any (·.committed) then drainAll (performOldest s c x) c x n else s

/-! ### Atomics (R119, R120, R154) -/

/-- The value an atomic writes over `old`, `n` bits wide; none where it writes nothing. -/
def atomicNew (op : AtomicOp) (n : Nat) (old x y : Nat) : Option Nat :=
  let o := BitVec.ofNat n old
  let a := BitVec.ofNat n x
  match op with
  | .add => some (o + a).toNat
  | .and => some (o &&& a).toNat
  | .or => some (o ||| a).toNat
  | .xor => some (o ^^^ a).toNat
  | .min => some (if a.slt o then a else o).toNat
  | .max => some (if o.slt a then a else o).toNat
  | .swp => some a.toNat
  | .cas => if o = a then some (y % 2 ^ n) else none

/-- The issuing core's L1 copy of a line is dropped (R118). -/
def dropL1 (s : State) (c a : Nat) : State :=
  match resolve s a with
  | some p => setCore s c { getCore s c with l1 := (getCore s c).l1.erase (p / 64) }
  | none => s

/-- The byte cells of a value at storage addresses, low byte first. -/
def cellsAt : List Nat → Nat → List (Nat × Byte)
  | [], _ => []
  | a :: r, v => (a, BitVec.ofNat 8 v) :: cellsAt r (v / 256)

/-- The dirty copies of some bytes in the L2 of a core's die reach the depot (R253). -/
def joinDepots (s : State) (c : Nat) : List Nat → State
  | [] => s
  | a :: r => joinDepots (match resolve s a with | some p => if p < hbmTop then joinDepot s (dieOf c) p else s | none => s) c r

/-- One lane of an atomic: the old value, and the state after it (Table 5.8). -/
def atomicLane (s : State) (c : Nat) (l : LongLoad) (op : AtomicOp) (p : LoadPart) : State × Nat :=
  match p.addrs with
  | [] => (s, 0)
  | a :: _ =>
    let beyond := decide (2 ≤ l.scope) && (decide (a < hbmTop) || decide (shadowTop ≤ a)) && !isMgmt c
    let s1 := if beyond then dropL1 (if 4 ≤ l.scope then joinDepots s c p.addrs else s) c a else s
    let old := readBytes s1 c l.scope p.addrs
    let x := if l.width = 8 then (l.opnd.setWidth 64).toNat else (lane l.opnd p.lane).toNat
    match atomicNew op (8 * l.width) old x l.opnd2.toNat with
    | some v => (writeCellsAt s1 c l.scope (cellsAt p.addrs v), old)
    | none => (s1, old)

/-- Every lane of an atomic, in one step and lowest first (log entry 142): the state and the old values by lane. -/
def atomicLanes (s : State) (c : Nat) (l : LongLoad) (op : AtomicOp) : List LoadPart → State × List (Nat × Nat)
  | [] => (s, [])
  | p :: r =>
    let t := atomicLane s c l op p
    let u := atomicLanes t.1 c l op r
    (u.1, (p.lane, t.2) :: u.2)

/-! ### Loads -/

/-- The lines of a load are brought into the caches its scope reads. -/
def fillParts (s : State) (c scope : Nat) : List LoadPart → State
  | [] => s
  | p :: r => fillParts (match p.addrs with | a :: _ => fillFor s c scope a | [] => s) c scope r

/-- The values of a load, lane by lane. -/
def loadLanes (s : State) (c : Nat) (l : LongLoad) : List LoadPart → List (Nat × Nat)
  | [] => []
  | p :: r => (p.lane, partValue s c l.scope p.addrs p.fwd) :: loadLanes s c l r

/-- A vector of loaded lanes, each extended to 32 bits. -/
def lanesVec (w : Nat) (sext : Bool) (vs : List (Nat × Nat)) : Vec :=
  ofLanes fun i => match findCell i vs with
    | some v => (extend w sext v).setWidth 32
    | none => 0

/-- The result of a load or atomic from its lanes' values. -/
def loadResult (l : LongLoad) (vs : List (Nat × Nat)) : Vec :=
  if l.vec then lanesVec l.width l.sext vs
  else match vs with
    | v :: _ => (extend l.width l.sext v.2).setWidth 1024
    | [] => 0

/-- p15 with the bits of non-resident lanes set (R149). -/
def orP15 (r : Regs) (nr : Pred) : Regs := if nr = 0 then r else { r with p := r.p.set 15 (r.p.get 0 15 ||| nr) }

/-- A returned result lands (R16, R17, R24 step 6): in the register, and in its waypoint image where it belongs to a committed
waypoint; what issued before it and lands later leaves its lanes alone, those of p15 among them. -/
def landLoad (k : Ctx) (l : LongLoad) (v : Vec) : Ctx :=
  let put := fun (r : Regs) => orP15 (landRegs r l.dest v l.mask) l.nr
  { k with
    live := put k.live
    wp := if l.committed then put k.wp else k.wp
    flight := dropOlder (.p 15) l.nr (dropOlder l.dest l.mask k.flight)
    loads := k.loads.filter fun q => q.id != l.id }

/-- May a long load or atomic perform now? Accesses of one class perform in program order (R118, R251), but for loads that PREDRAIN has
cancelled; a fence holds it behind the earlier accesses of its classes (R122); a queued publication of its tensor comes
first (R179). An LDA holds back later bundles alone (log entry 138). -/
def loadReady (k : Ctx) (l : LongLoad) : Bool :=
  !(k.pubq.any fun p => p.tid.toNat == refTid l.ref && decide (p.seq < l.id))
  && !(k.wbuf.any fun e => e.committed && e.cls == l.cls && decide (e.seq < l.id))
  && !(k.loads.any fun q => !q.cancelled && q.cls == l.cls && decide (q.id < l.id))
  && k.fences.all fun f =>
      !(f.1.getLsbD l.cls.toNat && decide (f.2.2 < l.id) &&
        ((k.loads.any fun q => f.1.getLsbD q.cls.toNat && decide (q.id < f.2.2))
          || k.wbuf.any fun e => e.committed && f.1.getLsbD e.cls.toNat && decide (e.seq < f.2.2)))

/-- The scope that a later fence over its class asks of an outstanding atomic (R122). -/
def atomicScope (k : Ctx) (l : LongLoad) : Nat :=
  (k.fences.filter fun f => f.1.getLsbD l.cls.toNat && decide (l.id < f.2.2)).foldl (fun m f => Nat.max m f.2.1) l.scope

/-- What an atomic wrote in the L2 goes on to the depot where a fence asks for a wider scope. -/
def pushAtomic (s : State) (c x : Nat) (l : LongLoad) : State :=
  if 4 ≤ atomicScope (getCtx s c x) l ∧ l.scope < 4 ∧ !isMgmt c then joinDepots s c (l.parts.flatMap (·.addrs)) else s

/-- The bytes of a load's or atomic's lanes. -/
def loadBytes (l : LongLoad) : List Nat := l.parts.flatMap (·.addrs)

/-- A result lands in its context. -/
def landAt (s : State) (c x : Nat) (l : LongLoad) (v : Vec) : State := setCtx s c x (landLoad (getCtx s c x) l v)

/-- The value that a replayed atomic wrote in its die's L2 stands there again (R348). -/
def repeatLanes (s : State) (c : Nat) (l : LongLoad) (op : AtomicOp) (v : Vec) : List LoadPart → State
  | [] => s
  | p :: r =>
    let old := if l.width = 8 then (v.setWidth 64).toNat else (lane v p.lane).toNat
    let x := if l.width = 8 then (l.opnd.setWidth 64).toNat else (lane l.opnd p.lane).toNat
    repeatLanes (match atomicNew op (8 * l.width) old x l.opnd2.toNat with
      | some n => repeatWrite s c l.scope (cellsAt p.addrs n)
      | none => s) c l op v r

/-- The logged answer to a load or atomic, with its lines. -/
def isReply (run id : Nat) (m : MsgBody) : Option (Vec × List (Nat × BitVec 512)) :=
  match m with | .reply r i v ls => if r = run ∧ i = id then some (v, ls) else none | _ => none

/-- A load or atomic whose answer the replay holds: that answer lands, its lines join the caches as they did, and nothing is performed
again (R348). -/
def replayLoad (s : State) (c x : Nat) (l : LongLoad) (q : Vec × List (Nat × BitVec 512)) : State :=
  landAt (match l.atomic with
    | some op => repeatLanes s c l op q.1 l.parts
    | none => fillParts (q.2.foldl (fun t e => layLine t (dieOf c) e) s) c l.scope l.parts) c x l q.1

/-- Lines of some bytes that a load of scope `scope` brings into its die's L2: those not whole there. -/
def missingLines (s : State) (c scope : Nat) (as : List Nat) : List Nat :=
  if isMgmt c ∨ 4 ≤ scope then []
  else ((((as.filterMap (resolve s)).filter fun p => decide (p < hbmTop)).map (· / 64)).eraseDups).filter fun ln =>
    match (getDie s (dieOf c)).l2.find ln with | some l => l.valid != BitVec.allOnes 64 | none => true

/-- The base dies that a load asks: for its bytes, and for the lines that it brings. -/
def loadHomes (s : State) (c scope : Nat) (as : List Nat) : List Nat :=
  (farHomes s c scope as ++ homesOf ((missingLines s c scope as).map (64 * ·))).eraseDups

/-- A pending long load or atomic performs, and its result lands. What goes beyond its die's caches is asked of the base dies and
answered (R337); the die logs an atomic's answer wherever it performs, so that a replay performs none twice (R344, R348). -/
def performLoad (s : State) (c x : Nat) (l : LongLoad) : State :=
  let e := coreEnd c
  let run := (getCtx s c x).run
  let hs := farHomes s c l.scope (loadBytes l)
  let ls := (missingLines s c l.scope (loadBytes l)).map fun ln => (ln, lineData s ln)
  match takeReplay s c (isReply run l.id) with
  | some q => replayLoad q.2 c x l q.1
  | none => match l.atomic with
    | some op =>
      let u := atomicLanes s c l op l.parts
      let v := loadResult l u.2
      let t := pushAtomic u.1 c x l
      landAt (if !leavesDie (loadBytes l) then t
        else if hs.isEmpty then logInbound t e e 0 (.reply run l.id v []) else askHomes t e (.reply run l.id v []) hs) c x l v
    | none =>
      let v := loadResult l (loadLanes s c l l.parts)
      landAt (askHomes (fillParts s c l.scope l.parts) e (.reply run l.id v ls) (loadHomes s c l.scope (loadBytes l))) c x l v

/-- May a pending long load or atomic perform now, its messages included? -/
def mayPerform (s : State) (c x : Nat) (l : LongLoad) : Bool :=
  loadReady (getCtx s c x) l && homesPass s c (farHomes s c l.scope (loadBytes l))

/-- The late address fault of an access whose pair is broken (R339). -/
def brokenFault (slot : Nat) (pc : BitVec 48) : TrapReq := ⟨0x04, slot, true, BitVec.ofNat 64 (0x62 * 2 ^ 32), pc⟩

/-- Is a pair broken by which one of some base dies answers core `c` (R339)? -/
def brokenHome (s : State) (c : Nat) (bs : List Nat) : Bool := bs.any fun b => (getLink s b (coreEnd c)).broken

/-- A load that awaits data over a broken pair ends, and faults late (R339). -/
def breakLoad (k : Ctx) (l : LongLoad) : Ctx :=
  { k with late := k.late ++ [brokenFault l.slot l.pc], loads := k.loads.filter fun q => q.id != l.id }

/-- The return of long load `n` (R17): the stores it performs after are performed first; a cancelled load's data are
discarded (R31); one over a broken pair faults late (R339); a load that must still wait comes back in a later master cycle. -/
def returnLoad (s : State) (c x n : Nat) : State :=
  match (getCtx s c x).loads.find? fun l => l.id == n with
  | none => s
  | some l =>
    if l.cancelled ∨ !l.handed then s
    else
      let s1 := drainClass s c x l.cls l.id Config.storeEntries
      if brokenHome s1 c (farHomes s1 c l.scope (loadBytes l)) then setCtx s1 c x (breakLoad (getCtx s1 c x) l)
      else if mayPerform s1 c x l then performLoad s1 c x l
      else after s1 1 (.longLoadReturn c x n)

/-- The pending long loads of a class perform, in program order, where nothing holds them back: an on-chip load of the class, which
performs as it issues, comes after them (R251). -/
def loadsFirst (s : State) (c x : Nat) (cls : BitVec 4) : List LongLoad → State
  | [] => s
  | l :: r =>
    loadsFirst (if l.cls = cls ∧ l.atomic.isNone ∧ !l.cancelled ∧ l.handed then
        (let s1 := drainClass s c x cls l.id Config.storeEntries
         if mayPerform s1 c x l then performLoad s1 c x l else s1)
      else s) c x cls r

/-- What stands before an on-chip load of class `cls` that issues now: the class's committed stores and long loads (R251). -/
def beforeChip (s : State) (cls : BitVec 4) : State :=
  let s1 := loadsFirst s s.focus (curX s) cls (me s).loads
  drainClass s1 s.focus (curX s) cls (me s).nload Config.storeEntries

end Sys2Proof.Machine
end

