-- ==== Sys2Proof/Machine/Regs.lean ====
section
/-! DEFINITION. The control registers: the map, who may read and write them, their values, and writes to the registers a
context holds (R40 to R44, R189, R190, R349, Tables 2.3, 18.3, 19.3, 20.1, 21.1). -/

namespace Sys2Proof.Machine

/-- A bit field of a word. -/
def wf (w : Word) (hi lo : Nat) : Nat := w.toNat / 2 ^ lo % 2 ^ (hi + 1 - lo)

/-! ### Field values of the power and package registers -/

/-- EPROF n of a die (Table 20.2). -/
def eprofOf (s : State) (d n : Nat) : Word := (getDie s d).eprof.get eprofReset n

/-- The energy profile of a core: CLGRANT of its cluster picks one of the die's four (R350). A write acts from the next master cycle on
(R351). A management core uses the reset profile (log entry 9). -/
def profileOf (s : State) (c : Nat) : Word :=
  if isMgmt c then eprofReset
  else
    let q := getCluster s (clusterOf c)
    let d := getDie s (dieOf c)
    let n := (if q.grantAt = s.now then q.grantOld else q.grant).toNat / 4 ^ (c % 8) % 4
    (if d.eprofAt = s.now then d.eprofOld else d.eprof).get eprofReset n

def ceilOf (p : Word) : Nat := wf p 27 12
def refillOf (p : Word) : Nat := wf p 11 0
/-- The weight of an energy class (R29). -/
def weightOf (p : Word) (cls : Nat) : Nat := p.toNat / 2 ^ (32 + 8 * cls) % 256

/-- BOOSTCAP of a die (R359). -/
def boostcap (s : State) (d : Nat) : Nat := Nat.max 1100 (1500 - 25 * ((getDie s d).wear / 2 ^ 40))

/-- A scale queue's status word (Table 2.7). -/
def sqstat (q : ScaleQ) : Word :=
  BitVec.ofNat 64 (b2n (!q.pend.isEmpty) * 8192 + q.cnt % 32 * 256 + q.wr % 16 * 16 + q.rd % 16)

def tileStCode : TileState → Nat | .empty => 0 | .filling => 1 | .ready => 2 | .draining => 3

/-- TCFGn (Table 2.7); without V every field reads 0 (log entry 117). -/
def tcfgWord (t : Tile) : Word :=
  if t.v then BitVec.ofNat 64 (2 ^ 63 + tileStCode t.st * 2 ^ 61 + t.fmt.toNat * 2 ^ 58 + b2n t.view * 2 ^ 57
    + t.bytes * 2 ^ 32 + t.base / 16 * 16)
  else 0

def licStCode : LicState → Nat
  | .free => 0 | .lower => 1 | .upper => 2 | .alt => 3 | .parked => 4 | .passing => 5

/-- LIC as context `x` of core `c` reads it (Table 12.3). A management core has no pair and reads 0. -/
def licWord (s : State) (c x : Nat) : Word :=
  if isMgmt c then 0
  else
    let p := getPair s (pairOf c)
    let hctx := match p.st with
      | .lower | .upper => (match p.holder with | some h => h.2 | none => 0)
      | .passing => (match p.grantee with | some g => g.x | none => 0)
      | .parked => (match p.parkedFor with
        | some h => if h.2 < 4 then h.2 else (match s.serai.images.find (h.2 - 4) with | some i => i.x | none => 0)
        | none => 0)
      | .alt => (altHolder p c).getD 0
      | .free => 0
    let gap := if p.st = .passing then p.gapEnd - s.now else 0
    BitVec.ofNat 64 (gap % 128 * 256 + hctx % 4 * 16 + b2n (licMine s c x) * 8 + licStCode p.st)

/-- ORIENT (Table 2.5, Table 19.1): the rotation is the quadrant, the upper die faces down. -/
def orientWord (c : Nat) : Word :=
  if isMgmt c then 0
  else
    let rot := stackOf c / 2 % 4
    let face := c / 128 % 2
    BitVec.ofNat 64 ((face * 4 + rot) * 8 + face * 4 + rot)

/-- RBCTL (Table 20.4). A bank out of service reads OFF (R354). -/
def rbState (k : Core) (b : Nat) : Nat := if k.inService.getLsbD b then k.rbst.toNat / 4 ^ b % 4 else 2
def rbctlWord (k : Core) : Word :=
  BitVec.ofNat 64 (b2n k.rbdeny * 65536
    + (rbState k 0 + rbState k 1 * 4 + rbState k 2 * 16 + rbState k 3 * 64) * 256 + k.rbreq.toNat)

/-- Banks of a core as REPMAP shows them (R347). -/
def repBits (k : Core) : Nat :=
  let n := (List.range 4).countP fun b => k.inService.getLsbD b
  if n < 2 then 0 else k.inService.toNat

/-- REPMAPn of a die. -/
def repmapWord (s : State) (d n : Nat) : Word :=
  BitVec.ofNat 64 ((List.range 16).foldl (fun acc i => acc + repBits (getCore s (d * 128 + n * 16 + i)) * 16 ^ i) 0)

/-- DRVSTAT of a die (Table 19.3). -/
def drvstatWord (s : State) (d : Nat) : Word :=
  let k := getDie s d
  BitVec.ofNat 64 (k.epoch.toNat * 2 ^ 32 + k.dphase * 2 ^ 30 + k.log.length % 2 ^ 30)

/-- THVAL of a sensor (Table 20.5). -/
def thvalWord (t : Sensor) : Word :=
  BitVec.ofNat 64 (b2n t.valid * 2 ^ 63 + b2n t.suspect * 2 ^ 62 + t.fault * 2 ^ 60 + t.level * 2 ^ 58 + t.persist * 2 ^ 48
    + (BitVec.ofInt 16 t.raw).toNat * 65536 + (BitVec.ofInt 16 t.temp).toNat)

/-- CLPSTAT of a cluster (Table 20.8). -/
def clpstatWord (k : Cluster) : Word :=
  BitVec.ofNat 64 (b2n k.busy * 2 ^ 63 + b2n k.err * 2 ^ 62 + Nat.min k.saved 255 * 256 + k.st)

/-- HEALTH (Table 21.2). -/
def healthWord (p : PkgRegs) : Word :=
  BitVec.ofNat 64 (b2n (p.reasons != 0) * 2 ^ 63 + p.reasons.toNat * 65536 + p.stkexcl.toNat * 256)

/-- LFCNT of a stack (Table 21.2), each count saturating at its field. -/
def lfcntWord (k : Stack) : Word :=
  BitVec.ofNat 64 (Nat.min k.wincnt 65535 * 2 ^ 48 + Nat.min k.total (2 ^ 24 - 1) * 2 ^ 24 + Nat.min k.resesc 4095 * 4096)

/-- The die, cluster and core that PWRSEL names (Table 20.1): logical core 8 * CLU + K of the die. -/
def selDie (w : Word) : Nat := wf w 3 0
def selCluster (w : Word) : Nat := selDie w * 16 + wf w 7 4
def selCore (w : Word) : Nat := selDie w * 128 + wf w 7 4 * 8 + wf w 10 8

/-! ### Core cycles (R8, R352) -/

/-- Set bits of a 16-bit pattern below bit `n`. -/
def bitsBelow (p : Nat) (n : Nat) : Nat := (List.range n).countP fun i => p.testBit i

/-- Core cycles that begin before master cycle `m` under a fixed pattern. -/
def pulsesBefore (p m : Nat) : Nat := m / 16 * bitsBelow p 16 + bitsBelow p (m % 16)

/-- Core cycles of a core begun before this master cycle (CYCLES); a management core has one in each master cycle. -/
def cyclesOf (s : State) (c : Nat) : Nat :=
  if isMgmt c then s.now
  else
    let k := getCluster s (clusterOf c)
    k.cyc + (pulsesBefore k.epat.toNat s.now - pulsesBefore k.epat.toNat k.cycAt)

/-- Does a core cycle of the core begin in this master cycle (R352)? -/
def pulse (s : State) (c : Nat) : Bool :=
  isMgmt c || (getCluster s (clusterOf c)).epat.getLsbD (s.now % 16)

/-! ### Reading (R189) -/

/-- Flags of instructions still inside their windows (R189): CRD of CSTAT may include them. -/
def flightFlags (now : Nat) : List Flight → BitVec 16
  | [] => 0
  | f :: r => (if f.issued < now then f.flags else 0) ||| flightFlags now r

/-- The value of a control register as context `x` of core `c` reads it. -/
def crdValue (s : State) (c x : Nat) (ix : Nat) : Word :=
  let k := getCtx s c x
  let core := getCore s c
  let r := k.live
  if ix = 0x000 then ctxid c x
  else if ix = 0x001 then orientWord c
  else if ix = 0x002 then r.cstat ||| ((flightFlags s.now k.flight &&& Config.freeFlags s.fresh).setWidth 64)
  else if ix = 0x003 then r.ocs0
  else if ix = 0x004 then r.ocs1
  else if ix = 0x005 then r.bankkey
  else if ix = 0x006 then BitVec.ofNat 64 (cyclesOf s c)
  else if ix = 0x007 then BitVec.ofNat 64 (openEntries k * 256 + heldEntries k)
  else if 0x008 ≤ ix ∧ ix ≤ 0x00F then tcfgWord (r.tiles.get Tile.off (ix - 8))
  else if ix = 0x010 then sqstat core.sqa
  else if ix = 0x011 then sqstat core.sqb
  else if ix = 0x012 then licWord s c x
  else if ix = 0x013 then (if isMgmt c then BitVec.ofNat 64 (b2n (getPair s (pairOf (selCore r.pwrsel))).mode)
    else BitVec.ofNat 64 (b2n (getPair s (pairOf c)).mode))
  else if ix = 0x014 then BitVec.ofNat 64 ((profileOf s c).toNat / 2 ^ 32)
  else if ix = 0x015 then BitVec.ofNat 64 (core.ebal % 2 ^ 24)
  else if ix = 0x016 then k.taskid
  else if ix = 0x017 then k.prio.setWidth 64
  else if ix = 0x018 then BitVec.ofNat 64 r.claimb
  else if ix = 0x019 then BitVec.ofNat 64 k.allow
  else if ix = 0x01A then core.floorcnt.setWidth 64
  else if ix = 0x01B then core.laycnt.setWidth 64
  else if ix = 0x020 then k.trapcause
  else if ix = 0x021 then k.trappc
  else if ix = 0x022 then k.trapinfo
  else if ix = 0x023 then k.rqseq.setWidth 64
  else if ix = 0x024 then k.cmpla
  else if 0x028 ≤ ix ∧ ix ≤ 0x02F then r.epi.get 0 (ix - 0x28)
  else if ix = 0x030 then r.nwatch
  else if ix = 0x100 then r.hvec
  else if ix = 0x101 then k.hepc.setWidth 64
  else if ix = 0x102 then k.hg1
  else if ix = 0x103 then k.hg2
  else if ix = 0x104 then k.hcstat
  else if ix = 0x105 then BitVec.ofNat 64 (b2n k.hmode)
  else if ix = 0x110 then s.pkg.predrain
  else if ix = 0x111 then s.pkg.prewait
  else if ix = 0x140 then s.pkg.drvctl
  else if ix = 0x141 then s.pkg.linkto
  else if ix = 0x143 then s.pkg.repsel
  else if 0x148 ≤ ix ∧ ix ≤ 0x14F then repmapWord s (s.pkg.repsel.toNat % 16) (ix - 0x148)
  else if 0x150 ≤ ix ∧ ix ≤ 0x15F then drvstatWord s (ix - 0x150)
  else if ix = 0x180 then r.pwrsel
  else if ix = 0x181 then
    let q := getCluster s (selCluster r.pwrsel)
    BitVec.ofNat 64 (q.epat.toNat * 65536 + q.pat.toNat)
  else if ix = 0x182 then (getCluster s (selCluster r.pwrsel)).grant.setWidth 64
  else if 0x184 ≤ ix ∧ ix ≤ 0x187 then eprofOf s (selDie r.pwrsel) (ix - 0x184)
  else if ix = 0x188 then rbctlWord (getCore s (selCore r.pwrsel))
  else if ix = 0x189 then
    let q := getStack s (selDie r.pwrsel / 2)
    BitVec.ofNat 64 (q.granted * 65536 + q.target)
  else if ix = 0x18A then BitVec.ofNat 64 (getDie s (selDie r.pwrsel)).vdie
  else if ix = 0x18B then BitVec.ofNat 64 (boostcap s (selDie r.pwrsel))
  else if ix = 0x18C then BitVec.ofNat 64 (getDie s (selDie r.pwrsel)).wear
  else if ix = 0x18F then r.mgwake
  else if ix = 0x190 then r.thsel
  else if ix = 0x191 then thvalWord (s.sensors.get Sensor.reset (wf r.thsel 8 0))
  else if ix = 0x192 then s.pkg.thd
  else if ix = 0x193 then s.pkg.thm
  else if ix = 0x194 then s.pkg.thpol
  else if ix = 0x1A0 then BitVec.ofNat 64 (getCluster s (selCluster r.pwrsel)).req
  else if ix = 0x1A1 then clpstatWord (getCluster s (selCluster r.pwrsel))
  else if ix = 0x1A2 then (getDie s (selDie r.pwrsel)).wakereq.setWidth 64
  else if ix = 0x1A3 then 0
  else if ix = 0x1A4 then
    BitVec.ofNat 64 ((List.range 16).foldl (fun acc d => acc + b2n ((getDie s d).wakereq != 0) * 2 ^ d) 0)
  else if ix = 0x1C0 then s.pkg.fabctl
  else if ix = 0x1C1 then s.pkg.podpos
  else if ix = 0x1C2 then s.pkg.outpl
  else if ix = 0x1C4 then healthWord s.pkg
  else if ix = 0x1C5 then s.pkg.lflim
  else if 0x1C8 ≤ ix ∧ ix ≤ 0x1CF then lfcntWord (getStack s (ix - 0x1C8))
  else if ix = 0x1D0 then BitVec.ofNat 64 s.serai.spancnt
  else 0

/-! ### Access and value rules (R41) -/

/-- Is an index assigned to a register? -/
def regKnown (ix : Nat) : Bool :=
  ix ≤ 0x01B || (0x020 ≤ ix && ix ≤ 0x024) || (0x028 ≤ ix && ix ≤ 0x030)
  || (0x100 ≤ ix && ix ≤ 0x105) || ix == 0x110 || ix == 0x111 || ix == 0x140 || ix == 0x141 || ix == 0x143
  || (0x148 ≤ ix && ix ≤ 0x15F) || (0x180 ≤ ix && ix ≤ 0x182) || (0x184 ≤ ix && ix ≤ 0x18C) || (0x18F ≤ ix && ix ≤ 0x194)
  || (0x1A0 ≤ ix && ix ≤ 0x1A4) || (0x1C0 ≤ ix && ix ≤ 0x1C2) || ix == 0x1C4 || ix == 0x1C5
  || (0x1C8 ≤ ix && ix ≤ 0x1D0)

/-- Is a register read-only to the contexts that may name it? LICMODE is writable in a privileged context alone. -/
def regRO (priv : Bool) (ix : Nat) : Bool :=
  if ix < 0x100 then !(0x002 ≤ ix && ix ≤ 0x005 || 0x028 ≤ ix && ix ≤ 0x030 || ix == 0x013 && priv)
  else (0x101 ≤ ix && ix ≤ 0x105) || (0x148 ≤ ix && ix ≤ 0x15F) || ix == 0x18B || ix == 0x18C || ix == 0x1A4
    || (0x1C8 ≤ ix && ix ≤ 0x1D0)

/-- Scope codes 0 to 6 in every field (R43). -/
def scopesOk (v : Nat) : Bool := (List.range 8).all fun i => decide (v / 16 ^ i % 16 ≤ 6)

/-- A thermal threshold word (Table 20.6). -/
def thrOk (v : Word) : Bool :=
  let w := wf v 47 40
  let h := wf v 31 24
  let t := wf v 15 8
  let okH := fun (hys top : Nat) => decide (0 < hys) && decide (hys ≤ top)
  decide (wf v 63 48 = 0) && decide (w < h) && decide (h < t) && okH (wf v 39 32) w && okH (wf v 23 16) h && okH (wf v 7 0) t

/-- Is the value one that the register's field map allows a write to carry (R7, R41)? -/
def valueOk (ix : Nat) (v : Word) : Bool :=
  if ix = 0x002 then wf v 63 16 == 0 && wf v 10 6 == 0
  else if ix = 0x003 ∨ ix = 0x004 then wf v 63 32 == 0 && scopesOk (wf v 31 0)
  else if ix = 0x005 then wf v 63 32 == 0
  else if ix = 0x013 then wf v 63 1 == 0
  else if 0x028 ≤ ix ∧ ix ≤ 0x02F then wf v 31 30 == 0 && wf v 23 0 == 0 && decide (wf v 27 24 ≤ 3)
  else if ix = 0x030 then
    wf v 31 1 == 0 && (wf v 0 0 == 0 || (match f32.read true (wf v 63 32) with
      | .num n m e => !n && !(FV.num false m e).lt (.num false 1 0)
      | _ => false))
  else if ix = 0x100 then wf v 63 48 == 0
  else if ix = 0x110 ∨ ix = 0x111 then wf v 63 32 == 0
  else if ix = 0x140 then wf v 11 1 == 0
  else if ix = 0x143 then wf v 63 4 == 0
  else if ix = 0x180 then wf v 63 11 == 0
  else if ix = 0x181 then wf v 63 32 == 0 && wf v 15 0 != 0
  else if ix = 0x182 then wf v 63 16 == 0
  else if 0x184 ≤ ix ∧ ix ≤ 0x187 then
    wf v 31 28 == 0 && decide (2040 ≤ ceilOf v) && (List.range 4).all fun i => decide (10 * weightOf v i ≤ ceilOf v)
  else if ix = 0x188 then wf v 63 17 == 0 && (List.range 4).all fun b => wf v 7 0 / 4 ^ b % 4 != 3
  else if ix = 0x189 then
    wf v 63 27 == 0 && wf v 15 11 == 0 && decide (400 ≤ wf v 10 0) && decide (wf v 10 0 ≤ 1500)
  else if ix = 0x18A then wf v 63 11 == 0 && decide (650 ≤ wf v 10 0) && decide (wf v 10 0 ≤ 1100)
  else if ix = 0x18F then wf v 63 3 == 0
  else if ix = 0x190 then wf v 63 9 == 0 && decide (wf v 8 0 < 320)
  else if ix = 0x191 then wf v 47 32 == 0
  else if ix = 0x192 ∨ ix = 0x193 then thrOk v
  else if ix = 0x194 then wf v 63 32 == 0 && wf v 9 0 != 0
  else if ix = 0x1A0 then wf v 63 3 == 0 && decide (wf v 2 0 ≤ 4)
  else if ix = 0x1A1 then wf v 61 16 == 0 && wf v 7 3 == 0
  else if ix = 0x1A2 ∨ ix = 0x1A3 then wf v 63 16 == 0
  else if ix = 0x1C0 then wf v 63 9 == 0
  else if ix = 0x1C1 then
    wf v 63 56 == 0 && wf v 47 32 == 0 && (List.range 4).all fun i => decide (wf v 15 0 / 16 ^ i % 16 ≤ wf v 31 16 / 16 ^ i % 16)
  else if ix = 0x1C4 then wf v 62 20 == 0 && wf v 7 0 == 0 && wf v 15 8 != 0xFF
  else if ix = 0x1C5 then wf v 31 16 == 0 && wf v 15 0 != 0
  else true

/-- What the index of a CRD, or of a CWR (`wr`), is refused for, whatever the value written (R41, reason 0x16). -/
def indexFault (s : State) (ix : Nat) (wr : Bool) : Found :=
  let priv := isMgmt s.focus
  if 0x100 ≤ ix ∧ priv = false then some (0x03, reasonInfo s 0x16)
  else if !regKnown ix || (wr && regRO priv ix) then some (0x02, reasonInfo s 0x16)
  else none

/-- The stage-2 check of CRD and CWR (Table 4.8, reason 0x16): `v` is the value a CWR writes. -/
def regFault (s : State) (ix : Nat) (v : Option Word) : Found :=
  indexFault s ix v.isSome <|>
    match v with
    | none => none
    | some w => if !valueOk ix w then some (0x02, reasonInfo s 0x16) else none

/-! ### Writes to registers of the context (R41, R190) -/

/-- The context with one of its control registers written. -/
def writeCtxReg (k : Ctx) (ix : Nat) (v : Word) : Ctx :=
  let r := k.live
  if ix = 0x002 then { k with live := { r with cstat := v } }
  else if ix = 0x003 then { k with live := { r with ocs0 := v } }
  else if ix = 0x004 then { k with live := { r with ocs1 := v } }
  else if ix = 0x005 then { k with live := { r with bankkey := v } }
  else if 0x028 ≤ ix ∧ ix ≤ 0x02F then { k with live := { r with epi := r.epi.set (ix - 0x28) v } }
  else if ix = 0x030 then { k with live := { r with nwatch := v }, watch := k.watch ++ [.write (v.getLsbD 0)] }
  else if ix = 0x100 then { k with live := { r with hvec := v } }
  else if ix = 0x180 then { k with live := { r with pwrsel := v } }
  else if ix = 0x18F then { k with live := { r with mgwake := v } }
  else if ix = 0x190 then { k with live := { r with thsel := v } }
  else k

end Sys2Proof.Machine
end

