-- ==== Sys2Proof/Machine/Issue.lean ====
section
/-! DEFINITION. Issue of one slot: the mode checks of stage 2 (R185), the conditions of each slot's own instruction (R88), what it
blocks on (R20), what it waits for, its energy charge (R29), and the one operation that runs a slot. -/

namespace Sys2Proof.Machine

/-! ### Mode checks (R41, R185, R188, R197) -/

/-- A privileged form in a context with PRIV = 0. -/
def privFault (s : State) : Found := failIf s (!isMgmt s.focus) 0x03 0x50

/-- The stage-2 conditions of a slot that depend on the context's mode. The value of a CWR is judged by the rules of its
register only when the register that holds it is not pending: a bundle that reads a pending register blocks (R17). -/
def modeFault (s : State) : Instr → Found
  | .resume _ _ => privFault s <|> failIf s (!(me s).hmode) 0x02 0x11
  | .crd _ _ n => regFault s n.toNat none
  | .cwr _ d n =>
    if pendingDest s s.focus (curX s) (.g d.toNat) then indexFault s n.toNat true
    else regFault s n.toNat (some (readG s d))
  | .taskr _ => failIf s (match myTask s with | some t => t.fixed | none => false) 0x14 0x54
  | .seal _ _ _ => privFault s
  | .unseal _ _ _ => privFault s
  | .dcflL2 _ => privFault s
  | .dcinvL2 _ => privFault s
  | _ => none

/-! ### Claims (R199, R225) -/

/-- Contexts that hold claims on a core besides context `x`: its others, and the saved ones tied to it (R225, R297). -/
def claimants (s : State) (c x : Nat) : List Ctx :=
  (([0, 1, 2, 3].filter fun y => y != x).map fun y => getCtx s c y) ++ (imagesOn s c).map fun i => i.ctx

/-- Tile-store bytes of a core that the claims of others do not hold. -/
def freeTileStore (s : State) (c x : Nat) : Nat :=
  Config.tileStoreBytes - ((claimants s c x).map fun k => k.live.claimb).sum

/-- Is a window of slice words free (R234)? -/
def sliceFree (s : State) (c x base n : Nat) : Bool :=
  decide (base + n ≤ Config.sliceWords) &&
    (claimants s c x).all fun k => k.live.slice == 0 || n == 0 ||
      decide (base + n ≤ k.slbase) || decide (k.slbase + k.live.slice ≤ base)

/-- A CLAIM that the core cannot meet now (R199, R234): kinds 0 tile store, 1 slice words, which must follow the current window;
cycles saturate and never fail. -/
def claimFails (s : State) (k : Nat) (n : Nat) : Bool :=
  let c := s.focus
  let x := curX s
  let own := (me s).live
  if n = 0 then false
  else if k = 0 then decide (own.claimb + n > freeTileStore s c x)
  else if k = 1 then !sliceFree s c x ((me s).slbase + own.slice) n
  else false

/-- Is the current context's task divisible? A context with no task is handled as a fixed task's (log entry 12). -/
def divisible (s : State) : Bool := match myTask s with | some t => !t.fixed | none => false

/-- A claim failure of a fixed task (R199, R218): TRAPINFO holds g[A]. -/
def claimFault (s : State) (k : Nat) (w : Word) : Found :=
  if claimFails s k w.toNat && !divisible s then some (0x0E, w) else none

/-! ### Conditions of the slots' own instructions (R88) -/

def ldAcc (w : Nat) : Acc := ⟨w, false, false⟩
def stAcc (w : Nat) : Acc := ⟨w, true, false⟩
def syncAcc (w : Nat) : Acc := ⟨w, true, true⟩

/-- What faults at issue in a slot that performs in some lane, in the order of its own table. `extra` counts the store slots
of the bundle that stand before it. The twin-absent fault has no word of TRAPINFO: a free value (R160; log entries 7 and 146). -/
def ownFault (s : State) (extra : Nat) (i : Instr) : Found :=
  let m := lanesOf s i
  let ld := fun w a x => scalarFault s (ldAcc w) (scalarRef s a x) false extra
  let st := fun w a x => scalarFault s (stAcc w) (scalarRef s a x) true extra
  let sy := fun a x => scalarFault s (syncAcc 8) (scalarRef s a x) false extra
  let vl := fun k w a x => contigFault s k (ldAcc w) (scalarRef s a x) (if k = 1 then 4 else 32 * w) m false extra
  let vs := fun k w a x => contigFault s k (stAcc w) (scalarRef s a x) (if k = 1 then 4 else 32 * w) m true extra
  let va := fun a x => contigFault s 3 (syncAcc 4) (scalarRef s a x) 128 m false extra
  match i with
  | .ldb _ _ a x | .ldbn _ _ a x => ld 1 a x
  | .ldh _ _ a x | .ldhn _ _ a x => ld 2 a x
  | .ldw _ _ a x | .ldwn _ _ a x => ld 4 a x
  | .ldd _ _ a x | .lda _ _ a x => ld 8 a x
  | .stb _ _ a x => st 1 a x
  | .sth _ _ a x => st 2 a x
  | .stw _ _ a x => st 4 a x
  | .std _ _ a x => st 8 a x
  | .stl _ _ a x => sy a x
  | .aadd _ _ a x | .aand _ _ a x | .aor _ _ a x | .axor _ _ a x | .amin _ _ a x | .amax _ _ a x | .aswp _ _ a x
  | .acas _ _ a x => sy a x
  | .vld _ _ a x | .vlda _ _ a x => vl 0 4 a x
  | .vldx8 _ _ a x => vl 0 1 a x
  | .vldx16 _ _ a x => vl 0 2 a x
  | .vst _ _ a x => vs 0 4 a x
  | .vstn8 _ _ a x => vs 0 1 a x
  | .vstn16 _ _ a x => vs 0 2 a x
  | .vlds _ _ a x => vl 1 4 a x
  | .vsts _ _ a x => vs 1 4 a x
  | .vstl _ _ a x => contigFault s 0 (stAcc 4) (scalarRef s a x) 128 m false extra
  | .vgth _ _ a b => gatherFault s (ldAcc 4) (readG s a) (readV s b) m false extra
  | .vsct _ _ a b => gatherFault s (stAcc 4) (readG s a) (readV s b) m true extra
  | .vaadd _ _ a x | .vamin _ _ a x | .vamax _ _ a x | .vaswp _ _ a x => va a x
  | .tcfg _ t a =>
    tcfgFault s t (readG s a)
      <|> (if overClaim s t (readG s a) && !divisible s then some (0x0E, readG s a) else none)
  | .tstat _ _ t => tileFault s t false
  | .tfree _ t => tfreeFault s t
  | .trel _ t => trelFault s t
  | .mma _ z ta tb k _ _ => mmaFault s z ta tb (k.toNat + 1)
  | .mmat _ z ta tb k _ _ => mmaFault s z ta tb (k.toNat + 1)
  | .zclr _ z _ => noLicence s <|> failIf s (zBusy s z) 0x09 0x39
  | .zst _ z t u k => zstFault s z t u (k.toNat + 1)
  | .zld _ z t k => zldFault s z t (k.toNat + 1)
  | .zadd _ d a => zaddFault s d a
  | .zfree _ _ => noLicence s <|> releaseFault s
  | .sqld _ q a => sqldFault s q (readG s a)
  | .sqclr _ _ => noLicence s <|> releaseFault s
  | .cpin _ t a b => cpinFault s t (readG s a) (readG s b)
  | .cpout _ t a b => cpoutFault s t (readG s a) (readG s b)
  | .cpcl _ d a b => cpclFault s (readG s d) (readG s a) (readG s b)
  | .cpmc _ t a b => cpmcFault s t (readG s a) (readG s b) <|> tileFault s t false
  | .cpenc _ t a b => cpencFault s t (readG s a) (readG s (BitVec.ofNat 5 (2 * b.toNat))) (readG s (BitVec.ofNat 5 (2 * b.toNat + 1)))
  | .cpsc _ d a b => cpscFault s (readG s d) (readG s a) (readG s b)
  | .arrwTile _ t => failIf s (!(tileOfMe s t).v) 0x0B 0x20 <|> tileFault s t true
  | .publ _ a => publFault s (readG s a)
  | .licr _ => releaseFault s
  | .licx _ => releaseFault s
  | .zxt _ => noLicence s
  | .twget _ _ _ => if twinAbsent s then some (0x13, Config.freeInfo s.fresh) else none
  | .mona _ a b => monaFault s (refAdd (readG s a) (readG s b))
  | .rqpg _ _ a b => rqpgFault s (refAdd (readG s a) (readG s b))
  | .taskl _ _ a => tasklFault s (readG s a)
  | .claim _ k a => claimFault s k.toNat (readG s a)
  | .seal _ _ b => sealFault s (readG s b) true
  | .unseal _ _ b => sealFault s (readG s b) false
  | .dcflLine _ a => lineFault s (readG s a)
  | .dcinvLine _ a => lineFault s (readG s a)
  | _ => none

/-- The predicate a guard reads. -/
def guardReads : Guard → List Dest
  | .always => []
  | .scalar _ pg => [.p pg.toNat]
  | .lanes _ pg => [.p pg.toNat]

/-- Is a register of the current context pending (R17)? -/
def isPending (s : State) (d : Dest) : Bool := pendingDest s s.focus (curX s) d

/-- Is a g register known: not pending? -/
def known (s : State) (n : Reg) : Bool := !isPending s (.g n.toNat)

/-- The registers whose values a slot's checks depend on; the data of a store and the operands of an atomic are not among them. -/
def checkReads (i : Instr) : List Dest :=
  let mem := fun (a : Reg) (x : Idx) => Dest.g a.toNat :: idxReads x
  let g := fun (n : Reg) => Dest.g n.toNat
  match i with
  | .stb _ _ a x | .sth _ _ a x | .stw _ _ a x | .std _ _ a x | .stl _ _ a x => mem a x
  | .aadd _ _ a x | .aand _ _ a x | .aor _ _ a x | .axor _ _ a x | .amin _ _ a x | .amax _ _ a x | .aswp _ _ a x
  | .acas _ _ a x => mem a x
  | .vst _ _ a x | .vstn8 _ _ a x | .vstn16 _ _ a x | .vsts _ _ a x | .vstl _ _ a x => mem a x
  | .vaadd _ _ a x | .vamin _ _ a x | .vamax _ _ a x | .vaswp _ _ a x => mem a x
  | .vsct _ _ a b => [g a, .v b.toNat]
  | .seal _ _ b | .unseal _ _ b => [g b]
  | _ => (slotInfo i).reads

/-- Does a check of the slot need a register that is pending? -/
def checksPending (s : State) (i : Instr) : Bool := (checkReads i).any (isPending s)

/-- The checks of a copy's descriptor that need nothing else (R175). -/
def descBare (d : Word) (mask : Bool) : Bool := dRows d == 0 || dLen d == 0 || (!mask && d.toNat / 16 % 16 != 0)

/-- The checks of CPENC, in the order of R178, that the registers known by now decide: the source by its format, the descriptor, and
SOFF. -/
def encOpen (s : State) (t : TReg) (a b c : Reg) : Found :=
  let d := readG s b
  let off := encSoff (readG s c)
  failIf s (myOutrider s).isNone 0x0B 0x2A
  <|> failIf s ((known s a && !(refElem s (readG s a) == 5 || refElem s (readG s a) == 4)) || (tileOfMe s t).fmt != 2) 0x0B 0x21
  <|> failIf s ((known s b && (descBare d false || decide (dRows d > 64) || dLen d % 32 != 0)) || (known s c && off % 64 != 0)) 0x0B 0x27
  <|> failOpen s (known s b && known s c && decide (off + 64 * (dLen d / 32) > 65536)) 0x04
  <|> fillFault s t (if known s b then 128 * dLen d else 0)

/-- A reference whose tensor has no element, whatever its index will be: check 1 fails (Table 5.6). -/
def noElement (s : State) (a : Reg) : Bool := known s a && extentOf s (me s) (refTid (readG s a)) == 0

/-- What a slot faults on whatever its pending registers will hold, in the order of its own table: the scan passes over the conditions
that wait for them (R88). -/
def openFault (s : State) (i : Instr) : Found :=
  let badDesc := fun (b : Reg) mask => failIf s (known s b && descBare (readG s b) mask) 0x0B 0x27
  let sized := fun (a b : Reg) =>
    if known s a && known s b then failIf s (descBad s (me s) (readG s a) (readG s b) false) 0x0B 0x27 else badDesc b false
  let slice := fun (a : Reg) => failOpen s (known s a && refTid (readG s a) == 0xFFF0) 0x04
  let fill := fun (t : TReg) =>
    failIf s (!(tileOfMe s t).v) 0x0B 0x20 <|> failIf s ((tileOfMe s t).st == .ready) 0x0B 0x29 <|> tileFault s t false
  match i with
  | .tcfg _ t _ => failIf s ((tileOfMe s t).st == .filling || (tileOfMe s t).st == .draining || tBusy s t false) 0x09 0x39
  | .sqld _ q _ =>
    noLicence s <|> failIf s (decide ((queueOf s q).cnt + (queueOf s q).pend.length + 1 > Config.scaleEntries)) 0x0C 0x32
  | .cpin _ t a b => slice a <|> badDesc b false <|> fill t
  | .cpout _ t a b =>
    failOpen s (known s a && onChip (refTid (readG s a))) 0x04 <|> badDesc b false
      <|> failIf s (!(tileOfMe s t).v) 0x0B 0x20 <|> tileFault s t true
  | .cpcl _ d a b =>
    (if known s a && known s b then copyRead s (readG s a) (readG s b) else none)
      <|> failOpen s (known s d && badClusterDst (readG s d)) 0x04 <|> sized a b
  | .cpmc _ t a b =>
    slice a <|> failIf s (known s b && (descBare (readG s b) true || dMask (readG s b) == 0)) 0x0B 0x27
      <|> failIf s (!(tileOfMe s t).v) 0x0B 0x20 <|> tileFault s t false
  | .cpenc _ t a b => encOpen s t a (BitVec.ofNat 5 (2 * b.toNat)) (BitVec.ofNat 5 (2 * b.toNat + 1))
  | .cpsc _ _ a b =>
    (if known s a && known s b then copySource s (readG s a) (readG s b) else slice a) <|> sized a b
  | .publ _ _ => releaseFault s
  | .mona _ a _ =>
    let tid := refTid (readG s a)
    failOpen s (noElement s a) 0x04 <|> failIf s (known s a && (tid == 0xFFF0 || tid == 0xFFF1 || tid == 0xFFF5)) 0x04 0x52
  | .rqpg _ _ a _ =>
    failOpen s (noElement s a) 0x04 <|> failIf s (known s a && onChip (refTid (readG s a))) 0x04 0x52
      <|> failIf s (getProc s (me s).pid).pool.isNone 0x04 0x52
  | .seal _ _ _ => failIf s (decide (s.serai.seals.length ≥ Config.sealTable)) 0x0B 0x53
  | _ => none

/-- Does a guard of the slot read a register that is pending? -/
def guardPending (s : State) (i : Instr) : Bool := (guardReads (slotInfo i).guard).any (isPending s)

/-- The conditions of R88 for one slot. A pending register blocks the bundle (R17): a condition that depends on it is judged when the
bundle is presented again, the others at once (log entry 13). A slot that performs in no lane passes every one (R94, R148). -/
def ownScan (s : State) (extra : Nat) (i : Instr) : Found :=
  if guardPending s i then none
  else if lanesOf s i = 0 then none
  else if checksPending s i then openFault s i
  else ownFault s extra i

/-- Every fault of a slot presented for issue. -/
def issueFault (s : State) (i : Instr) : Found := modeFault s i <|> ownScan s 0 i

/-! ### Blocks (R20) -/

/-- Does the slot issue a long load or an atomic (R17)? A destination g0 makes no scoreboard entry (R112). -/
def longSlot (s : State) (i : Instr) : Bool :=
  let m := lanesOf s i
  let sc := fun (d a : Reg) x => m != 0 && d != 0 && isLong (scalarRef s a x)
  let vc := fun (a : Reg) x => m != 0 && isLong (scalarRef s a x)
  match i with
  | .ldb _ d a x | .ldbn _ d a x | .ldh _ d a x | .ldhn _ d a x | .ldw _ d a x | .ldwn _ d a x | .ldd _ d a x
  | .lda _ d a x => sc d a x
  | .aadd _ _ _ _ | .aand _ _ _ _ | .aor _ _ _ _ | .axor _ _ _ _ | .amin _ _ _ _ | .amax _ _ _ _ | .aswp _ _ _ _
  | .acas _ _ _ _ => m != 0
  | .vld _ _ a x | .vldx8 _ _ a x | .vldx16 _ _ a x | .vlda _ _ a x => vc a x
  | .vgth _ _ a _ => m != 0 && isLong (readG s a)
  | .vaadd _ _ _ _ | .vamin _ _ _ _ | .vamax _ _ _ _ | .vaswp _ _ _ _ => m != 0
  | _ => false

/-- The ordering class of a load or atomic that performs (R116, R122). -/
def loadClass (s : State) (i : Instr) : Option (BitVec 4) :=
  if lanesOf s i = 0 then none
  else match i with
  | .ldb h _ _ _ | .ldbn h _ _ _ | .ldh h _ _ _ | .ldhn h _ _ _ | .ldw h _ _ _ | .ldwn h _ _ _ | .ldd h _ _ _
  | .lda h _ _ _ | .aadd h _ _ _ | .aand h _ _ _ | .aor h _ _ _ | .axor h _ _ _ | .amin h _ _ _ | .amax h _ _ _
  | .aswp h _ _ _ | .acas h _ _ _ | .vld h _ _ _ | .vldx8 h _ _ _ | .vldx16 h _ _ _ | .vgth h _ _ _ | .vlda h _ _ _
  | .vaadd h _ _ _ | .vamin h _ _ _ | .vamax h _ _ _ | .vaswp h _ _ _ => some h.oc
  | .vlds _ _ _ _ => some 0
  | _ => none

/-- Is the slot an atomic? -/
def isAtomic : Instr → Bool
  | .aadd _ _ _ _ | .aand _ _ _ _ | .aor _ _ _ _ | .axor _ _ _ _ | .amin _ _ _ _ | .amax _ _ _ _ | .aswp _ _ _ _
  | .acas _ _ _ _ | .vaadd _ _ _ _ | .vamin _ _ _ _ | .vamax _ _ _ _ | .vaswp _ _ _ _ => true
  | _ => false

/-- The ordering class of a load of an on-chip level that performs: it is performed as it issues. -/
def chipClass (s : State) (i : Instr) : Option (BitVec 4) :=
  let c := fun (h : MH) (r : Word) => if onChip (refTid r) then some h.oc else none
  if lanesOf s i = 0 then none
  else match i with
  | .ldb h _ a x | .ldbn h _ a x | .ldh h _ a x | .ldhn h _ a x | .ldw h _ a x | .ldwn h _ a x | .ldd h _ a x
  | .lda h _ a x => c h (scalarRef s a x)
  | .vld h _ a x | .vldx8 h _ a x | .vldx16 h _ a x | .vlda h _ a x => c h (scalarRef s a x)
  | .vgth h _ a _ => c h (readG s a)
  | .vlds _ _ _ _ => some 0
  | _ => none

/-- Would an on-chip load of a class pass an earlier access of it, a committed store or a long load that cannot be performed yet
(R251)? -/
def chipHeld (s : State) (cls : BitVec 4) : Bool :=
  let k := me (beforeChip s cls)
  k.wbuf.any (fun e => e.committed && e.cls == cls)
  || k.loads.any fun l => l.cls == cls && l.atomic.isNone && !l.cancelled && l.handed

/-- Is the slot a PFL that performs? An LDA holds it back (R116). -/
def isPfl (s : State) (i : Instr) : Bool :=
  match i with | .pfl _ _ _ _ => lanesOf s i != 0 | _ => false

/-- Is another context of this core ready to issue: it holds a running task and sleeps on nothing (R200)? -/
def otherReady (s : State) : Bool :=
  ([0, 1, 2, 3].filter fun y => y != curX s).any fun y =>
    let k := getCtx s s.focus y
    runnable k && k.block == .no && k.nap.isNone

/-- ARRW's counter condition (R168). -/
def arrived (s : State) (n : TReg) (v : Word) : Bool :=
  decide (((me s).acnt.get 0 n.toNat - v.setWidth 32).toNat < 2 ^ 31)

/-- Can a LICQ of the current context be granted as it issues (R180, R274, R275, R279)? In the master cycle of a release it enters its request
and takes part in the choice (R276). -/
def licqNow (s : State) : Bool :=
  let c := s.focus
  let p := getPair s (pairOf c)
  if licMine s c (curX s) then true
  else if p.pendMode.isSome then false
  else if p.mode then altHolder p c == none && (parkedOf s c (curX s)).isNone && (reqsOf p c).all fun r => r.core == c && r.x == curX s
  else p.st == .free && p.choose.isNone && decide (gapFree p c ≤ s.now) && (parkedOf s c (curX s)).isNone
    && p.reqs.all fun r => r.core == c && r.x == curX s

/-- What a slot that performs blocks on besides its registers. -/
def ownBlock (s : State) (i : Instr) : Option Block :=
  match i with
  | .mma _ _ ta tb _ _ _ => mmaBlock s ta tb
  | .mmat _ _ ta tb _ _ _ => mmaBlock s ta tb
  | .zld _ _ t _ => if (tileOfMe s t).st != .ready then some .tile else none
  | .cpout _ t _ _ => if (tileOfMe s t).st != .ready then some .tile else none
  | .cpin _ t _ _ => if (tileOfMe s t).st == .draining then some .tile else none
  | .cpenc _ t _ _ => if (tileOfMe s t).st == .draining then some .tile else none
  | .arrwTile _ t => if (tileOfMe s t).st != .ready then some .arrival else none
  | .arrwCounter _ n a => if arrived s n (readG s a) then none else some .arrival
  | .licq _ => if licqNow s then none else some .licence
  | .yield _ => if !(me s).yielded && otherReady s then some .yield else none
  | _ => none

/-- What a slot presented for issue blocks on (R20). A slot that sets p15 for residency does not block on a pending p15 (log entry
103). -/
def issueBlock (s : State) (i : Instr) : Option Block :=
  let f := slotInfo i
  if (f.reads ++ f.writes ++ guardReads f.guard).any (pendingDest s s.focus (curX s)) then some .load
  else if longSlot s i && decide ((oldLoads s).length ≥ Config.longLoads) then some .load
  else match loadClass s i with
    | some c => if orderBlock s (isAtomic i) c then some .load else if lanesOf s i = 0 then none else ownBlock s i
    | none =>
      if isPfl s i && (oldLoads s).any (·.acquire) then some .load
      else if lanesOf s i = 0 then none else ownBlock s i

/-! ### Waits at issue -/

/-- A store slot that takes an entry of the withheld store buffer if it performs (R23). -/
def isStore : Instr → Bool
  | .stb _ _ _ _ | .sth _ _ _ _ | .stw _ _ _ _ | .std _ _ _ _ | .vst _ _ _ _ | .vstn8 _ _ _ _ | .vstn16 _ _ _ _
  | .vsts _ _ _ _ | .vsct _ _ _ _ => true
  | _ => false

/-- Is the matrix array, or the drain unit, busy with another context's instruction (R18)? -/
def arrayBusy (s : State) : Bool := (myCore s).mma.isSome
def drainBusy (s : State) : Bool := (myCore s).drain.isSome

/-- Accesses handed to memory and not yet performed that reach tile store or cluster memory (R190). -/
def chipOutstanding (s : State) : Bool :=
  let k := me s
  let chip := fun (r : Word) => let t := refTid r; t == 0xFFF1 || t == 0xFFF2 || t == 0xFFF5 || t == 0xFFF6
  (committedEntries k).any chipEntry || (oldLoads s).any (fun l => chip l.ref)
    || k.flight.any fun f => f.acquire && decide (f.issued < s.now)

/-- A slot that waits at issue, without a context switch (R18, R23, R116, R122, R158, R190, R191, R194, R205, R207). -/
def issueWait (s : State) (i : Instr) : Bool :=
  if lanesOf s i = 0 then false
  else
    (match loadClass s i with | some c => orderWait s c | none => false)
    || (match chipClass s i with | some c => chipHeld s c | none => false)
    || (isPfl s i && (me s).flight.any fun f => f.acquire && decide (f.issued < s.now))
    || (isStore i && bufferFull s 0 && !(committedEntries (me s)).isEmpty)
    || match i with
      | .mma _ _ _ _ _ _ _ => arrayBusy s
      | .mmat _ _ _ _ _ _ _ => arrayBusy s
      | .zst _ _ _ _ _ => drainBusy s
      | .zld _ _ _ _ => drainBusy s
      | .zadd _ _ _ => drainBusy s
      | .twget _ _ w => !(twinReg s w).2 || (clusterState s (twinOf s.focus) != 0 && !twinAbsent s)
      | .cwr _ _ n => n == 0x005 && chipOutstanding s
      | .rqpg _ _ _ _ => decide ((me s).rqout.length ≥ Config.pageRequests)
      | .vjoin _ => (committedEntries (me s)).any chipEntry || (match myDrain s with | some j => j.kind == .zst | none => false)
      | .icinv _ => !(committedEntries (me s)).isEmpty
      | _ => false

/-! ### Blocking at the licence (R274) -/

/-- A blocked LICQ enters its request, once (R274). Its own ZXT may still be moving its state away (R180). -/
def licEnter (s : State) (c x : Nat) : State :=
  let p := getPair s (pairOf c)
  if isMgmt c || (licHolds s c x && !p.moving.contains c) || (p.reqs.any fun r => r.core == c && r.x == x)
      || (match p.grantee with | some g => p.st == .passing && g.core == c && g.x == x | none => false) then s
  else licArrive s (pairOf c) ⟨c, x, (getCtx s c x).prio.toNat, s.now, false⟩

/-- What blocking does: a LICQ enters its request; a YIELD has been presented (R200). -/
def blockEffect (s : State) (b : Block) : State :=
  let s1 := match b with
    | .licence => licEnter s s.focus (curX s)
    | .yield => setMe s { me s with yielded := true }
    | _ => s
  setMe s1 { me s1 with block := b }

/-! ### Energy (R29, R30) -/

/-- The class a slot is charged at: its E field, or its floor where E is lower or absent. -/
def chargedClass (i : Instr) : Nat :=
  let f := slotInfo i
  match f.e with
  | some e => Nat.max e.toNat f.floor
  | none => f.floor

/-- Is the slot's E below its floor? -/
def belowFloor (i : Instr) : Bool :=
  match (slotInfo i).e with
  | some e => decide (e.toNat < (slotInfo i).floor)
  | none => false

/-- The weight of a slot on a core. -/
def slotWeight (s : State) (c : Nat) (i : Instr) : Nat := weightOf (profileOf s c) (chargedClass i)

/-- A slot pays its weight and counts in FLOORCNT if its E is below the floor. -/
def charge (s : State) (i : Instr) : State :=
  let k := myCore s
  setMyCore s { k with
    ebal := k.ebal - slotWeight s s.focus i
    floorcnt := if belowFloor i then k.floorcnt + 1 else k.floorcnt }

/-! ### Running a slot -/

/-- The trap of a fault found at the slot in issue. -/
def slotTrap (s : State) (f : BitVec 8 × Word) : TrapReq := ⟨f.1, s.latch.slot, false, f.2, (me s).bpc⟩

/-- The slot stays in the issue buffer until the next core cycle. -/
def holdSlot (s : State) : State := { s with latch := { s.latch with hold := true } }

/-- A slot issues: it performs if it has a lane, pays, and leaves the issue buffer. -/
def issueSlot (i : Instr) (perform : State → State) (s : State) : State :=
  endSlot (charge (if lanesOf s i = 0 then s else perform s) i)

/-- A slot of the issue buffer runs. BUNDLE_FETCH has made the checks of a whole bundle (R86, R88, R20, R30); a slot that was not
fetched by it makes them itself. -/
def runSlot (i : Instr) (perform : State → State) (s : State) : Host.Outcome State Fault Refusal :=
  if s.latch.checked then .next (issueSlot i perform s)
  else match issueFault s i with
    | some f => .next (takeTrap s s.focus (curX s) (slotTrap s f))
    | none => match issueBlock s i with
      | some b => .next (holdSlot (blockEffect s b))
      | none =>
        if issueWait s i ∨ (myCore s).ebal < slotWeight s s.focus i then .next (holdSlot s)
        else .next (issueSlot i perform s)

/-- A non-undoable slot's operands are recorded for step 4 of R24. -/
def record (s : State) (a : Act) : State := setMe s { me s with acts := (me s).acts ++ [a] }

/-- A release is recorded for step 5 of R24. -/
def recordRelease (s : State) (r : Release) : State := setMe s { me s with releases := (me s).releases ++ [r] }

end Sys2Proof.Machine
end

