-- ==== Sys2Proof/Machine/Memory.lean ====
section
/-! DEFINITION. Issuing scalar and vector accesses: placement, long loads, stores and atomics (R107 to R122, R146 to R155). -/

namespace Sys2Proof.Machine

/-! ### Issuing scalar accesses -/

/-- A new place in the program order of the context's accesses. -/
def newPlace (s : State) : State := setMe s { me s with nload := (me s).nload + 1 }

/-- A result of an on-chip load enters its window; an acquire is marked. -/
def addChipLoad (s : State) (d : Dest) (v : Vec) (mask : Pred) (win : Nat) (acq : Bool) : State :=
  setMe s { me s with
    flight := (me s).flight ++
      [{ dest := d, val := v, mask := mask, left := win - 1, issued := s.now, acquire := acq, flags := 0,
         residueBad := false, slot := s.latch.slot, pc := (me s).bpc }] }

/-- A long load is posted: its return falls due at a latency the spec leaves open. -/
def postLoad (s : State) (l : LongLoad) : State :=
  let s1 := setMe s { me s with loads := (me s).loads ++ [l] }
  later s1 (.longLoadReturn s.focus (curX s) l.id)

/-- The tile and byte location of a scalar access after placement (R109): the storage addresses of its bytes, or none where it
takes the non-resident outcome (R108, R244). -/
def scalarPlace (s : State) (r : Word) (w : Nat) : State × List Nat :=
  match locate s (me s) r with
  | none => (s, [])
  | some (tile, off) =>
    let s1 := if onChip (refTid r) then s else placeRead s s.focus (me s) (refTid r) tile
    (s1, bytesAt s1 s1.focus (me s1) 0 (refTid r) tile off w)

/-- The same for an access that writes (R109, R216). -/
def scalarWrite (s : State) (r : Word) (w : Nat) : State × List Nat :=
  match locate s (me s) r with
  | none => (s, [])
  | some (tile, off) =>
    let s1 := if onChip (refTid r) then s else placeWrite s s.focus (me s) (refTid r) tile
    (s1, if canWrite s1 (me s1) (refTid r) tile then bytesAt s1 s1.focus (me s1) 0 (refTid r) tile off w else [])

/-- A scalar load (R112, R116). A plain load into g0 makes no scoreboard entry; an acquire into g0 still orders what follows. -/
def loadScalar (s : State) (d : Reg) (r : Word) (w : Nat) (sext acq : Bool) (oc : BitVec 4) : State :=
  let cls := oc
  if onChip (refTid r) then
    let s0 := beforeChip s cls
    let as := (scalarPlace s0 r w).2
    let v := partValue s0 s0.focus (scopeOf (me s0).live cls) as (forwards s0 (me s0) (swzId (refTid r)) as)
    if d = 0 ∧ !acq then s0
    else addChipLoad (newPlace s0) (.g d.toNat) ((extend w sext v).setWidth 1024) allLanes (chipWindow (refTid r)) acq
  else
    let t := scalarPlace s r w
    let s1 := if t.2 = [] then setFlags t.1 flNR else t.1
    if d = 0 ∧ !acq then s1
    else
      let k := me s1
      postLoad (newPlace s1)
        { id := k.nload, issued := s.now, dest := .g d.toNat, width := w, sext := sext, cls := cls,
          scope := scopeOf k.live cls, acquire := acq, atomic := none, ref := r,
          parts := [⟨0, t.2, forwards s1 k (swzId (refTid r)) t.2⟩], nr := 0, mask := allLanes, opnd := 0, opnd2 := 0,
          vec := false, cancelled := false, handed := true, committed := false,
          slot := s.latch.slot, pc := k.bpc }

/-- The entry of a scalar store. -/
def scalarEntry (k : Ctx) (r : Word) (as : List Nat) (w : Nat) (v : Word) (oc : BitVec 4) (rel : Bool) : StoreEntry :=
  { seq := k.nload, ref := r, cls := oc, scope := scopeOf k.live oc, width := w, vec := false, scatter := false, mask := 1,
    cells := cellsAt as v.toNat, idx := 0, swz := swzId (refTid r), committed := false, release := rel }

/-- A scalar store takes an entry of the withheld store buffer; one on a non-resident tile is dropped with NR set (R108, R113). -/
def storeScalar (s : State) (r : Word) (w : Nat) (v : Word) (oc : BitVec 4) : State :=
  let t := scalarWrite s r w
  if t.2 = [] then setFlags t.1 flNR
  else
    let s1 := newPlace t.1
    setMe s1 { me s1 with wbuf := (me s1).wbuf ++ [scalarEntry (me t.1) r t.2 w v oc false] }

/-- STL is handed to memory at step 4 of its commit (R117). -/
def storeRelease (s : State) (r : Word) (v : Word) (oc : BitVec 4) : State :=
  let t := scalarWrite s r 8
  if t.2 = [] then setFlags t.1 flNR
  else record (newPlace t.1) (.stl (scalarEntry (me t.1) r t.2 8 v oc true))

/-- An atomic: its destination is pending from issue, and it is handed to memory at step 4 of its commit (R118). -/
def atomicScalar (s : State) (op : AtomicOp) (d : Reg) (r : Word) (x y : Word) (oc : BitVec 4) : State :=
  let t := scalarWrite s r 8
  let s1 := if t.2 = [] then setFlags t.1 flNR else t.1
  let k := me s1
  let l : LongLoad :=
    { id := k.nload, issued := s.now, dest := .g d.toNat, width := 8, sext := false, cls := oc,
      scope := scopeOf k.live oc, acquire := false, atomic := some op, ref := r,
      parts := [⟨0, t.2, []⟩], nr := 0, mask := allLanes, opnd := x.setWidth 1024, opnd2 := y,
      vec := false, cancelled := false, handed := false, committed := false,
      slot := s.latch.slot, pc := k.bpc }
  let s2 := newPlace s1
  record (setMe s2 { me s2 with loads := (me s2).loads ++ [l] }) (.atomic k.nload)

/-! ### Issuing vector accesses (R146 to R155) -/

/-- The tile and byte location of each enabled lane. -/
def laneLocs (s : State) (refs : List (Nat × Word)) : List (Nat × Word × Nat × Nat) :=
  refs.filterMap fun p => (locate s (me s) p.2).map fun q => (p.1, p.2, q.1, q.2)

/-- The tiles that lanes reach outside the on-chip levels, each once. -/
def laneTiles (ls : List (Nat × Word × Nat × Nat)) : List (Nat × Nat) :=
  ((ls.filter fun l => !onChip (refTid l.2.1)).map fun l => (refTid l.2.1, l.2.2.1)).eraseDups

/-- Every unplaced tile that a lane reads is placed, each once for the access (R149, R244). -/
def placeLanes (s : State) (ls : List (Nat × Word × Nat × Nat)) : State :=
  eachTile (fun u tid tile => placeRead u u.focus (me u) tid tile) s (laneTiles ls)
/-- The same for the tiles that lanes write. -/
def placeStores (s : State) (ls : List (Nat × Word × Nat × Nat)) : State :=
  eachTile (fun u tid tile => placeWrite u u.focus (me u) tid tile) s (laneTiles ls)

/-- Each lane's storage addresses; none on a non-resident tile. -/
def laneAddrs (s : State) (w : Nat) (ls : List (Nat × Word × Nat × Nat)) : List (Nat × List Nat) :=
  ls.map fun (i, r, tile, off) => (i, bytesAt s s.focus (me s) i (refTid r) tile off w)
/-- The same for lanes that write. -/
def storeAddrs (s : State) (w : Nat) (ls : List (Nat × Word × Nat × Nat)) : List (Nat × List Nat) :=
  ls.map fun (i, r, tile, off) =>
    (i, if canWrite s (me s) (refTid r) tile then bytesAt s s.focus (me s) i (refTid r) tile off w else [])

/-- Lanes of a contiguous access: lane `i` at B_loc + i * w; in a slice every lane has its own copy of one offset. -/
def contigLocs (s : State) (r : Word) (w : Nat) (m : Pred) : List (Nat × Word × Nat × Nat) :=
  match locate s (me s) r with
  | none => []
  | some (tile, off) => (lanesList m).map fun i => (i, r, tile, if refTid r = 0xFFF0 then off else off + i * w)

/-- Lanes of a gather or scatter. -/
def gatherLocs (s : State) (r : Word) (vb : Vec) (m : Pred) : List (Nat × Word × Nat × Nat) :=
  laneLocs s ((lanesList m).map fun i => (i, refAdd r ((lane vb i).signExtend 64)))

/-- Lanes found non-resident. -/
def nrLanes (as : List (Nat × List Nat)) : Pred :=
  (as.filter fun p => p.2.isEmpty).foldl (fun m p => m ||| ((1 : Pred) <<< p.1)) 0

/-- The p15 update of an access with window 1 (R149). -/
def putP15 (s : State) (nr : Pred) : State := putP s 15 nr nr 1 0

/-- A vector load (R150, R153). -/
def loadVector (s : State) (d : Reg) (r : Word) (ls : List (Nat × Word × Nat × Nat)) (w : Nat) (acq : Bool) (oc : BitVec 4)
    (m : Pred) : State :=
  let long := isLong r
  let s0 := if long then placeLanes s ls else beforeChip s oc
  let as := laneAddrs s0 w ls
  let k := me s0
  let parts := as.map fun p => (⟨p.1, p.2, forwards s0 k (swzId (refTid r)) p.2⟩ : LoadPart)
  let l : LongLoad :=
    { id := k.nload, issued := s.now, dest := .v d.toNat, width := w, sext := true, cls := oc,
      scope := scopeOf k.live oc, acquire := acq, atomic := none, ref := r, parts := parts, nr := nrLanes as, mask := m,
      opnd := 0, opnd2 := 0, vec := true, cancelled := false, handed := true, committed := false,
          slot := s.latch.slot, pc := k.bpc }
  if long then postLoad (newPlace s0) l
  else
    addChipLoad (newPlace s0) (.v d.toNat) (loadResult l (loadLanes s0 s0.focus l parts)) m (chipWindow (refTid r)) acq

/-- The byte cells of a vector store, lanes in order: where two lanes name one byte, the higher lane's stands last (R151). -/
def laneCells (v : Vec) (as : List (Nat × List Nat)) : List (Nat × Byte) :=
  as.flatMap fun p => cellsAt p.2 (lane v p.1).toNat

/-- The entry of a vector store, its dropped lanes left out. -/
def vectorEntry (k : Ctx) (r : Word) (as : List (Nat × List Nat)) (w : Nat) (v ix : Vec) (oc : BitVec 4) (m : Pred)
    (sct rel : Bool) : StoreEntry :=
  { seq := k.nload, ref := r, cls := oc, scope := scopeOf k.live oc, width := w, vec := true, scatter := sct,
    mask := m &&& ~~~ nrLanes as, cells := laneCells v as, idx := ix, swz := swzId (refTid r), committed := false, release := rel }

/-- A vector store takes one entry if a lane is left (R151); `slice` accesses name no p15. -/
def storeVector (s : State) (r : Word) (ls : List (Nat × Word × Nat × Nat)) (w : Nat) (v ix : Vec) (oc : BitVec 4) (m : Pred)
    (sct : Bool) : State :=
  let s0 := placeStores s ls
  let as := storeAddrs s0 w ls
  let s1 := putP15 s0 (nrLanes as)
  let e := vectorEntry (me s0) r as w v ix oc m sct false
  if e.mask = 0 then s1
  else
    let s2 := newPlace s1
    setMe s2 { me s2 with wbuf := (me s2).wbuf ++ [e] }

/-- VSTL (R153). -/
def storeVectorRelease (s : State) (r : Word) (ls : List (Nat × Word × Nat × Nat)) (v : Vec) (oc : BitVec 4) (m : Pred) : State :=
  let s0 := placeStores s ls
  let as := storeAddrs s0 4 ls
  let s1 := putP15 s0 (nrLanes as)
  let e := vectorEntry (me s0) r as 4 v 0 oc m false true
  if e.mask = 0 then s1 else record (newPlace s1) (.stl e)

/-- A lane atomic (R154). -/
def atomicVector (s : State) (op : AtomicOp) (d : Reg) (r : Word) (ls : List (Nat × Word × Nat × Nat)) (v : Vec)
    (oc : BitVec 4) (m : Pred) : State :=
  let s0 := placeStores s ls
  let as := storeAddrs s0 4 ls
  let k := me s0
  let l : LongLoad :=
    { id := k.nload, issued := s.now, dest := .v d.toNat, width := 4, sext := false, cls := oc,
      scope := scopeOf k.live oc, acquire := false, atomic := some op, ref := r,
      parts := as.map fun p => ⟨p.1, p.2, []⟩, nr := nrLanes as, mask := m, opnd := v, opnd2 := 0,
      vec := true, cancelled := false, handed := false, committed := false,
      slot := s.latch.slot, pc := k.bpc }
  let s1 := newPlace s0
  record (setMe s1 { me s1 with loads := (me s1).loads ++ [l] }) (.atomic k.nload)

end Sys2Proof.Machine
end

