-- ==== Sys2Proof/Machine/Serai.lean ====
section
/-! DEFINITION. The Serai's task system: nodes, ready order, completion and failure of indices, publication, abort and split
(R220 to R232, R216, R222, R375). -/

namespace Sys2Proof.Machine

/-! ### Tables -/

def setSerai (s : State) (f : Serai → Serai) : State := { s with serai := f s.serai }
def idxKey (q : BitVec 32) (i : Nat) : Nat := q.toNat * 2 ^ 24 + i
def getTask (s : State) (e : Nat) : Option Task := s.serai.tasks.find e
def putTask (s : State) (e : Nat) (t : Task) : State := setSerai s fun r => { r with tasks := r.tasks.set e t }
def dropTask (s : State) (e : Nat) : State := setSerai s fun r => { r with tasks := r.tasks.erase e }
def getIndex (s : State) (k : Nat) : Option Index := s.serai.indices.find k
def putIndex (s : State) (k : Nat) (ix : Index) : State := setSerai s fun r => { r with indices := r.indices.set k ix }
def putManifest (s : State) (m : Manifest) : State :=
  setSerai s fun r => { r with manifests := r.manifests.set m.seq.toNat m }
def taskKey (t : Task) : Nat := idxKey t.seq t.index
/-- An index is live until it completes or fails (R198, R221). -/
def Index.isLive (ix : Index) : Bool := !ix.complete && ix.failed.isNone
/-- A count that saturates. -/
def satInc (n k top : Nat) : Nat := Nat.min (n + k) top

/-! ### Tensor 0 as the Serai reaches it (R232, R242) -/

def procCtx (pid : Nat) : Ctx := { Ctx.reset with pid := pid }

/-- The physical address of byte `a` of a process's tensor 0, an unplaced tile placed first. -/
def tensorZero (s : State) (pid a : Nat) (place : Bool) : State × Option Nat :=
  let k := procCtx pid
  match locate s k (mkRef 0 a) with
  | none => (s, none)
  | some (tile, off) =>
    let s1 := if place then placeTile s 2048 k 0 tile else s
    match lookTile s1 k 0 tile with
    | .resident b => (s1, some (b + off))
    | _ => (s1, none)

/-- Bytes of tensor 0 at package scope, low byte first; 0 where nothing is resident. -/
def seraiRead (s : State) (pid a : Nat) : Nat → Nat
  | 0 => 0
  | n + 1 =>
    let v := match (tensorZero s pid (a + n) false).2 with | some p => (s.mem.read p).toNat | none => 0
    seraiRead s pid a n + v * 2 ^ (8 * n)

/-- The Serai writes `n` bytes that lie in one tile of tensor 0, at their depot. -/
def seraiWrite (s : State) (pid a v n : Nat) : State × Bool :=
  match tensorZero s pid a true with
  | (s1, some p) => (writeDepots (carryTo s1 16 .plain (homeEnd p).toList) (cellsOf p v n), true)
  | (s1, none) => (s1, false)

/-- Every dirty line of every L2 of the package written back (R117, R232, R250). -/
def writeBackDies (s : State) : List Nat → State
  | [] => s
  | d :: r => writeBackDies (writeBackAll s d) r
def writeBackPackage (s : State) : State := writeBackDies s (s.dies.cells.map (·.1))

/-! ### Completion nodes (R231) -/

/-- The instance of a level's domain that holds a core; context and lane levels have no node (Table 9.5). -/
def levelUnit (code c : Nat) : Option Nat :=
  if code = 6 ∨ code = 5 then some 0
  else if code = 4 then some (stackOf c)
  else if code = 3 then some (dieOf c)
  else if code = 2 then some (clusterOf c)
  else if code = 1 then some c
  else none

def nodeKey (q : BitVec 32) (l unit : Nat) : Nat := (q.toNat * 8 + l) * 4096 + unit

/-- The unit of level `l` that holds a core. -/
def nodeUnit (m : Manifest) (l c : Nat) : Option Nat := levelUnit (m.levels.getD l (0, 0)).1 c

/-- A placement on core `c` enters its node of level `l`. -/
def nodeIn (s : State) (m : Manifest) (c l : Nat) : State :=
  match nodeUnit m l c with
  | some u =>
    let key := nodeKey m.seq l u
    setSerai s fun r => { r with nodes := r.nodes.set key (r.nodes.get 0 key + 1) }
  | none => s

/-- A placement leaves its node of level `l`; one that drains raises its event if EVMASK asks for it, after the writes under it have
been performed at its scope. -/
def nodeOut (s : State) (m : Manifest) (c l : Nat) : State :=
  match nodeUnit m l c with
  | some u =>
    let key := nodeKey m.seq l u
    let n := s.serai.nodes.get 0 key
    let s1 := setSerai s fun r => { r with nodes := r.nodes.set key (n - 1) }
    if n = 1 ∧ m.evmask.getLsbD l then
      let s2 := if 4 ≤ (m.levels.getD l (0, 0)).1 then writeBackPackage s1 else s1
      event s2 0x0D [BitVec.ofNat 64 (m.seq.toNat * 2 ^ 32 + l)]
    else s1
  | none => s

/-- A placement enters its nodes. -/
def nodesIn (s : State) (m : Manifest) (c : Nat) : Nat → State
  | 0 => s
  | l + 1 => nodeIn (nodesIn s m c l) m c l

/-- A placement leaves its nodes. -/
def nodesOut (s : State) (m : Manifest) (c : Nat) : Nat → State
  | 0 => s
  | l + 1 => nodeOut (nodesOut s m c l) m c l

/-- A placement goes from core `c` to core `d`: a node of an instance that holds both counts it throughout. -/
def nodesMove (s : State) (m : Manifest) (c d : Nat) : Nat → State
  | 0 => s
  | l + 1 =>
    let s1 := nodesMove s m c d l
    if nodeUnit m l c = nodeUnit m l d then s1 else nodeIn (nodeOut s1 m c l) m d l

/-! ### The root (R232) -/

/-- The completion record's words 0 to 3 (Table 9.10). -/
def recordWords (m : Manifest) : List Nat :=
  let f := match m.failed with
    | some (i, d, c) => (2, c, i, d)
    | none => if m.bad then (2, 4, 0, 0) else (1, 0, 0, 0)
  [0,
   Nat.min m.underzero (2 ^ 32 - 1) * 2 ^ 32 + Nat.min m.satblk (2 ^ 32 - 1),
   f.2.2.1 % 2 ^ 24 * 2 ^ 40 + f.2.2.2 % 256 * 2 ^ 32 + Nat.min m.nsplit (2 ^ 32 - 1),
   m.seq.toNat * 2 ^ 32 + f.1 * 2 ^ 24 + f.2.1 * 2 ^ 16]

/-- Words 0 to 2, then word 3, each in its own write; the answer says whether all were written. -/
def writeRecord (s : State) (pid a : Nat) : List Nat → State × Bool
  | [] => (s, true)
  | w :: r =>
    match seraiWrite s pid a w 8 with
    | (s1, true) => writeRecord s1 pid (a + 8) r
    | (s1, false) => (s1, false)

/-- The root reaches 0: the record, then the root event; the manifest is done (R232). -/
def finishRoot (s : State) (q : BitVec 32) : State :=
  match manifestOf s q with
  | none => s
  | some m =>
    let s0 := writeBackPackage s
    let a := m.cmpl.toNat % 2 ^ 48
    let w := if m.cmpl = 0 then (s0, true) else writeRecord s0 m.pid a (recordWords m)
    let pay := BitVec.ofNat 64 (q.toNat * 2 ^ 32 + b2n (!w.2) * 16 + 15)
    let s1 := event w.1 0x0D [pay]
    let s2 := if m.fabric then
        { s1 with host := { s1.host with nodeWait := s1.host.nodeWait ++ [pay] } } else s1
    setSerai s2 fun r => { r with
      manifests := r.manifests.erase q.toNat
      indices := r.indices.filter fun k _ => k / 2 ^ 24 != q.toNat
      caravans := r.caravans.filter fun _ v => v.seq != q
      nodes := r.nodes.filter fun k _ => k / 4096 / 8 != q.toNat }

/-! ### Ready order and the schedulers (R213, R224, R361, R368) -/

/-- Does a cluster lie in the level-0 instance of a manifest? -/
def inInstance (m : Manifest) (q : Nat) : Bool :=
  let code := (m.levels.headD (5, 0)).1
  if code = 6 ∨ code = 5 then true
  else if code = 4 then q / 32 == m.inst0
  else if code = 3 then q / 16 == m.inst0
  else if code = 2 then q == m.inst0
  else if code = 1 then q == m.inst0 / 8
  else q == m.inst0 / 4 / 8

/-- The cluster that the level-0 instance of a manifest is or lies in. -/
def levelCluster (m : Manifest) : Option Nat :=
  let code := (m.levels.headD (5, 0)).1
  if code = 2 then some m.inst0 else if code = 1 then some (m.inst0 / 8) else if code = 0 ∨ code = 7 then some (m.inst0 / 4 / 8) else none

/-- Does context `x` of core `c` lie in the level-0 instance? A lane level 0 bounds placement as a context level does. -/
def placeInInstance (m : Manifest) (c x : Nat) : Bool :=
  let code := (m.levels.headD (5, 0)).1
  if code = 1 then c == m.inst0
  else if code = 7 ∨ code = 0 then c * 4 + x == m.inst0
  else inInstance m (clusterOf c)

def queuedOn (t : Task) : Bool := match t.st with | .ready | .placed | .saved => true | _ => false
def stackTasks (s : State) (k : Nat) : Nat := (s.serai.tasks.cells.filter fun e => queuedOn e.2 && e.2.stack == k).length
def clusterTasks (s : State) (q : Nat) : Nat := (s.serai.tasks.cells.filter fun e => queuedOn e.2 && e.2.cluster == q).length

/-- The element of the list with the least measure, the first on ties. -/
def fewest (f : Nat → Nat) : List Nat → Option Nat
  | [] => none
  | a :: r => match fewest f r with
    | some b => if f b < f a then some b else some a
    | none => some a

def clusterUp (s : State) (q : Nat) : Bool := (getCluster s q).st == 0
/-- Is a die out of placement: in warm reset (R346)? -/
def dieDown (s : State) (d : Nat) : Bool := (getDie s d).rphase != 0
def excluded (s : State) (k : Nat) : Bool :=
  (if s.now ≤ s.pkg.exclAt then s.pkg.exclOld else s.pkg.stkexcl).getLsbD k
def clustersOf (k : Nat) : List Nat := (List.range 32).map fun i => 32 * k + i
/-- Stacks in service (R368). -/
def inService (s : State) : List Nat := (List.range 8).filter fun k => !excluded s k

/-- Candidate stacks of a manifest, those of `avoid` left out. -/
def stackCands (s : State) (m : Manifest) (avoid : List Nat) : List Nat :=
  let live := fun k => (clustersOf k).any fun q => inInstance m q && !dieDown s (q / 16)
  let up := fun k => (clustersOf k).any fun q => clusterUp s q
  let all := (inService s).filter fun k => live k && !avoid.contains k
  let ups := all.filter up
  if ups.isEmpty then all else ups

/-- The cluster of a stack, and whether every candidate is gated. A gated cluster is no candidate while its stack holds one in STATE 0,
in the instance or not (R224, R361). -/
def chooseCluster (s : State) (m : Manifest) (k : Nat) : Option (Nat × Bool) :=
  let all := (clustersOf k).filter fun q => inInstance m q && !dieDown s (q / 16)
  let ups := all.filter (clusterUp s)
  if ups.isEmpty then (if (clustersOf k).any (clusterUp s) then none else (fewest (clusterTasks s) all).map fun q => (q, true))
  else (fewest (clusterTasks s) ups).map fun q => (q, false)

/-- WAKEREQ bits of a die set; they are kept with their master cycle, in which they win over a clearing write (R362). -/
def setWakeBits (s : State) (n : Nat) (v : BitVec 16) : State :=
  let d := getDie s n
  setDie s n { d with
    wakereq := d.wakereq ||| v
    wakeSet := (if d.wakeSetAt = s.now then d.wakeSet else 0) ||| v
    wakeSetAt := s.now }

/-- A cluster's WAKEREQ bit set (R361). -/
def setWake (s : State) (q : Nat) : State := setWakeBits s (q / 16) ((1 : BitVec 16) <<< (q % 16))

/-- Compute stacks that other live members of a caravan take. -/
def memberStacks (s : State) (t : Task) (e : Nat) : List Nat :=
  match t.car with
  | none => []
  | some v => ((s.serai.tasks.cells.filter fun o => o.1 != e && o.2.seq == t.seq && o.2.car == some v
      && (queuedOn o.2 || o.2.st == .returned)).map fun o => o.2.stack)

/-- Is a task a member that its caravan has issued again (R265)? -/
def reissuedMember (s : State) (t : Task) : Bool :=
  t.car.any fun v => (s.serai.caravans.find (t.seq.toNat * 2 ^ 32 + v)).any fun c => c.reissued.contains t.member

/-- The stack of a task: members of one caravan go to distinct stacks (R224, R230), wrapping round where too few are in service (R368). One
issued again goes to a stack that holds no other member, where one exists (R265). -/
def chooseStack (s : State) (m : Manifest) (t : Task) (e : Nat) : Option Nat :=
  let serv := inService s
  let c := stackCands s m (memberStacks s t e)
  if t.car.isSome && decide (codeK m + codeM m > serv.length) && (c.isEmpty || !reissuedMember s t) then
    serv[t.member % Nat.max 1 serv.length]?
  else fewest (stackTasks s) (if c.isEmpty then stackCands s m [] else c)

/-- A ready task sets the WAKEREQ bit of a gated cluster that its level-0 instance is or lies in, be it queued there or held (R361). -/
def wakeLevel (s : State) (m : Manifest) : State :=
  match levelCluster m with | some q => if clusterUp s q then s else setWake s q | none => s

/-- A task joins the queue of a cluster of stack `k`; with no candidate it waits in the Serai. -/
def queueOn (s : State) (e : Nat) (t : Task) (m : Manifest) (k : Option Nat) : State :=
  let n := s.serai.order
  let s1 := wakeLevel (setSerai s fun r => { r with order := n + 1 }) m
  match k with
  | none => putTask s1 e { t with st := .held, order := n }
  | some k => match chooseCluster s m k with
    | none => putTask s1 e { t with st := .held, order := n }
    | some (q, gated) =>
      let s2 := putTask s1 e { t with st := .ready, stack := k, cluster := q, order := n, since := s.now }
      if gated then setWake s2 q else s2

/-- The place of this package in the outer placement list of a manifest: a group below KO, KO + j - 1 for outer outrider j (R271,
R372). -/
def outerPlace (s : State) (m : Manifest) : Option Nat :=
  (List.range (outerK m + outerM m)).find? fun e => m.outpl.toNat / 256 ^ e % 256 == pkgNo s

/-- Records of a group. -/
def groupSize (m : Manifest) : Nat := m.ntask / Nat.max 1 (outerK m)

/-- Does the group of an index of an outer-coded manifest run in another package (R271)? -/
def elsewhere (s : State) (m : Manifest) (i : Nat) : Bool :=
  outerCoded m && decide (i < outerBase) && outerPlace s m != some (recIndex m i / Nat.max 1 (groupSize m))

/-- A task becomes ready; what runs in another package is not queued here. -/
def queueTask (s : State) (e : Nat) : State :=
  match getTask s e with
  | none => s
  | some t => match manifestOf s t.seq with
    | none => s
    | some m => if elsewhere s m t.index then s else queueOn s e t m (chooseStack s m t e)

def queueTasks (s : State) : List Nat → State
  | [] => s
  | e :: r => queueTasks (queueTask s e) r

/-- Tasks held in the Serai for want of a candidate are queued again. -/
def requeueHeld (s : State) : State :=
  queueTasks s ((s.serai.tasks.cells.filter fun e => e.2.st == .held && decide (e.1 < Config.depEntries)).map (·.1))

/-- An index becomes ready: its waiting tasks are queued, but for those that still lack an entry of the table (R223). -/
def readyOne (s : State) (k : Nat) : State :=
  match getIndex s k with
  | none => s
  | some ix =>
    let s1 := putIndex s k { ix with isReady := true }
    queueTasks s1 ((s1.serai.tasks.cells.filter fun e =>
      taskKey e.2 == k && e.2.st == .waiting && decide (e.1 < Config.depEntries)).map (·.1))

def readyAll (s : State) : List Nat → State
  | [] => s
  | k :: r => readyAll (readyOne s k) r

/-- The outriders of a caravan become ready with its last data task (R375); a data index that has failed is not waited for. -/
def readyOutriders (s : State) (m : Manifest) (q : Nat) : State :=
  let settled := (List.range (codeK m)).all fun j =>
    match getIndex s (idxKey m.seq (codeK m * q + j)) with | some y => y.isReady || !y.isLive | none => true
  let due := ((List.range (codeM m)).map fun j => idxKey m.seq (m.ntask + codeM m * q + j)).filter fun k =>
    match getIndex s k with | some y => !y.isReady && y.isLive | none => false
  if settled then readyAll s due else s

/-- The outer outrider of record `t` that runs in this package becomes ready with the last data task of that record of the groups. -/
def readyOuter (s : State) (m : Manifest) (t : Nat) : State :=
  match outerPlace s m with
  | none => s
  | some p =>
    if p < outerK m then s
    else
      let settled := (List.range (outerK m)).all fun g =>
        match getIndex s (idxKey m.seq (g * groupSize m + t)) with | some y => y.isReady || !y.isLive | none => true
      let k := idxKey m.seq (outerIndex (p - outerK m + 1) t)
      if settled && (getIndex s k).any fun y => !y.isReady && y.isLive then readyOne s k else s

def readyOuters (s : State) (m : Manifest) : List Nat → State
  | [] => s
  | t :: r => readyOuters (readyOuter s m t) m r

/-- An index becomes ready. -/
def readyIndex (s : State) (k : Nat) : State :=
  let s1 := readyOne s k
  match getIndex s1 k with
  | none => s1
  | some ix => match manifestOf s1 ix.seq with
    | none => s1
    | some m =>
      if m.coded ∧ ix.index < m.ntask then readyOuter (readyOutriders s1 m (indexCar m ix.index)) m (ix.index % Nat.max 1 (groupSize m))
      else s1

/-! ### Completion and failure of indices (R221, R289) -/

/-- One decrement by the completion of index `k`; at a counter of 0 it is dropped (R289). -/
def decrementFor (s : State) (k y : Nat) : State :=
  match getIndex s y with
  | none => s
  | some ix =>
    let d := { ix with deps := ix.deps.filter fun q => q != k }
    if ix.counter = 0 ∨ !ix.isLive then putIndex s y d
    else
      let s1 := putIndex s y { d with counter := ix.counter - 1 }
      if ix.counter = 1 ∧ !ix.isReady then readyIndex s1 y else s1

def decrementAll (s : State) (k : Nat) : List Nat → State
  | [] => s
  | y :: r => decrementAll (decrementFor s k y) k r

def dependents (s : State) (k : Nat) : List Nat :=
  (s.serai.indices.cells.filter fun e => e.2.deps.contains k).map (·.1)

/-- A held split child takes a freed entry (R223). -/
def fillEntry (s : State) (e : Nat) : State :=
  if Config.depEntries ≤ e then s
  else match s.serai.tasks.cells.find? fun o => Config.depEntries ≤ o.1 with
    | some (h, t) =>
      let s1 := putTask (dropTask s h) e t
      match manifestOf s1 t.seq with
      | some m =>
        if t.st = .held then queueOn s1 e t m (some t.stack)
        else if t.st = .waiting ∧ (getIndex s1 (taskKey t)).any (·.isReady) = true then queueTask s1 e
        else s1
      | none => s1
    | none => s

/-- A live task ends: it leaves its nodes and its entry; with the last descendant its index completes, or its failure stands, and
the root counts down (R221, R231, R232). -/
def endTask (s : State) (e : Nat) : State :=
  match getTask s e with
  | none => s
  | some t =>
    let key := taskKey t
    let s1 := match manifestOf s t.seq with
      | some m => if t.inNode then nodesOut s m t.core m.levels.length else s
      | none => s
    let s2 := fillEntry (dropTask s1 e) e
    match getIndex s2 key with
    | none => s2
    | some ix =>
      let n := ix.live - 1
      if n ≠ 0 then putIndex s2 key { ix with live := n }
      else
        let s3 := putIndex s2 key { ix with live := 0, complete := ix.failed.isNone }
        let s4 := if ix.failed.isNone then decrementAll s3 key (dependents s3 key) else s3
        match manifestOf s4 t.seq with
        | none => s4
        | some m =>
          let s5 := putManifest s4 { m with root := m.root - 1 }
          if m.root = 1 then finishRoot s5 t.seq else s5

def endTasks (s : State) : List Nat → State
  | [] => s
  | e :: r => endTasks (endTask s e) r

/-- The failure with the lowest task index (R232). -/
def lowerFailure (old : Option (Nat × Nat × Nat)) (i d c : Nat) : Option (Nat × Nat × Nat) :=
  match old with
  | some f => if f.1 ≤ i then some f else some (i, d, c)
  | none => some (i, d, c)

/-- An index is marked failed, with its depth and cause. -/
def markFailed (s : State) (k d c : Nat) : State :=
  match getIndex s k with
  | none => s
  | some ix =>
    if !ix.isLive then s
    else
      let s1 := putIndex s k { ix with failed := some (d, c) }
      match manifestOf s1 ix.seq with
      | some m => putManifest s1 { m with failed := lowerFailure m.failed ix.index d c }
      | none => s1

/-- Tasks of an index of which no task has been placed: it is withdrawn without running. One that has been placed runs on, its queued
split children included. -/
def unplaced (s : State) (k : Nat) : List Nat :=
  if (getIndex s k).any (·.placed) then []
  else (s.serai.tasks.cells.filter fun e => taskKey e.2 == k &&
    (match e.2.st with | .waiting | .held | .ready => true | _ => false)).map (·.1)

/-- Live indices that a failure reaches through derived dependences, in rising order; `fuel` bounds their depth. -/
def failWave (s : State) (ks : List Nat) : Nat → State
  | 0 => s
  | f + 1 =>
    let next := (s.serai.indices.cells.filter fun e => e.2.isLive && ks.any fun k => e.2.deps.contains k).map (·.1)
    if next.isEmpty then s
    else
      let s1 := next.foldl (fun t k => markFailed t k 0 3) s
      let s2 := next.foldl (fun t k => endTasks t (unplaced t k)) s1
      failWave s2 next f

/-- Outriders of every caravan whose data tasks are all ready or failed. -/
def settleCaravans (s : State) : List (Nat × Caravan) → State
  | [] => s
  | e :: r =>
    settleCaravans (match manifestOf s e.2.seq with
      | some m => if outerCoded m then readyOuters (readyOutriders s m e.2.q) m (List.range (groupSize m)) else readyOutriders s m e.2.q
      | none => s) r

/-- An index fails; every derived dependent fails with cause 3, and what of it is not placed is withdrawn (R221). -/
def failIndex (s : State) (k d c : Nat) : State :=
  let s1 := failWave (markFailed s k d c) [k] (s.serai.indices.cells.length + 1)
  settleCaravans s1 s1.serai.caravans.cells

/-! ### Shadows and publication (R216, R222, R256) -/

/-- Frames returned to their memory stacks. -/
def freeFrames (s : State) : List (Nat × Nat) → State
  | [] => s
  | f :: r => freeFrames (freeFrame s f.2) r

/-- A task's frames set aside for shadows that it never made are free again. -/
def dropSpares (s : State) (e : Nat) : State :=
  match getTask s e with
  | none => s
  | some t => putTask (freeFrames s t.spares) e { t with spares := [] }

/-- A task's shadow frames are dropped. -/
def dropShadows (s : State) (e : Nat) : State :=
  match getTask s e with
  | none => s
  | some t => putTask (freeFrames s (t.shadows ++ t.spares)) e { t with shadows := [], spares := [] }

/-- Dirty lines of a range are written back from every L2. -/
def flushDie (s : State) (d a n : Nat) : State :=
  writeBackLines s d (((getDie s d).l2.cells.filter fun e => e.2.dirty != 0 && decide (a / 64 ≤ e.1) && decide (e.1 * 64 < a + n)).map (·.1))
def flushDies (s : State) (a n : Nat) : List Nat → State
  | [] => s
  | d :: r => flushDies (flushDie s d a n) a n r
def flushRange (s : State) (a n : Nat) : State := flushDies s a n (s.dies.cells.map (·.1))

/-- Monitors on a range of bytes fire: a publication swap writes every line of it (R192). -/
def fireRange (s : State) (a n : Nat) : State :=
  { s with cores := s.cores.map fun _ k =>
      { k with ctxs := k.ctxs.map fun _ t =>
          if t.mon.st = .armed ∧ t.mon.established ∧
              (t.mon.addrs.any fun q => match resolve s q with | some p => decide (a ≤ p) && decide (p < a + n) | none => false)
          then { t with mon := { t.mon with st := .fired } } else t } }

/-- A byte address of frame `old` names the same byte of frame `new`. -/
def moveAddr (old new a : Nat) : Nat := if old ≤ a ∧ a < old + 65536 then new + (a - old) else a

/-- Accesses of a context that are not yet performed follow a tile to its new frame (R256): a load performed at or after the swap
returns published bytes. -/
def moveCtx (old new : Nat) (k : Ctx) : Ctx :=
  let m := moveAddr old new
  { k with
    loads := k.loads.map fun l => { l with parts := l.parts.map fun p => { p with addrs := p.addrs.map m } }
    wbuf := k.wbuf.map fun e => { e with cells := e.cells.map fun w => (m w.1, w.2) }
    copyq := k.copyq.map fun q => { q with frames := q.frames.map fun f => (f.1, f.2.map m) }
    mon := { k.mon with addrs := k.mon.addrs.map m } }

/-- Every context of a checkpoint changed. -/
def mapCkpt (f : Ctx → Ctx) (c : Ckpt) : Ckpt := { c with ctxs := c.ctxs.map fun q => (q.1, q.2.1, f q.2.2) }

/-- Every context changed: those on their cores, in images and in checkpoints. -/
def mapCtxs (s : State) (f : Ctx → Ctx) : State :=
  { s with
    cores := s.cores.map fun _ k => { k with ctxs := k.ctxs.map fun _ t => f t }
    dies := s.dies.map fun _ d => { d with ckpt := d.ckpt.map (mapCkpt f), capture := d.capture.map (mapCkpt f) }
    serai := { s.serai with images := s.serai.images.map fun _ i => { i with ctx := f i.ctx } } }

/-- Monitors on one run of 64 KiB stand on another from now on. -/
def moveMonitors (s : State) (old new : Nat) : State :=
  mapCtxs s fun k => { k with mon := { k.mon with addrs := k.mon.addrs.map (moveAddr old new) } }

/-- The same for every context of the package, and for the stores of a waypoint bundle that waits for its commit. -/
def moveAll (s : State) (old new : Nat) : State :=
  mapCtxs s fun k =>
    { moveCtx old new k with
      acts := k.acts.map fun a => match a with
        | .stl e => .stl { e with cells := e.cells.map fun w => (moveAddr old new w.1, w.2) }
        | .copy q => .copy { q with frames := q.frames.map fun f => (f.1, f.2.map (moveAddr old new)) }
        | b => b }

/-- One mapping swap: the frame becomes the tile's published contents, and every cached copy of the old and the new lines leaves the
package. -/
def swapTile (s : State) (pid key frame : Nat) : State :=
  match (getProc s pid).tensors.find (key / 2 ^ 48) with
  | none => freeFrame s frame
  | some l =>
    let n := entryAt s l (key % 2 ^ 48)
    let s1 := dropCopies (flushRange s frame 65536) frame 65536
    let ent := 2 ^ 62 + pkgNo s * 2 ^ 48 + frame / 65536 * 65536
    if n / 2 ^ 62 = 1 then
      let old := frameOf s n
      let s2 := moveAll (fireRange (dropCopies s1 old 65536) old 65536) old frame
      let s3 := { s2 with mem := Memory.writeN s2.mem (l.ttab + 8 * (key % 2 ^ 48)) ent 8 }
      if old < hbmTop then freeFrame s3 old else s3
    else
      let s2 := fireRange (moveMonitors s1 (absentByte pid key 0) frame) frame 65536
      { s2 with mem := Memory.writeN s2.mem (l.ttab + 8 * (key % 2 ^ 48)) ent 8 }

def swapTiles (s : State) (pid : Nat) : List (Nat × Nat) → State
  | [] => s
  | f :: r => swapTiles (swapTile s pid f.1 f.2) pid r

/-- Full-domain write and read sets of an index; an outrider has none (R220, R230). -/
def indexWrites (m : Manifest) (i : Nat) : List (Nat × Nat) :=
  if m.ntask ≤ i then [] else writeRuns m i (recFor m i).origin (fullHi m i)
def indexReads (m : Manifest) (i : Nat) : List (Nat × Nat) := readRuns m i (recFor m i).origin (fullHi m i)

/-- Has a live task of index `key` still to publish a tile that it covers? -/
def owes (s : State) (key tile : Nat) : Bool :=
  s.serai.tasks.cells.any fun o => taskKey o.2 == key && covers (taskRuns s o.2) tile
    && (o.2.st != .publishing || (findCell tile o.2.shadows).isSome)

/-- May index `key` publish the tile: every preceding live index that reads it has completed, and every one that writes it has
published it, with all of its tasks that cover it (R222)? -/
def mayPublish (s : State) (pid key tile : Nat) : Bool :=
  s.serai.indices.cells.all fun e =>
    decide (key ≤ e.1) || !e.2.isLive ||
      match manifestOf s e.2.seq with
      | none => true
      | some m => m.pid != pid ||
          (!covers (indexReads m e.2.index) tile && (!covers (indexWrites m e.2.index) tile || (e.2.published.contains tile && !owes s e.1 tile)))

/-- Tiles of a retired task that can be published now: those that no task of the index has published, and its shadows of the
others. -/
def publishable (s : State) (t : Task) : List Nat :=
  match getIndex s (taskKey t) with
  | none => []
  | some ix =>
    ((runTiles (taskRuns s t)).filter fun a =>
      (!ix.published.contains a || (findCell a t.shadows).isSome) && mayPublish s t.pid (taskKey t) a)

/-- Block counts join the operator's (R69, R288). -/
def addCounts (s : State) (q : BitVec 32) (u n : Nat) : State :=
  match manifestOf s q with
  | some m => putManifest s { m with underzero := satInc m.underzero u (2 ^ 32 - 1), satblk := satInc m.satblk n (2 ^ 32 - 1) }
  | none => s

/-- Are all tiles of a retired task published? -/
def allOut (s : State) (t : Task) (done : List Nat) : Bool := t.shadows.isEmpty && (runTiles (taskRuns s t)).all done.contains

/-- The tiles that can be published are swapped; once all are, the retirement counts toward completion (R222). An index that has
failed publishes nothing (R221, R229); the block counts of its tasks that run to retirement count all the same (R69, R288). -/
def publishTask (s : State) (e : Nat) : State :=
  match getTask s e with
  | none => s
  | some t =>
    match getIndex s (taskKey t) with
    | none => endTask (dropShadows s e) e
    | some ix =>
      if !ix.isLive then endTask (addCounts (dropShadows s e) t.seq t.under t.sat) e
      else
        let now := publishable s t
        let s1 := swapTiles s t.pid (t.shadows.filter fun f => now.contains f.1)
        let done := ix.published ++ now.filter fun a => !ix.published.contains a
        let s2 := putIndex s1 (taskKey t) { ix with published := done }
        let u := { t with shadows := t.shadows.filter fun f => !now.contains f.1 }
        let s3 := putTask s2 e u
        if allOut s u done then endTask (addCounts s3 t.seq t.under t.sat) e else s3

/-! ### Leaving a context -/

/-- The valid bits of w0 to w7 cleared; the values stay (R160, Table 2.2, R227). -/
def twinCleared (k : Ctx) : Ctx := { k with w := k.w.map fun _ r => { r with valid := false } }

/-- A hardware context that holds no task. The w registers stand until a task starts there, a save or an abort clears the valid
bits, or the die is reset. -/
def freedCtx (k : Ctx) : Ctx := { Ctx.reset with w := k.w, lastIssue := k.lastIssue, rqout := [] }

/-- The engine jobs of a context end (Table 9.9). -/
def killJobs (k : Core) (x : Nat) : Core :=
  { k with
    mma := k.mma.filter fun j => j.x != x
    drain := k.drain.filter fun j => j.x != x }

/-- Who sent something: a task, wherever it stands, or a context without one. -/
def senderOf (task : Option Nat) (c x : Nat) : Option Nat × Nat × Nat :=
  match task with
  | some e => (some e, 0, 0)
  | none => (none, c, x)

/-- What a context without a task has sent follows it from one name to another, an image slot's among them. -/
def renameSent (s : State) (c x y : Nat) : State :=
  let is := fun (task : Option Nat) (d z : Nat) => task.isNone && d == c && z == x
  let s1 := setSerai s fun r => { r with
    launches := r.launches.map fun l => if l.byTask && is l.task l.core l.x then { l with x := y } else l
    dsigs := r.dsigs.map fun d => if is d.task d.core d.x then { d with x := y } else d }
  { s1 with dies := s1.dies.map fun _ d => { d with evq := d.evq.map fun v => if is v.task v.core v.x then { v with x := y } else v } }

/-- A page request is answered: it is outstanding no longer (R195). -/
def removeReq (n : BitVec 32) (k : Ctx) : Ctx := { k with rqout := k.rqout.filter fun q => q != n }

/-- A number that no task has. -/
def deadTask : Nat := 2 ^ 64

/-- What a task has sent and the Serai has not yet settled loses its sender: page replies are no longer posted (R195, R227), and
launches, signals and events wait for no store and answer to no register. -/
def orphanRequests (s : State) (e : Nat) : State :=
  let f := fun (p : PageReq) => if p.task = some e then { p with task := none } else p
  let g := fun (d : Dsig) => if d.task = some e then { d with task := some deadTask, place := 0 } else d
  let s1 := setSerai s fun r => { r with
    pageReqs := r.pageReqs.map f, pending := r.pending.map f
    launches := r.launches.map fun l => if l.byTask ∧ l.task = some e then { l with task := some deadTask, place := 0, dest := 0 } else l
    dsigs := r.dsigs.map g }
  let h := fun (v : EvItem) => if v.task = some e then { v with task := some deadTask, place := 0 } else v
  { s1 with dies := s1.dies.map fun _ d => { d with evq := d.evq.map h } }

/-- A parked state of a context (of an image for `x` from 4 on) is discarded. -/
def dropParked (s : State) (c x : Nat) : State :=
  let t := twinOf c
  match (getCore s t).park with
  | some p => if p.core = c ∧ p.x = x then setCore s t { getCore s t with park := none } else s
  | none => s

/-- A licence that is PARKED for a context is free again. -/
def freeParkedLicence (s : State) (c x : Nat) : State :=
  let p := getPair s (pairOf c)
  if p.st = .parked ∧ p.parkedFor = some (c, x) then licNext s (pairOf c) c false else s

/-- The hardware context is freed: the licence goes as by LICR, waiting requests are withdrawn, engine jobs end. -/
def vacate (s : State) (c x : Nat) : State :=
  let s1 := licWithdraw (licRelease s c x false) c x
  let s2 := freeParkedLicence (dropParked (licReturn s1 c x false) c x) c x
  let s3 := setCore s2 c (killJobs (getCore s2 c) x)
  dropIssue (setCtx s3 c x (freedCtx (getCtx s3 c x))) c x

/-- Outstanding atomics that reach on-chip levels still perform; their results are discarded (R227). -/
def performOnChip (s : State) (c : Nat) : List LongLoad → State
  | [] => s
  | l :: r =>
    match l.atomic with
    | some op =>
      let chip := l.parts.filter fun p => p.addrs.all fun a => decide (hbmTop ≤ a) && decide (a < 2 ^ 49)
      performOnChip (if l.handed then (atomicLanes s c l op chip).1 else s) c r
    | none => performOnChip s c r

/-- A running save of a hardware context ends, and its slot is free. -/
def dropSave (s : State) (c x : Nat) : State :=
  setSerai s fun r => { r with images := r.images.filter fun _ i => !(i.saving && i.core == c && i.x == x) }

/-- The abort of a live task without its rebirth (Table 9.9). -/
def abortTask (s : State) (e : Nat) : State :=
  match getTask s e with
  | none => s
  | some t =>
    let s1 := orphanRequests (dropShadows s e) e
    let s2 := match manifestOf s1 t.seq with
      | some m => if t.inNode then nodesOut s1 m t.core m.levels.length else s1
      | none => s1
    let s3 := match whereIs t with
      | none => s2
      | some (c, x) =>
        let k := getAny s2 c x
        let f1 := forgetRun (freeFrames (performOnChip s2 c k.loads) (k.outFrames.map fun o => (o.key, o.frame))) c k.run
        if x < 4 then (let f2 := vacate (dropSave f1 c x) c x; setCtx f2 c x (twinCleared (getCtx f2 c x)))
        else
          let f2 := licWithdraw (freeParkedLicence (dropParked f1 c x) c x) c x
          setSerai f2 fun r => { r with images := r.images.erase (x - 4) }
    match getTask s3 e with
    | none => s3
    | some u => putTask s3 e { u with st := .waiting, shadows := [], spares := [], inNode := false }

/-! ### Splitting (R219, R228 to R230) -/

/-- Does every write-set record of an index scale along an axis (R215, R219)? -/
def scalesAlong (m : Manifest) (i a : Nat) : Bool :=
  let r := recFor m i
  ((m.sets.drop r.wridx).take r.nwr).all fun w =>
    (w.ax0 == a && w.step0 != 0) || (w.ax1 == a && w.step1 != 0)

def axisExtent (t : Task) (a : Nat) : Nat := t.hi.getD a 1 - t.lo.getD a 0
def axisGrain (m : Manifest) (a : Nat) : Nat := if a < m.nax then m.grains.getD a 1 else 1

/-- The divisible axes of a task. -/
def splitCands (m : Manifest) (t : Task) : List Nat :=
  (List.range 4).filter fun a => decide (axisGrain m a < axisExtent t a) && scalesAlong m t.index a

/-- The axis with the largest ratio of extent to grain, the lowest on ties. -/
def widest (m : Manifest) (t : Task) : List Nat → Option Nat
  | [] => none
  | a :: r => match widest m t r with
    | some b => if axisExtent t a * axisGrain m b < axisExtent t b * axisGrain m a then some b else some a
    | none => some a

/-- Extent of the lower half. -/
def lowerExtent (e g : Nat) : Nat := ((e + 1) / 2 + g - 1) / g * g

def setAt : List Nat → Nat → Nat → List Nat
  | [], _, _ => []
  | _ :: r, 0, v => v :: r
  | b :: r, a + 1, v => b :: setAt r a v

/-- The two halves of a task along axis `a` at lower extent `el`. -/
def lowerHalf (t : Task) (a el : Nat) : Task :=
  { t with hi := setAt t.hi a (t.lo.getD a 0 + el), depth := t.depth + 1, requeues := 0, refusals := 0, shadows := [], spares := [], st := .waiting, inNode := false }
def upperHalf (t : Task) (a el : Nat) : Task :=
  { t with lo := setAt t.lo a (t.lo.getD a 0 + el), depth := t.depth + 1, requeues := 0, refusals := 0, shadows := [], spares := [], st := .waiting, inNode := false }

/-- The lowest unused number from `n` on, among the next `fuel`. -/
def freeKey (s : State) : Nat → Nat → Nat
  | 0, n => n
  | f + 1, n => if (s.serai.tasks.find n).isSome then freeKey s f (n + 1) else n

/-- An entry for an upper child: a free one, else a place in the Serai until an entry frees (R223). -/
def childEntry (s : State) : Nat := freeKey s (s.serai.tasks.cells.length + 1) 0

/-- One task is replaced by its halves; the answer is the entry of the upper one. -/
def halve (s : State) (e : Nat) (t : Task) (a el : Nat) : State × Nat :=
  let s1 := putTask s e (lowerHalf t a el)
  let u := childEntry s1
  let s2 := putTask s1 u (upperHalf t a el)
  let s3 := match getIndex s2 (taskKey t) with
    | some ix => putIndex s2 (taskKey t) { ix with live := ix.live + 1 }
    | none => s2
  (match manifestOf s3 t.seq with
    | some m => putManifest s3 { m with nsplit := satInc m.nsplit 1 (2 ^ 32 - 1) }
    | none => s3, u)

/-- An aborted task fails its index: the smallest-grain fault (R229). -/
def grainFault (s : State) (e : Nat) (t : Task) : State := endTask (failIndex s (taskKey t) t.depth 1) e

/-- A child of a split is queued at the parent's stack scheduler; without an entry of its own it is held. -/
def queueChild (s : State) (e k : Nat) (m : Manifest) : State :=
  match getTask s e with
  | none => s
  | some t => if Config.depEntries ≤ e then putTask s e { t with st := .held, stack := k } else queueOn s e t m (some k)

/-- The rebirth of an aborted task that belongs to no caravan (R228). -/
def splitPlain (s : State) (e : Nat) (t : Task) (m : Manifest) : State :=
  match (if t.depth = 255 then none else widest m t (splitCands m t)) with
  | none => grainFault s e t
  | some a =>
    let h := halve s e t a (lowerExtent (axisExtent t a) (axisGrain m a))
    queueChild (queueChild h.1 e t.stack m) h.2 t.stack m

/-! ### Caravans aborting and splitting (R230, R269) -/

def carKey (q : BitVec 32) (v : Nat) : Nat := q.toNat * 2 ^ 32 + v
def getCaravan (s : State) (q : BitVec 32) (v : Nat) : Option Caravan := s.serai.caravans.find (carKey q v)
def putCaravan (s : State) (q : BitVec 32) (v : Nat) (c : Caravan) : State :=
  setSerai s fun r => { r with caravans := r.caravans.set (carKey q v) c }

/-- A caravan that has received nothing, over a domain. -/
def freshCaravan (seq : BitVec 32) (q : Nat) (off ext : List Nat) : Caravan :=
  { seq := seq, q := q, returns := [], lost := [], reissued := [], kth := none, deadline := false, retried := false, seen := [],
    off := off, ext := ext, done := false }

/-- The tasks of a caravan, by member. -/
def carTasks (s : State) (q : BitVec 32) (v : Nat) : List (Nat × Task) :=
  s.serai.tasks.cells.filter fun e => e.2.seq == q && e.2.car == some v

/-- A raw record of a return: 16 bytes of one of its frames; an unwritten tile reads as published (R258). -/
def returnFrame (s : State) (pid : Nat) (r : Return) (tile : Nat) : Option Nat :=
  match findCell tile r.frames with
  | some f => some f
  | none => match (getProc s pid).tensors.find (tile / 2 ^ 48) with
    | some l =>
      let n := entryAt s l (tile % 2 ^ 48)
      if n / 2 ^ 62 = 1 then some (frameOf s n) else none
    | none => none

def returnRecord (s : State) (pid : Nat) (r : Return) (tile i : Nat) : Nat :=
  match returnFrame s pid r tile with
  | some f => s.mem.readN (f + 16 * i) 16
  | none => 0

/-- The number of the caravan whose members are the packages of an outer code: no inner caravan has it. -/
def outerNo : Nat := 2 ^ 31

/-- The task index of a member of caravan `q`. -/
def memberIndex (m : Manifest) (q j : Nat) : Nat :=
  if j < codeK m then codeK m * q + j else m.ntask + codeM m * q + (j - codeK m)

/-- The tiles that a member's return holds, in the order of its write set: those of its record within the caravan's domain. -/
def memberTiles (m : Manifest) (c : Caravan) (j : Nat) : List Nat :=
  let i := memberIndex m c.q j
  let lo := List.zipWith (· + ·) (recFor m i).origin c.off
  runTiles (writeRuns m i lo (List.zipWith (· + ·) lo c.ext))

/-- The tiles of a group's return, record by record; an outer outrider's are those of group 0 (R271). -/
def groupTiles (m : Manifest) (p : Nat) : List Nat :=
  (List.range (groupSize m)).flatMap fun t => runTiles (indexWrites m ((if p < outerK m then p * groupSize m else 0) + t))

def returnTiles (s : State) (q : BitVec 32) (v member : Nat) : List Nat :=
  match manifestOf s q with
  | none => []
  | some m =>
    if v = outerNo then groupTiles m member
    else match getCaravan s q v with | some c => memberTiles m c member | none => []

/-- Is a record usable: reserved bits, INEXACT and OVF 0 (R264)? -/
def recordOk (w : Nat) : Bool := w / 2 ^ 96 == 0

/-- Is a return usable: every record of it is? -/
def usable (s : State) (q : BitVec 32) (v pid : Nat) (r : Return) : Bool :=
  (returnTiles s q v r.member).all fun tile => (List.range 4096).all fun i => recordOk (returnRecord s pid r tile i)

def usableReturns (s : State) (q : BitVec 32) (v pid : Nat) (c : Caravan) : List Return :=
  c.returns.filter (usable s q v pid)

/-- POLICY of a coded manifest (Table 9.4). -/
def policyOf (m : Manifest) : Nat := m.code.toNat / 2 ^ 8 % 4

/-- Members that hold a copy of data block `i` of a replicating caravan: the data task and its replicas (R270). -/
def copiesOf (m : Manifest) (i : Nat) : List Nat :=
  i :: ((List.range (codeM m)).filter fun j => j % codeK m == i).map (codeK m + ·)

/-- K and M of a caravan: those of the outer code for the packages. -/
def carK (m : Manifest) (v : Nat) : Nat := if v = outerNo then outerK m else codeK m
def carM (m : Manifest) (v : Nat) : Nat := if v = outerNo then outerM m else codeM m

/-- Does a caravan replicate (R270)? -/
def isReplica (m : Manifest) (v q : Nat) : Bool := v != outerNo && m.replicas.contains q

/-- Do these members suffice for a decode: any K, or one copy of each block (R265, R270)? -/
def suffice (m : Manifest) (v q : Nat) (us : List Nat) : Bool :=
  if isReplica m v q then (List.range (codeK m)).all fun i => (copiesOf m i).any us.contains
  else decide (carK m v ≤ us.length)

/-- Members of a caravan. -/
def members (m : Manifest) (v : Nat) : List Nat := List.range (carK m v + carM m v)

/-- Has an index of a group failed, so that the package has no return? -/
def groupFailed (s : State) (m : Manifest) (p : Nat) : Bool :=
  s.serai.indices.cells.any fun e => e.2.seq == m.seq && e.2.failed.isSome &&
    (if p < outerK m then decide (e.2.index < m.ntask) && e.2.index / Nat.max 1 (groupSize m) == p
     else decide (outerBase ≤ e.2.index) && (e.2.index - outerBase) / 0x100000 == p - outerK m)

/-- Has a member no task that could return? -/
def memberGone (s : State) (m : Manifest) (v j : Nat) : Bool :=
  if v = outerNo then groupFailed s m j else !((carTasks s m.seq v).any fun e => e.2.member == j)

/-- Members that count as lost: lost ones, those whose return is unusable, and those whose index has failed (R264, R265). -/
def lostMembers (s : State) (m : Manifest) (v : Nat) (c : Caravan) : List Nat :=
  (members m v).filter fun j =>
    c.lost.contains j || (c.returns.any fun r => r.member == j && !usable s m.seq v m.pid r) || memberGone s m v j

/-- Members still awaited: neither lost nor cancelled, and their return not there. -/
def awaitedMembers (s : State) (m : Manifest) (v : Nat) (c : Caravan) : List Nat :=
  let l := lostMembers s m v c
  (members m v).filter fun j => !l.contains j && !(c.returns.any fun r => r.member == j)
    && !(carTasks s m.seq v).any fun e => e.2.member == j && e.2.st == .cancelled

/-- DEADLINE (Table 9.4). -/
def deadlineOf (m : Manifest) : Nat := m.code.toNat / 2 ^ 16 % 2 ^ 32

/-- A return reaches its caravan. The K-th usable one starts the time of DEADLINE (Table 11.2). Under policy 1 nothing that comes in a
later master cycle than that one is taken. -/
def putReturn (s : State) (m : Manifest) (v : Nat) (c : Caravan) (r : Return) : State :=
  if policyOf m = 1 ∧ (c.kth.any fun k => decide (k < s.now)) = true then (if v = outerNo then s else freeFrames s r.frames)
  else
    let c1 := { c with returns := c.returns ++ [r] }
    if c.kth.isNone && suffice m v c.q ((usableReturns s m.seq v m.pid c1).map (·.member)) then
      let s1 := putCaravan s m.seq v { c1 with kth := some s.now, deadline := c.deadline || deadlineOf m == 0 }
      if policyOf m = 2 then after s1 (deadlineOf m) (.deadlineExpiry m.seq.toNat v) else s1
    else putCaravan s m.seq v c1

/-- Does the decoder already hold enough returns to finish under POLICY without one more member (R230)? Under policy 0 that takes
every other member's return. -/
def enoughReturns (s : State) (m : Manifest) (v : Nat) (c : Caravan) (member : Nat) : Bool :=
  suffice m v c.q ((usableReturns s m.seq v m.pid c).map (·.member))
  && (policyOf m != 0 || ((awaitedMembers s m v c).filter (· != member)).isEmpty)

/-- A member cancelled: an abort without a split; its index is released (R265). -/
def cancelMember (s : State) (e : Nat) : State :=
  match getTask s e with
  | none => s
  | some t => match t.st with
    | .returned => s
    | .publishing => s
    | .cancelled => s
    | .grouped => s
    | _ =>
      let s1 := abortTask s e
      (match getTask s1 e with | some u => putTask s1 e { u with st := .cancelled } | none => s1)

/-- A return's frames are dropped. -/
def dropReturns (s : State) : List Return → State
  | [] => s
  | r :: t => dropReturns (freeFrames s r.frames) t

def abortAll (s : State) : List Nat → State
  | [] => s
  | e :: r => abortAll (abortTask s e) r

/-- Every member halved along one axis; the answer lists the upper halves. -/
def halveAll (s : State) (a el : Nat) : List Nat → State × List Nat
  | [] => (s, [])
  | e :: r =>
    match getTask s e with
    | none => halveAll s a el r
    | some t =>
      let h := halve s e t a el
      let u := halveAll h.1 a el r
      (u.1, h.2 :: u.2)

/-- The tasks of a new caravan. -/
def joinCaravan (s : State) (v : Nat) : List Nat → State
  | [] => s
  | e :: r => joinCaravan (match getTask s e with | some t => putTask s e { t with car := some v } | none => s) v r

/-- Members whose index is ready are queued; the others wait for their counter (R375). -/
def queueReady (s : State) : List Nat → State
  | [] => s
  | e :: r =>
    let s1 := match getTask s e with
      | none => s
      | some t => match getIndex s (taskKey t) with
        | some ix => if !ix.isReady then s
          else if Config.depEntries ≤ e then s else queueTask s e
        | none => s
    queueReady s1 r

/-- Every member of a caravan fails its index with a cause, and its tasks end. -/
def failMembers (s : State) (d c : Nat) : List (Nat × Task) → State
  | [] => s
  | e :: r => failMembers (endTask (failIndex s (taskKey e.2) d c) e.1) d c r

def dropCaravan (s : State) (q : BitVec 32) (v : Nat) : State :=
  setSerai s fun r => { r with caravans := r.caravans.erase (carKey q v) }

/-- Data task K·q over the domain of its caravan, whether or not the task itself is still live; `t` is a member. -/
def dataTask (m : Manifest) (c : Caravan) (t : Task) : Task :=
  let i := memberIndex m c.q 0
  let lo := List.zipWith (· + ·) (recFor m i).origin c.off
  { t with index := i, member := 0, lo := lo, hi := List.zipWith (· + ·) lo c.ext }

/-- The whole caravan is taken back and split, along the axis and at the extent of data task K·q (R230); nothing of it is decoded from
then on (R269). -/
def splitCaravan (s : State) (v : Nat) (m : Manifest) (c : Caravan) : State :=
  let mem := carTasks s m.seq v
  let s1 := abortAll (dropReturns s c.returns) (mem.map (·.1))
  match carTasks s1 m.seq v with
  | [] => dropCaravan s1 m.seq v
  | e :: _ =>
    let d := dataTask m c e.2
    match (if d.depth = 255 then none else widest m d (splitCands m d)) with
    | none => failMembers (dropCaravan s1 m.seq v) d.depth 1 (carTasks s1 m.seq v)
    | some a =>
      if (carTasks s1 m.seq v).any fun e => !(splitCands m e.2).contains a then
        failMembers (dropCaravan s1 m.seq v) d.depth 1 (carTasks s1 m.seq v)
      else
        let el := lowerExtent (axisExtent d a) (axisGrain m a)
        let h := halveAll s1 a el (mem.map (·.1))
        let n := (match manifestOf h.1 m.seq with | some m1 => m1.ncar | none => m.ncar)
        let s2 := joinCaravan h.1 n h.2
        let low := freshCaravan m.seq c.q c.off (setAt c.ext a el)
        let up := freshCaravan m.seq c.q (setAt c.off a (c.off.getD a 0 + el)) (setAt c.ext a (c.ext.getD a 0 - el))
        let s3 := putCaravan (putCaravan s2 m.seq v low) m.seq n up
        let s4 := match manifestOf s3 m.seq with | some m1 => putManifest s3 { m1 with ncar := n + 1 } | none => s3
        queueReady (queueReady s4 (mem.map (·.1))) h.2

/-- Tasks of the group, or of the outer outrider, at a place of the outer placement list. -/
def groupTasks (s : State) (m : Manifest) (p : Nat) : List (Nat × Task) :=
  s.serai.tasks.cells.filter fun e => e.2.seq == m.seq &&
    (if p < outerK m then decide (e.2.index < m.ntask) && e.2.index / Nat.max 1 (groupSize m) == p else decide (outerBase ≤ e.2.index))

/-- Once every task of this package's group has its result, the group's return goes to the home decoder (R271). -/
def offerGroup (s : State) (m : Manifest) : State :=
  match outerPlace s m, getCaravan s m.seq outerNo with
  | some p, some c =>
    let ts := groupTasks s m p
    if !ts.isEmpty && (ts.all fun e => e.2.st == .grouped) && !c.returns.any fun r => r.member == p then
      putReturn s m outerNo c ⟨p, ts.flatMap fun e => e.2.shadows, 0, 0, 0⟩
    else s
  | _, _ => s

/-- A return of another package is taken (R271); one that is already held is discarded. -/
def takeGroup (s : State) : State :=
  match s.serai.groupsIn with
  | [] => s
  | g :: r =>
    let s1 := setSerai s fun z => { z with groupsIn := r }
    match getCaravan s1 g.seq outerNo, manifestOf s1 g.seq with
    | some c, some m =>
      if c.returns.any fun u => u.member == g.pos then s1
      else if g.lost then putCaravan s1 g.seq outerNo { c with lost := c.lost ++ [g.pos] }
      else putReturn s1 m outerNo c ⟨g.pos, g.frames, 0, g.under, g.sat⟩
    | _, _ => s1

/-- A divisible task's claim failure, allowance expiry or TASKR: it is aborted, and reborn (R226 to R230). -/
def abortAndSplit (s : State) (e : Nat) : State :=
  match getTask s e with
  | none => s
  | some t => match manifestOf s t.seq with
    | none => abortTask s e
    | some m => match t.car with
      | none =>
        let s1 := abortTask s e
        (match getTask s1 e with | some u => splitPlain s1 e u m | none => s1)
      | some v => match getCaravan s m.seq v with
        | none => abortTask s e
        | some c =>
          if enoughReturns s m v c t.member then cancelMember s e
          else splitCaravan s v m c

/-- A claim failure of the current context's task (R199, R226). -/
def claimFailure (s : State) : State :=
  match (me s).task with
  | some e => abortAndSplit s e
  | none => s

end Sys2Proof.Machine
end

