-- ==== Sys2Proof/Machine/Engine.lean ====
section
/-! DEFINITION. The matrix array, the drain unit and the scale queues (R161, R169 to R173, R74 to R79). -/

namespace Sys2Proof.Machine

/-! ### Tile bytes -/

/-- The low `n` bytes of a value written by an engine at byte `b` of a tile of core `c` (R248, R256). -/
def tilePut (s : State) (c : Nat) (key : BitVec 32) (t : Tile) (b v n : Nat) : State :=
  writeDepots s ((List.range n).map fun i =>
    (tileByte c key t.view (t.base + b + i), BitVec.ofNat 8 (v / 2 ^ (8 * i))))

/-- Element `o` of an operand tile: a signed mantissa, or a 6-bit LG6 code (R65, R70). -/
def elemAt (s : State) (c : Nat) (key : BitVec 32) (t : Tile) (o : Nat) : Int :=
  if t.fmt = 0 then (BitVec.ofNat 4 (tileRead s c key t (o / 2) / 16 ^ (o % 2))).toInt
  else if t.fmt = 1 then (BitVec.ofNat 8 (tileRead s c key t o)).toInt
  else if t.fmt = 2 then (BitVec.ofNat 16 (tileReadN s c key t (2 * o) 2)).toInt
  else (tileRead s c key t o % 64 : Nat)

/-! ### Banks -/

/-- Rows `lo` to `lo + n - 1` of a bank with every element put through `f`, its flags gathered. -/
def updRows (b : Bank) (lo n : Nat) (f : Nat → Nat → AccSum → AccSum) : Bank :=
  let rs := (List.range (32 * n)).map fun i =>
    (32 * lo + i, f (lo + i / 32) (i % 32) ⟨b.elem (lo + i / 32) (i % 32), false, false⟩)
  { b with
    elems := rs.foldl (fun t e => t.set e.1 (BitVec.ofInt 80 e.2.v)) b.elems
    inexact := b.inexact || rs.any fun e => e.2.inexact
    ovf := b.ovf || rs.any fun e => e.2.ovf }

def coreBank (s : State) (c : Nat) (z : TReg) : Bank := (getCore s c).z.get Bank.reset z.toNat

/-- A bank written in the open interval: its waypoint image stays as it is (Table 1.4). -/
def setBank (s : State) (c : Nat) (z : TReg) (b : Bank) : State :=
  let k := getCore s c
  setCore s c { k with
    z := k.z.set z.toNat b
    zdirty := if k.zdirty.contains z.toNat then k.zdirty else k.zdirty ++ [z.toNat] }

/-! ### Scale queues (R169, R170) -/

/-- A draw advances RD; the entry stays held. -/
def drawQ (q : ScaleQ) : ScaleQ := { q with rd := (q.rd + 1) % 16, drawn := q.drawn + 1 }
def headQ (q : ScaleQ) : List Byte := q.ents.get [] q.rd

/-- The entry of an SQLD is written. -/
def writeQ (q : ScaleQ) : ScaleQ :=
  match q.pend with
  | (0, e) :: r =>
    { q with ents := q.ents.set q.wr e, wr := (q.wr + 1) % 16, cnt := q.cnt + 1, pushed := q.pushed + 1, pend := r }
  | _ => q

/-- Core cycles of an SQLD in progress. -/
def agePend (q : ScaleQ) : ScaleQ := { q with pend := q.pend.map fun e => (e.1 - 1, e.2) }

/-! ### The matrix array (R171) -/

/-- Depth per beat of a running product. -/
def jobDepth (j : MmaJob) : Nat := pairDepth j.ta.fmt j.tb.fmt

/-- Does the next beat begin a 32-deep block of a BX pair? -/
def beatDraws (j : MmaJob) : Bool := j.ta.fmt != 3 && j.u * jobDepth j % 32 == 0

/-- A queue that the next beat draws from is empty: of queue A, then of queue B. -/
def beatEmpty (s : State) (c : Nat) (j : MmaJob) : Bool :=
  beatDraws j && (!scaleReady (getCore s c).sqa || !scaleReady (getCore s c).sqb)

/-- Every empty queue that the next beat needs has an SQLD outstanding (Table 7.6). -/
def beatWaits (s : State) (c : Nat) (j : MmaJob) : Bool :=
  let k := getCore s c
  beatEmpty s c j && (scaleReady k.sqa || !k.sqa.pend.isEmpty) && (scaleReady k.sqb || !k.sqb.pend.isEmpty)

/-- Does a beat of core `c` count in this master cycle: under ALT, in the own window alone (R279)? -/
def beatWindow (s : State) (c : Nat) : Bool :=
  !(getPair s (pairOf c)).mode || (if c / 128 % 2 = 0 then decide (s.now % 16 < 8) else decide (8 ≤ s.now % 16))

/-- A product waits at a later block for an SQLD in progress (Table 7.6). -/
def scaleStall (s : State) (c : Nat) : Bool :=
  match (getCore s c).mma with
  | some j => !j.dead && beatWindow s c && beatWaits s c j
  | none => false

/-- Is the core globally stalled (R22): a wake from RETAIN, a layover, or a product that waits for an SQLD? -/
def stalled (s : State) (c : Nat) : Bool :=
  decide ((getCore s c).stall ≠ 0) || (getCore s c).laid || scaleStall s c

/-- One product of the array as n * 2^e. -/
def product (j : MmaJob) (r n : Nat) (x y : Int) : Int × Int :=
  if j.ta.fmt = 3 then (lgProduct x.toNat y.toNat, -14)
  else
    let a := (j.sa.getD r 0).toInt
    let b := (j.sb.getD n 0).toInt
    if a = -128 ∨ b = -128 then (0, 0) else (x * y, a + b)

/-- Element offsets of (r, k) of tile A and of (k, n) of tile B. -/
def offA (j : MmaJob) (r k : Nat) : Nat := if j.tr then k * 64 + r else r * tileDepth j.ta 64 + k
def offB (j : MmaJob) (k n : Nat) : Nat := if j.tbT then k * 32 + n else n * tileDepth j.tb 32 + k

/-- The contributions of one beat to element (r, n). -/
def beatElem (s : State) (c : Nat) (j : MmaJob) (zexp : Int) (r n : Nat) (a : AccSum) : AccSum :=
  (List.range (jobDepth j)).foldl (fun acc i =>
    let k := j.u * jobDepth j + i
    let p := product j r n (elemAt s c j.key j.ta (offA j r k)) (elemAt s c j.key j.tb (offB j k n))
    contribute zexp acc p.1 p.2) a

/-- LASTBEAT of the array of core `c` is this master cycle (R272). -/
def lastBeat (s : State) (c : Nat) : State :=
  let p := getPair s (pairOf c)
  setPair s (pairOf c) (if c / 128 % 2 = 0 then { p with freeLower := s.now + 64 } else { p with freeUpper := s.now + 64 })

/-- A counted beat has been performed. -/
def endBeat (s : State) (c : Nat) (j : MmaJob) : State :=
  setCore s c { getCore s c with mma := if j.u + 1 < j.beats then some { j with u := j.u + 1, due := false } else none }

/-- One counted beat of the array (R171): it draws at the start of a block, and adds its depth slice. An empty queue with an SQLD
outstanding leaves the beat to be counted later; without one it is the late queue-imbalance fault (Table 7.6), and that product's other
beats run out and change nothing (log entry 22). An SQLD that issues in this very cycle counts as outstanding (log entry 143). -/
def matrixBeat (s : State) (c : Nat) : State :=
  match (getCore s c).mma with
  | none => s
  | some j =>
    if !j.due then s
    else if j.dead then endBeat (lastBeat s c) c j
    else if beatEmpty s c j then
      if beatWaits s c j then setCore s c { getCore s c with mma := some { j with due := false } }
      else
        takeTrap (setCore s c { getCore s c with mma := some { j with due := false, dead := true } }) c j.x
          ⟨0x0C, j.slot, true, BitVec.ofNat 64 (0x31 * 2 ^ 32 + j.word.toNat), j.pc⟩
    else
      let s0 := lastBeat s c
      let k := getCore s0 c
      let j1 := if beatDraws j then { j with sa := headQ k.sqa, sb := headQ k.sqb } else j
      let s1 := if beatDraws j then setCore s0 c { k with sqa := drawQ k.sqa, sqb := drawQ k.sqb } else s0
      let b0 := coreBank s1 c j.z
      let b := if j.u = 0 ∧ !j.acc then { b0 with elems := .empty, inexact := false, ovf := false } else b0
      endBeat (setBank s1 c j.z (updRows b 0 64 (beatElem s1 c j1 b.zexp))) c j1

/-! ### The drain unit (R172, R173, R78, R79) -/

/-- EPI.SCALE at its exact value (Table 2.7, R78). -/
def epiScale (w : Word) : FV := f32.read true (w.toNat / 2 ^ 32)

/-- An element through the epilogue, as binary32 (R78); an element of 0 is read as +0 (log entry 144). -/
def drainElem (j : DrainJob) (r n : Nat) : Nat × BitVec 16 :=
  let a := j.bank.elem r n
  f32.mulV (epiRM j.epi) j.fpm (.num (decide (a < 0)) a.natAbs j.bank.zexp) (epiScale j.epi)

/-- A drained row: its bytes (place in the tile, value, length), the flags, and the counts. -/
structure DrainRow where
  puts : List (Nat × Nat × Nat)
  flags : BitVec 16
  under : Nat
  sat : Nat

/-- Row `r` through the epilogue (R78, Table 7.8). -/
def drainRow (j : DrainJob) (r : Nat) : DrainRow :=
  let cols := List.range 32
  if epiFmt j.epi = 3 then
    ⟨cols.map fun n => (512 * r + 16 * n, rawElem j.bank r n, 16), 0, 0, 0⟩
  else
    let vs := cols.map fun n => drainElem j r n
    let fl := vs.foldl (fun f v => f ||| v.2) 0
    if epiFmt j.epi = 2 then
      ⟨cols.map fun n => (128 * r + 4 * n, (vs.getD n (0, 0)).1, 4), fl, 0, 0⟩
    else
      let w := if epiFmt j.epi = 0 then 1 else 2
      let b := quantise (vs.map fun v => f32.read j.fpm v.1) (bxLimit (epiFmt j.epi + 1)) (epiRM j.epi)
      ⟨(cols.map fun n => (32 * w * r + w * n, (BitVec.ofInt (8 * w) (b.m.getD n 0)).toNat, w)) ++
          [(2048 * w + r, (BitVec.ofInt 8 b.e).toNat, 1)],
        fl ||| (if b.nv then flNV else 0), b.under, b.sat⟩

def putAll (s : State) (c : Nat) (key : BitVec 32) (t : Tile) : List (Nat × Nat × Nat) → State
  | [] => s
  | p :: r => putAll (tilePut s c key t p.1 p.2.1 p.2.2) c key t r

/-- A tile of the context changed. -/
def setTile (s : State) (c x : Nat) (t : TReg) (f : Tile → Tile) : State :=
  let k := getCtx s c x
  setCtx s c x { k with live := { k.live with tiles := k.live.tiles.set t.toNat (f (k.live.tiles.get Tile.off t.toNat)) } }

/-- One row of a ZST is drained. -/
def drainStore (s : State) (c : Nat) (j : DrainJob) (r : Nat) : State × DrainJob :=
  let d := drainRow j r
  let n := (d.puts.map fun p => p.2.2).sum
  (setTile (putAll s c j.key j.tile d.puts) c j.x j.t (fun t => { t with arrived := t.arrived + n }),
    { j with flags := j.flags ||| d.flags, under := j.under + d.under, sat := j.sat + d.sat })

/-- Two rows of a ZLD are loaded. -/
def drainLoad (s : State) (c : Nat) (j : DrainJob) : State :=
  setBank s c j.z (updRows (coreBank s c j.z) (2 * j.u) 2 fun r n _ =>
    ⟨(BitVec.ofNat 80 (tileReadN s c j.key j.tile (512 * r + 16 * n) 10)).toInt, false, false⟩)

/-- Four rows of a ZADD are added. -/
def drainAdd (s : State) (c : Nat) (j : DrainJob) : State :=
  let a := coreBank s c j.z2
  setBank s c j.z (updRows (coreBank s c j.z) (4 * j.u) 4 fun r n acc => contribute (coreBank s c j.z).zexp acc (a.elem r n) a.zexp)

/-- One beat of the drain unit. -/
def drainBeat (s : State) (c : Nat) : State :=
  match (getCore s c).drain with
  | none => s
  | some j =>
    let t : State × DrainJob :=
      match j.kind with
      | .zst =>
        let a := drainStore s c j (2 * j.u)
        drainStore a.1 c a.2 (2 * j.u + 1)
      | .zld => (drainLoad s c j, j)
      | .zadd => (drainAdd s c j, j)
    setCore t.1 c { getCore t.1 c with drain := some { t.2 with u := j.u + 1 } }

/-- The drain unit ends its instruction after the last beat: a ZST's tile is ready, its flags and counts go to the draining
context (R173, R78, R69). -/
def drainComplete (s : State) (c : Nat) : State :=
  match (getCore s c).drain with
  | none => s
  | some j =>
    if j.u < j.beats then s
    else
      let s1 := setCore s c { getCore s c with drain := none }
      if j.kind ≠ .zst then s1
      else
        let s2 := setTile s1 c j.x j.t fun t =>
          { t with st := .ready, zd := true, ovf := j.bank.ovf, inexact := j.bank.inexact }
        let k := getCtx s2 c j.x
        setCtx s2 c j.x { k with live := { k.live with
          cstat := k.live.cstat ||| j.flags.setWidth 64
          underzero := k.live.underzero + j.under
          satblk := k.live.satblk + j.sat } }

/-! ### Meanings -/

/-- SCALE_ENTRY_WRITE (R169): the entry of an SQLD is written four core cycles after its issue. -/
def execScaleEntryWrite (c : Nat) (q : Bool) (s : State) : Host.Outcome State Fault Refusal :=
  .next (setCore s c (if q then { getCore s c with sqb := writeQ (getCore s c).sqb }
    else { getCore s c with sqa := writeQ (getCore s c).sqa }))

/-- MATRIX_BEAT (R171) -/
def execMatrixBeat (c : Nat) (s : State) : Host.Outcome State Fault Refusal := .next (matrixBeat s c)

/-- DRAIN_COMPLETE (R173) -/
def execDrainComplete (c : Nat) (s : State) : Host.Outcome State Fault Refusal := .next (drainComplete s c)

end Sys2Proof.Machine
end

