-- ==== Sys2Proof/Machine/Copy.lean ====
section
/-! DEFINITION. The copy engine: its commands, their deliveries, relays and publications (R174 to R179). -/

namespace Sys2Proof.Machine

/-! ### Elements of the tensor side -/

/-- Tile and place in half-bytes of element `i` of a tensor of a process. -/
def elemLoc (s : State) (pid tid i : Nat) : Option (Nat × Nat) :=
  if onChip tid ∨ tid = 0 then some (i / 65536, i % 65536 * 2)
  else match (getProc s pid).tensors.find tid with
    | some l =>
      if i < l.dims.foldl (· * ·) 1 then
        let r := tileOff l.dims l.tiles (coords l.dims i).2 (0, 0)
        some (r.1, r.2 * elemHalf l.elem)
      else none
    | none => none

/-- Half-bytes of an element of a tensor of a process. -/
def halfOf (s : State) (pid tid : Nat) : Nat := refHalf s (procCtx pid) (mkRef tid 0)

/-- The storage address of a byte of an on-chip level as an engine of core `c` reaches it for a context whose lane slice begins at
`w` (R147, R248): a byte of 0xFFF0 is one of lane 0's slice. -/
def engineByte (key : BitVec 32) (w c tid b : Nat) : Nat :=
  if tid = 0xFFF0 then sliceBase c + w * 4 + b
  else if tid = 0xFFF1 then tileByte c key false b
  else if tid = 0xFFF5 then tileByte c key true b
  else if tid = 0xFFF2 then clusterByte (clusterOf c) key false b
  else if tid = 0xFFF6 then clusterByte (clusterOf c) key true b
  else scratchBase (dieOf c) + b

/-- The address of byte `b` of a tile of the tensor side; none where the tile was found non-resident (R174). -/
def sideByte (c : Nat) (q : CopyCmd) (tid tile b : Nat) : Option Nat :=
  if onChip tid then some (engineByte q.key q.slbase c tid (tile * 65536 + b))
  else match findCell (tileKey tid tile) q.frames with
    | some (some base) => some (base + b)
    | _ => none

/-- Half-byte `n` of element `i` of a tensor as the engine reads it; a non-resident tile reads as zero. -/
def sideHalf (s : State) (c : Nat) (q : CopyCmd) (tid i n : Nat) : Nat :=
  match elemLoc s q.pid tid i with
  | none => 0
  | some (tile, h) => match sideByte c q tid tile ((h + n) / 2) with
    | some a => (readAt s c 5 a).toNat / 16 ^ ((h + n) % 2) % 16
    | none => 0

/-- Element `i` of a tensor as an unsigned number. -/
def sideElem (s : State) (c : Nat) (q : CopyCmd) (tid i : Nat) : Nat :=
  (List.range (halfOf s q.pid tid)).foldl (fun v n => v + sideHalf s c q tid i n * 16 ^ n) 0

/-- The index of element `e` of row `p` of a copy. -/
def rowIndex (q : CopyCmd) (p e : Nat) : Nat := (refIdx q.src + p * dStride q.desc) % 2 ^ 48 + e

/-- Where packed byte `i` of a copy stands on the tensor side (R175): tile and byte of the tile. A copy moves whole bytes from B_loc of
their element; of two BX4 elements of one byte the first names it (R239; log entry 135). -/
def packedLoc (s : State) (q : CopyCmd) (i : Nat) : Option (Nat × Nat) :=
  let h := halfOf s q.pid (refTid q.src)
  let j := i % q.wide
  (elemLoc s q.pid (refTid q.src) (rowIndex q (i / q.wide) (2 * j / h))).map fun l => (l.1, l.2 / 2 + 2 * j % h / 2)

/-- Packed byte `i` of a copy as the engine reads it; a non-resident tile reads as zero. -/
def packedByte (s : State) (c : Nat) (q : CopyCmd) (i : Nat) : Byte :=
  match (packedLoc s q i).bind fun l => sideByte c q (refTid q.src) l.1 l.2 with
  | some a => readAt s c 5 a
  | none => 0

/-- `n` packed bytes of a copy from byte `a` on. -/
def packedBytes (s : State) (c : Nat) (q : CopyCmd) (a n : Nat) : List Byte := (List.range n).map fun i => packedByte s c q (a + i)

/-! ### Where a command stands -/

def holdsCmd (k : Ctx) (id : Nat) : Bool := k.copyq.any fun q => q.id == id

/-- The context that owns a command: a hardware context, or one saved in an image. -/
def ownerOf (s : State) (id : Nat) : Option (Nat × Nat) :=
  match s.cores.cells.findSome? fun e => (e.2.ctxs.cells.find? fun t => holdsCmd t.2 id).map fun t => (e.1, t.1) with
  | some p => some p
  | none => (s.serai.images.cells.find? fun e => holdsCmd e.2.ctx id).map fun e => (e.2.core, 4 + e.1)

def findCmd (k : Ctx) (id : Nat) : Option CopyCmd := k.copyq.find? fun q => q.id == id

def putCmd (s : State) (c x : Nat) (q : CopyCmd) : State :=
  let k := getAny s c x
  setAny s c x { k with copyq := k.copyq.map fun o => if o.id = q.id then q else o }

/-- Is a handle bound as the handle of a command was at issue: V = 1 and the same BASE, BYTES and FMT? -/
def relayBinds (q : CopyCmd) (t : Tile) : Bool := t.v && t.base == q.base && t.bytes == q.bytes && t.fmt == q.fmt

/-- The handles with that of a command changed. -/
def onHandle (q : CopyCmd) (f : Tile → Tile) (t : Tab Tile) : Tab Tile := t.set q.t.toNat (f (t.get Tile.off q.t.toNat))

/-- The tile of a command changes state where a rollback would find it: in the parked state that a LICQ of the open interval took back, if
the command's tile was parked there, else in the waypoint image, if its handle holds the same binding (R27, R180). -/
def rollTile (k : Ctx) (q : CopyCmd) (f : Tile → Tile) : Ctx :=
  match k.unpark.filter fun p => p.cmds.contains q.id with
  | some p => { k with unpark := some { p with tiles := onHandle q f p.tiles } }
  | none => if relayBinds q (k.wp.tiles.get Tile.off q.t.toNat) then { k with wp := { k.wp with tiles := onHandle q f k.wp.tiles } } else k

/-- The tile of a command changes state: in the registers of its context, or where its state is parked. One freed by TFREE does not, but a
binding that a LICQ of the open interval dropped does where a rollback would find it (R165, R167, R180). -/
def cmdTile (s : State) (c x : Nat) (q : CopyCmd) (f : Tile → Tile) : State :=
  let k := getAny s c x
  if k.reserved.any fun r => r.2.2 == q.id then (if k.dropped.contains q.id then setAny s c x (rollTile k q f) else s)
  else match (parkedOf s c x).filter fun p => p.cmds.contains q.id with
    | some p =>
      let s1 := layParked s c x { p with tiles := onHandle q f p.tiles }
      if p.bySave then setAny s1 c x (rollTile (getAny s1 c x) q f) else s1
    | none => setAny s c x (rollTile { k with live := { k.live with tiles := onHandle q f k.live.tiles } } q f)

/-- `n` promised bytes have arrived (Table 7.4). -/
def arriveTile (n : Nat) (t : Tile) : Tile :=
  { t with arrived := t.arrived + n, sched := t.sched - n, st := if t.bytes ≤ t.arrived + n then .ready else .filling }

/-- Delivered bytes add to the arrival counter that the descriptor names (R175). -/
def countArrival (s : State) (c x : Nat) (q : CopyCmd) (n : Nat) : State :=
  if dCE q.desc then
    let k := getAny s c x
    setAny s c x { k with acnt := k.acnt.set (dCnt q.desc) (k.acnt.get 0 (dCnt q.desc) + BitVec.ofNat 32 n) }
  else s

/-! ### Issue and performing -/

/-- Tiles that references name, each once. -/
def refTiles (s : State) (k : Ctx) (refs : List Word) : List (Nat × Nat) :=
  (refs.filterMap fun r =>
    if onChip (refTid r) then none else (locate s k r).map fun l => (refTid r, l.1)).eraseDups

/-- Unplaced tiles of a copy are placed (R109); those that a CPOUT writes get the frames of their shadows (R216). -/
def placeTiles (s : State) (write : Bool) (ts : List (Nat × Nat)) : State :=
  eachTile (fun u tid tile => (if write then placeWrite else placeRead) u u.focus (me u) tid tile) s ts

/-- The residency lookup of a copy, made at issue (R108, R174). -/
def lookTiles (s : State) (write : Bool) (ts : List (Nat × Nat)) : List (Nat × Option Nat) :=
  ts.map fun t => (tileKey t.1 t.2, match lookTile s (me s) t.1 t.2 with
    | .resident b => if write && !canWrite s (me s) t.1 t.2 then none else some b
    | _ => none)

/-- The bytes that one row of a copy delivers; a block column of CPENC gives 64 × 32 mantissas of 2 bytes and 64 exponents. -/
def rowWide (s : State) (kind : CopyKind) (src d : Word) : Nat :=
  match kind with
  | .cpenc => 4160
  | _ => dLen d * refHalf s (me s) src / 2

/-- All of `n` bytes. -/
def wholeRun (n : Nat) : List (Nat × Nat) := if n = 0 then [] else [(0, n)]

/-- A copy command issues: it is recorded for step 4 of R24 with its operands, its residency outcome and its key as they are now. -/
def issueCopy (s : State) (kind : CopyKind) (t : TReg) (src dst d d2 : Word) (refs : List Word) (rows : Nat) : State :=
  let ts := refTiles s (me s) refs
  let s1 := placeTiles s (kind == .cpout) ts
  let fr := lookTiles s1 (kind == .cpout) ts
  let s2 := if fr.any fun f => f.2.isNone then setFlags s1 flNR else s1
  let l := tileOfMe s2 t
  let wide := rowWide s2 kind src d
  let q : CopyCmd :=
    { id := s.fresh, kind := kind, t := t, src := src, dst := dst, desc := d, desc2 := d2, key := myKey s2, pid := (me s2).pid,
      frames := fr, base := l.base, view := l.view, bytes := l.bytes, fmt := l.fmt, off := 0, slbase := (me s2).slbase, rows := rows,
      wide := wide, todo := wholeRun (rows * wide), served := [], started := false, done := false, held := [], seq := (me s2).nload, slot := s.latch.slot,
      word := BitVec.ofNat 32 (slotWord s), pc := (me s).bpc }
  record (newPlace s2) (.copy q)

/-- Bytes that a fill promises to its tile (R165, R178). -/
def fillBytes (q : CopyCmd) : Nat :=
  match q.kind with
  | .cpenc => 128 * dLen q.desc
  | _ => q.rows * q.wide

/-- A staging frame for each undeclared resident tile that a CPOUT writes, holding what the tile holds now (R176). -/
def stageFrames (s : State) (c x : Nat) (q : CopyCmd) : List (Nat × Option Nat) → State
  | [] => s
  | (key, some b) :: r =>
    if shadowTop ≤ b then stageFrames s c x q r
    else match frameFrom s (stackOrder c (key % 2 ^ 48)) with
      | some (s1, f) =>
        let s2 := flushRange s1 b 65536
        let s3 := dropCopies { s2 with mem := s2.mem.copy b f 65536 } f 65536
        let k := getCtx s3 c x
        stageFrames (setCtx s3 c x { k with outFrames := k.outFrames ++ [⟨key, f, q.id, q.seq, []⟩] }) c x q r
      | none => stageFrames s c x q r
  | _ :: r => stageFrames s c x q r

/-- A copy command reaches its context's queue at step 4 of R24 (R174), and its tile changes state. -/
def performCopy (s : State) (c x : Nat) (q0 : CopyCmd) : State :=
  let l := (getCtx s c x).live.tiles.get Tile.off q0.t.toNat
  let q := { q0 with off := l.arrived + l.sched }
  let k := getCtx s c x
  let s1 := setCtx s c x { k with copyq := k.copyq ++ [q] }
  let upd := fun (f : Tile → Tile) => setTile s1 c x q.t f
  match q.kind with
  | .cpin | .cpenc => upd fun t => { t with st := .filling, sched := t.sched + fillBytes q }
  | .cpout => stageFrames (upd fun t => { t with st := .draining }) c x q q.frames
  | .cpcl | .cpsc | .cpmc => s1

/-! ### Starting (R174) -/

/-- May the engine start a command: every earlier command of the queue has started, every earlier store and STL handed to memory
has been performed, and no publication of its source is queued before it (R174, R179)? -/
def mayStart (k : Ctx) (q : CopyCmd) : Bool :=
  (k.copyq.all fun o => o.id == q.id || o.started || decide (q.seq < o.seq))
  && !(k.wbuf.any fun e => e.committed && decide (e.seq < q.seq))
  && !(k.pubq.any fun p => p.tid.toNat == refTid q.src && q.kind != .cpout && decide (p.seq < q.seq))

/-- The first command of a queue that may start now. -/
def startable (k : Ctx) : Option CopyCmd := k.copyq.find? fun q => !q.started && mayStart k q

/-- The queues that the engine of core `c` serves: those of its four contexts in rotation, then those of contexts saved from it. -/
def engineQueues (s : State) (c : Nat) : List Nat :=
  ((List.range 4).map fun i => ((getCore s c).copyNext + i) % 4) ++
    (s.serai.images.cells.filter fun e => e.2.core == c && !e.2.saving).map fun e => 4 + e.1

/-- The command that the engine of core `c` starts next, with its queue; a frozen engine starts none (R329). -/
def nextStart (s : State) (c : Nat) : Option (Nat × CopyCmd) :=
  if (getCore s c).engineFrozen then none
  else (engineQueues s c).findSome? fun x => (startable (getAny s c x)).map fun q => (x, q)

/-- A command's first deliveries fall due: one for each core of a relay. -/
def postDeliveries (s : State) (c x : Nat) (q : CopyCmd) : State :=
  match q.kind with
  | .cpmc =>
    ((List.range 8).filter fun i => (dMask q.desc).testBit i).foldl (fun t i => later t (.relayDelivery c x q.id i)) s
  | _ => later s (.copyDelivery c x q.id)

/-- The engine of core `c` starts command `q` of queue `x`; its context's earlier stores stand at package scope (R174). -/
def startCmd (s : State) (c x : Nat) (q : CopyCmd) : State :=
  let k := getCore s c
  let s1 := setCore s c { k with copyNext := if x < 4 then (x + 1) % 4 else k.copyNext }
  postDeliveries (putCmd (if isMgmt c then s1 else writeBackAll s1 (dieOf c)) c x { q with started := true }) c x q

def startNext (s : State) (c : Nat) : State := match nextStart s c with | some e => startCmd s c e.1 e.2 | none => s

/-! ### Deliveries -/

/-- The run of bytes that a delivery takes of those still due: from byte `w.1` if it is due, else from the first one; at most `w.2`
bytes (0: no limit) and no more than to the end of the row (R295; log entry 136). -/
def pieceOf (wide : Nat) (todo : List (Nat × Nat)) (w : Nat × Nat) : Nat × Nat :=
  let cut := fun (a e : Nat) => (a, Nat.min (e - a) (Nat.min (wide - a % wide) (if w.2 = 0 then wide else w.2)))
  match todo.find? fun r => decide (r.1 ≤ w.1) && decide (w.1 < r.1 + r.2) with
  | some r => cut w.1 (r.1 + r.2)
  | none => match todo with
    | r :: _ => cut r.1 (r.1 + r.2)
    | [] => (0, 0)

/-- The runs that remain when a piece of one of them has been delivered. -/
def dropPiece (todo : List (Nat × Nat)) (p : Nat × Nat) : List (Nat × Nat) :=
  todo.flatMap fun r =>
    if r.1 ≤ p.1 ∧ p.1 < r.1 + r.2 then
      [(r.1, p.1 - r.1), (p.1 + p.2, r.1 + r.2 - (p.1 + p.2))].filter fun t => decide (0 < t.2)
    else [r]

/-- Where packed byte `i` of a CPOUT goes: address, tile, byte of the tile; a non-resident tile drops it. -/
def outCell (s : State) (c : Nat) (q : CopyCmd) (fr : List OutFrame) (i : Nat) : Option (Nat × Nat × Nat) :=
  (packedLoc s q i).bind fun l =>
    let key := tileKey (refTid q.src) l.1
    let a := match fr.find? fun f => f.key == key && f.cmd == q.id with
      | some f => some (f.frame + l.2)
      | none => match sideByte c q (refTid q.src) l.1 l.2 with
        | some p => if shadowTop ≤ p then some p else none
        | none => none
    a.map fun p => (p, key, l.2)

/-- A byte of a staging frame, or of the task's own shadow, is written. -/
def outWrite (s : State) (c a : Nat) (v : Byte) : State := if shadowTop ≤ a then writeAt s c 5 a v else writeDepots s [(a, v)]

/-- The bytes written into a staging frame. -/
def addSpan (fr : List OutFrame) (key cmd off : Nat) : List OutFrame :=
  fr.map fun f =>
    if f.key = key ∧ f.cmd = cmd ∧ !(f.spans.any fun r => decide (r.1 ≤ off) && decide (off < r.1 + r.2)) then
      match f.spans.getLast? with
      | some r => if r.1 + r.2 = off then { f with spans := f.spans.dropLast ++ [(r.1, r.2 + 1)] }
        else { f with spans := f.spans ++ [(off, 1)] }
      | none => { f with spans := [(off, 1)] }
    else f

/-- Packed bytes of a CPOUT, written to the tensor's shadow frames. -/
def outBytes (s : State) (c o x : Nat) (q : CopyCmd) : List (Nat × Byte) → State
  | [] => s
  | (i, v) :: r =>
    let k := getAny s o x
    match outCell s c q k.outFrames i with
    | none => outBytes s c o x q r
    | some (a, key, off) =>
      let s1 := outWrite s c a v
      let k1 := getAny s1 o x
      outBytes (setAny s1 o x { k1 with outFrames := addSpan k1.outFrames key q.id off }) c o x q r

/-- The packed bytes of a run of a CPOUT, as the engine reads them in its tile. -/
def outRun (s : State) (c : Nat) (q : CopyCmd) (p : Nat × Nat) : List (Nat × Byte) :=
  (List.range p.2).map fun i => (p.1 + i, s.mem.read (tileByte c q.key q.view (q.base + (p.1 + i))))

/-- The base dies of the tiles of a copy outside the on-chip levels (R337). -/
def copyHomes (s : State) (q : CopyCmd) : List Nat := homesOf ((q.frames.filterMap (·.2)).filterMap (resolve s))

/-- The logged data of part `p` of a copy, and of whichever part comes next. -/
def isRow (run seq p : Nat) (m : MsgBody) : Option (List Byte) :=
  match m with | .row r i n bs => if r = run ∧ i = seq ∧ n = p then some bs else none | _ => none
def isPiece (run seq : Nat) (m : MsgBody) : Option (Nat × Nat) :=
  match m with | .row r i n bs => if r = run ∧ i = seq then some (n, bs.length) else none | _ => none

/-- The run of bytes that command `q` of context `x` of core `o` delivers next: under replay as its die's log has it (R348), else as the
script chooses. -/
def nextPiece (s : State) (o x : Nat) (q : CopyCmd) : Nat × Nat :=
  match takeReplay s o (isPiece (getAny s o x).run q.seq) with
  | some r => r.1
  | none => pieceOf q.wide q.todo (s.pieces.headD (0, 0))

/-- The data of part `p` of a copy of context `x` of core `o`: from the log of its die under replay (R348), else as `f` reads them, asked
of the base dies and answered where they lie there. -/
def copyData (s : State) (o x : Nat) (q : CopyCmd) (p : Nat) (f : State → List Byte) : State × List Byte :=
  let run := (getAny s o x).run
  match takeReplay s o (isRow run q.seq p) with
  | some r => (r.2, r.1)
  | none => (askHomes s (coreEnd o) (.row run q.seq p (f s)) (copyHomes s q), f s)

/-- The cells of row bytes placed from tile byte `off` on. -/
def tileCells (c : Nat) (key : BitVec 32) (view : Bool) (base off : Nat) (bs : List Byte) : List (Nat × Byte) :=
  (List.range bs.length).map fun i => (tileByte c key view (base + off + i), bs.getD i 0)

/-- Where packed byte `i` of a CPIN, CPENC, CPCL or CPSC goes. A block column of CPENC has the mantissas of its 64 blocks, row-major in
the tile, and their exponents, one queue-A entry of scale memory (R178). -/
def putPlace (c : Nat) (q : CopyCmd) (i : Nat) : Nat :=
  match q.kind with
  | .cpcl => engineByte q.key q.slbase c (refTid q.dst) (refIdx q.dst + i)
  | .cpsc => scaleBase c + q.dst.toNat % 65536 + i
  | .cpenc =>
    let j := i % 4160
    if j < 4096 then tileByte c q.key q.view (q.base + q.off + (j / 64 * dLen q.desc + 32 * (i / 4160)) * 2 + j % 64)
    else scaleBase c + encSoff q.desc2 + 64 * (i / 4160) + (j - 4096)
  | _ => tileByte c q.key q.view (q.base + q.off + i)

/-- Where the bytes of a run go. -/
def runPlaces (c : Nat) (q : CopyCmd) (p : Nat × Nat) : List Nat := (List.range p.2).map fun i => putPlace c q (p.1 + i)

/-- Bytes of a run that go into the tile of a fill. -/
def tilePart (q : CopyCmd) (p : Nat × Nat) : Nat :=
  match q.kind with
  | .cpin => p.2
  | .cpenc => ((List.range p.2).filter fun i => decide ((p.1 + i) % 4160 < 4096)).length
  | _ => 0

/-- What a run adds to the arrival counter: its bytes; for CPENC 64 when a column's entry has been written (R175, R178). -/
def countPart (q : CopyCmd) (p : Nat × Nat) : Nat :=
  match q.kind with
  | .cpenc =>
    let at_ := p.1 / 4160 * 4160 + 4096
    if at_ < p.1 + p.2 ∧ !((dropPiece q.todo p).any fun r => decide (r.1 < at_ + 64) && decide (at_ < r.1 + r.2)) then 64 else 0
  | _ => p.2

/-- The data of a run, read by `f`, are written and counted (R174, R175). -/
def deliverData (s : State) (c o x : Nat) (q : CopyCmd) (p : Nat × Nat) (f : State → List Byte) : State :=
  let t := copyData s o x q p.1 f
  let s1 := writeDepots t.1 ((runPlaces c q p).zip t.2)
  let n := tilePart q p
  countArrival (if n = 0 then s1 else cmdTile s1 o x q (arriveTile n)) o x q (countPart q p)

/-- A run of bytes of a CPOUT. -/
def deliverOut (s : State) (c o x : Nat) (q : CopyCmd) (p : Nat × Nat) : State :=
  let t := carryTo s (coreEnd c) .plain (copyHomes s q)
  countArrival (outBytes t c o x q (outRun t c q p)) o x q (countPart q p)

/-! ### CPENC (R178, R260, R261) -/

/-- S_j of an outrider row, and growth(k, m). -/
def vrow (j i : Nat) : Nat := (i + 1) ^ (j - 1)
def sumRow (k j : Nat) : Nat := ((List.range k).map fun i => vrow j i).sum
def log2Up (n : Nat) : Nat := if n ≤ 1 then 0 else Nat.log2 (n - 1) + 1
def growth (k m : Nat) : Nat := log2Up (((List.range m).map fun j => sumRow k (j + 1)).foldl Nat.max 0)

/-- The limits of a coded column: k, the outrider number, growth and SPAN. -/
structure EncLimits where
  k : Nat
  j : Nat
  growth : Nat
  span : Nat

/-- The limits that apply to the task of a context. -/
def encLimits (s : State) (k : Ctx) : EncLimits :=
  let o := (k.task.bind s.serai.tasks.find).bind fun t => (manifestOf s t.seq).bind fun m => (outriderOf m t).map fun o => (o, m)
  match o with
  | none => ⟨0, 1, 0, 0⟩
  | some ((kk, j, mm), m) => ⟨kk, j, growth kk mm, m.code.toNat / 2 ^ 12 % 16⟩

/-- Element index of mantissa `t` of block (r, col) of A_i. -/
def encIndex (q : CopyCmd) (i r col t : Nat) : Nat :=
  (refIdx q.src + i * encStride q.desc2 + r * dStride q.desc) % 2 ^ 48 + 32 * col + t

/-- Exponent and mantissas of a block. -/
def encExp (s : State) (c : Nat) (q : CopyCmd) (i r col : Nat) : Int :=
  match (getProc s q.pid).tensors.find (refTid q.src) with
  | some l => (BitVec.ofNat 8 (sideElem s c q l.scale (encIndex q i r col 0 / 32))).toInt
  | none => -128
def encMant (s : State) (c : Nat) (q : CopyCmd) (i r col t : Nat) : Int :=
  (BitVec.ofNat (4 * halfOf s q.pid (refTid q.src)) (sideElem s c q (refTid q.src) (encIndex q i r col t))).toInt

/-- One coded block: its exponent and mantissas, or none where it exceeds the span. -/
def encBlock (s : State) (c : Nat) (q : CopyCmd) (g : EncLimits) (r col : Nat) : Option (Int × List Int) :=
  if dRows q.desc ≤ r then some (-128, List.replicate 32 0)
  else
    let es := (List.range g.k).map fun i => (i, encExp s c q i r col)
    let nz := es.filter fun e => e.2 != -128
    match nz with
    | [] => some (-128, List.replicate 32 0)
    | e0 :: rest =>
      let lo := rest.foldl (fun a e => Min.min a e.2) e0.2
      let hi := rest.foldl (fun a e => Max.max a e.2) e0.2
      let span := (hi - lo).toNat
      if span + g.growth > 8 ∨ span > g.span then none
      else
        some (lo, (List.range 32).map fun t =>
          (nz.map fun e => (vrow g.j e.1 : Int) * encMant s c q e.1 r col t * 2 ^ (e.2 - lo).toNat).sum)

/-- The blocks of a column, rows in order; none where one exceeds the span. -/
def encColumn (s : State) (c : Nat) (q : CopyCmd) (g : EncLimits) (col : Nat) : List Nat → Option (List (Nat × Int × List Int))
  | [] => some []
  | r :: rest =>
    match encBlock s c q g r col, encColumn s c q g col rest with
    | some b, some bs => some ((r, b) :: bs)
    | _, _ => none

/-- The bytes of block column `col`: 64 × 32 BX16 mantissas, then the exponents of the queue-A entry; none where a block exceeds the
span. -/
def encBytes (s : State) (c o x : Nat) (q : CopyCmd) (col : Nat) : Option (List Byte) :=
  (encColumn s c q (encLimits s (getAny s o x)) col (List.range 64)).map fun bs =>
    (bs.flatMap fun b => b.2.2.flatMap fun v => let n := (BitVec.ofInt 16 v).toNat; [BitVec.ofNat 8 n, BitVec.ofNat 8 (n / 256)])
      ++ bs.map fun b => BitVec.ofInt 8 b.2.1

/-- A run of bytes of a CPENC, within one block column. -/
def deliverEnc (s : State) (c o x : Nat) (q : CopyCmd) (p : Nat × Nat) : Option State :=
  (encBytes s c o x q (p.1 / 4160)).map fun bs => deliverData s c o x q p fun _ => (bs.drop (p.1 % 4160)).take p.2

/-- A copy stops with a late fault, which waits for the task's next bundle boundary (R24). -/
def stopCopy (s : State) (c x : Nat) (q : CopyCmd) (t : TrapReq) : State :=
  let k := getAny s c x
  setAny s c x { k with
    copyq := k.copyq.filter fun o => o.id != q.id
    reserved := k.reserved.filter fun r => r.2.2 != q.id
    late := k.late ++ [t] }

/-- The code-span fault: the copy stops, and its tile stays filling (R178). -/
def spanFault (s : State) (c x : Nat) (q : CopyCmd) : State :=
  stopCopy s c x q ⟨0x15, q.slot, true, Config.freeInfo s.fresh, q.pc⟩

/-- Does a copy await data over a broken pair (R339)? -/
def copyBroken (s : State) (c : Nat) (q : CopyCmd) : Bool := q.kind != .cpout && brokenHome s c (copyHomes s q)

/-! ### Events -/

/-- A CPOUT has read its tile's last byte (Table 7.4). -/
def emptyTile (t : Tile) : Tile := { t with st := .empty, arrived := 0, zd := false, ovf := false, inexact := false }

/-- Must a delivery wait: its messages cannot pass now (R337, R339), or a byte it writes lies in a block that the Drover has still to copy
(R343)? -/
def deliveryWaits (s : State) (c : Nat) (q : CopyCmd) (p : Nat × Nat) : Bool :=
  !homesPass s c (copyHomes s q)
  || ((getDie s (dieOf c)).capture.isSome && q.kind != .cpout && (runPlaces c q p).any (waitsCopy s))

/-- A run of bytes of a command is delivered; none where CPENC stops at its code span. -/
def deliverPiece (s : State) (c o x : Nat) (q : CopyCmd) (p : Nat × Nat) : Option State :=
  match q.kind with
  | .cpenc => deliverEnc s c o x q p
  | .cpout => some (deliverOut s c o x q p)
  | _ => some (deliverData s c o x q p fun u => packedBytes u c q p.1 p.2)

/-- One delivery of command `id` of the engine of core `c` (R174): a run of its bytes; runs come in any order (R295). -/
def copyDelivery (s : State) (c x id : Nat) : State :=
  match ownerOf s id with
  | none => s
  | some (o, y) =>
    match findCmd (getAny s o y) id with
    | none => s
    | some q =>
      let p := nextPiece s o y q
      if q.done || !q.started then s
      else if copyBroken s c q then stopCopy s o y q (brokenFault q.slot q.pc)
      else if deliveryWaits s c q p then after s 1 (.copyDelivery c x id)
      else
        match deliverPiece { s with pieces := s.pieces.drop 1 } c o y q p with
        | none => spanFault s o y q
        | some s1 =>
          let todo := dropPiece q.todo p
          let s2 := putCmd s1 o y { q with todo := todo, done := todo.isEmpty }
          let s3 := if todo.isEmpty ∧ q.kind = .cpout then cmdTile s2 o y q emptyTile else s2
          if todo.isEmpty then later s3 (.copyComplete c x id) else later s3 (.copyDelivery c x id)

/-- Command `id` completes and leaves its queue; a freed region it held is free (R167, R174). -/
def copyComplete (s : State) (id : Nat) : State :=
  match ownerOf s id with
  | none => s
  | some (o, y) =>
    let k := getAny s o y
    match findCmd k id with
    | none => s
    | some q =>
      if !q.done then s
      else setAny s o y { k with
        copyq := k.copyq.filter fun r => r.id != id
        reserved := k.reserved.filter fun r => r.2.2 != id }

/-- The receiving tile of a relay on core `k`: the handle of the lowest-numbered context with V = 1 and the same BASE, BYTES and FMT
(R177). -/
def relayTile (s : State) (k : Nat) (q : CopyCmd) : Option (Nat × Nat × Tile) :=
  [0, 1, 2, 3].findSome? fun x =>
    ((getCtx s k x).live.tiles.cells.find? fun e => relayBinds q e.2).map fun e => (x, e.1, e.2)

/-- A relay's bytes reach the receiving tile, under the key of the context that holds it (R177, R248). The waypoint image of the handle
follows if it holds the same binding. -/
def deliverRelay (s : State) (c k o x : Nat) (q : CopyCmd) (r : Nat × Nat × Tile) : State :=
  let kc := getCtx s k r.1
  let key := kc.live.bankkey.setWidth 32
  let t := copyData s o x q k fun u => packedBytes u c q 0 (q.rows * q.wide)
  let n := t.2.length
  let s1 := writeDepots t.1 (tileCells k key r.2.2.view r.2.2.base 0 t.2)
  let f := fun (t : Tile) => { t with arrived := n, st := if t.bytes ≤ n then TileState.ready else .filling }
  let g := fun (t : Tab Tile) => t.set r.2.1 (f (t.get Tile.off r.2.1))
  let k1 := getCtx s1 k r.1
  let bound := relayBinds q (k1.wp.tiles.get Tile.off r.2.1)
  setCtx s1 k r.1 { k1 with
    live := { k1.live with tiles := g k1.live.tiles }, wp := { k1.wp with tiles := if bound then g k1.wp.tiles else k1.wp.tiles } }

/-- Has a delivery of the relay been held for 2^20 core cycles? -/
def relayExpired (s : State) (c : Nat) (q : CopyCmd) : Bool := q.held.any fun h => decide (h.2 + 2 ^ 20 ≤ cyclesOf s c)

/-- One relay delivery to core `i` of the issuing core's cluster (R177): it waits until the receiving tile exists and is empty. On a
frozen engine the relay that froze it stays held; the others finish (R329). -/
def relayDelivery (s : State) (c x id i : Nat) : State :=
  match ownerOf s id with
  | none => s
  | some (o, y) =>
    match findCmd (getAny s o y) id with
    | none => s
    | some q =>
      let k := c / 8 * 8 + i
      if q.served.contains k || !q.started then s
      else if copyBroken s c q then stopCopy s o y q (brokenFault q.slot q.pc)
      else if !homesPass s c (copyHomes s q) || ((getCore s c).engineFrozen && relayExpired s c q) then after s 1 (.relayDelivery c x id i)
      else
        let hold :=
          let q2 := if (findCell k q.held).isSome then q else { q with held := q.held ++ [(k, cyclesOf s c)] }
          after (putCmd s o y q2) 1 (.relayDelivery c x id i)
        match relayTile s k q with
        | none => hold
        | some r =>
          if r.2.2.st ≠ .empty then hold
          else
            let served := q.served ++ [k]
            let all := ((List.range 8).filter fun n => (dMask q.desc).testBit n).all fun n => served.contains (c / 8 * 8 + n)
            let s1 := putCmd (deliverRelay s c k o y q r) o y
              { q with served := served, held := q.held.filter fun h => h.1 != k, done := all }
            if all then later s1 (.copyComplete c x id) else s1

/-- A relay of a core whose delivery has been held for 2^20 core cycles: owner's context and command. -/
def heldRelay (s : State) (c : Nat) : Option (Nat × Nat) :=
  let all : List (Nat × Ctx) := [0, 1, 2, 3].map (fun x => (x, getCtx s c x)) ++ (slotsOn s c).map fun e => (4 + e.1, e.2.ctx)
  all.findSome? fun e =>
    (e.2.copyq.find? (relayExpired s c)).map fun q => (e.1, q.id)

/-- A held relay freezes its core's copy engine as a frozen master (R177, R329, Table 18.2). -/
def relayTimeout (s : State) (c id : Nat) : State :=
  match ownerOf s id with
  | none => s
  | some (o, y) => match findCmd (getAny s o y) id with
    | none => s
    | some q =>
      if (getCore s c).engineFrozen || !relayExpired s c q then s
      else
        event (setCore s c { getCore s c with engineFrozen := true }) 0x02
          [BitVec.ofNat 64 (2 ^ 47 + c % 2048 * 2 ^ 32)]

/-! ### Publication by PUBL (R179) -/

/-- Has every earlier CPOUT to the publication's tensor completed? -/
def pubReady (k : Ctx) (p : Publication) : Bool :=
  !(k.copyq.any fun q => q.kind == .cpout && refTid q.src == p.tid.toNat && decide (q.seq < p.seq))

/-- The frames of a context that a publication covers. -/
def pubFrames (k : Ctx) (p : Publication) : List OutFrame :=
  k.outFrames.filter fun f => f.key / 2 ^ 48 == p.tid.toNat && decide (f.seq < p.seq)

/-- The bytes of a staging frame that its command wrote. -/
def spanCells (s : State) (f : OutFrame) : List (Nat × Byte) :=
  f.spans.flatMap fun r => (List.range r.2).map fun i => (r.1 + i, s.mem.read (f.frame + r.1 + i))

/-- One frame for a tile: what is published now, with the bytes of every covered command in program order. The last staging frame
takes it; the others are free. -/
def mergeFrames (s : State) (pid key : Nat) (fs : List OutFrame) : State × Option Nat :=
  match fs.getLast? with
  | none => (s, none)
  | some last =>
    let cells := fs.flatMap (spanCells s)
    let base := match (getProc s pid).tensors.find (key / 2 ^ 48) with
      | some l =>
        let n := entryAt s l (key % 2 ^ 48)
        if n / 2 ^ 62 = 1 then some (frameOf s n) else none
      | none => none
    let s1 := match base with
      | some b => let t := flushRange s b 65536; { t with mem := t.mem.copy b last.frame 65536 }
      | none => s
    let s2 := { s1 with mem := s1.mem.writeCells (cells.map fun w => (last.frame + w.1, w.2)) }
    (freeFrames s2 (fs.dropLast.map fun f => (f.key, f.frame)), some last.frame)

/-- The merged frames of a set of staging frames, tile by tile. -/
def mergeAll (s : State) (pid : Nat) (fs : List OutFrame) : List Nat → State × List (Nat × Nat)
  | [] => (s, [])
  | key :: r =>
    let t := mergeFrames s pid key (fs.filter fun f => f.key == key)
    let u := mergeAll t.1 pid fs r
    (u.1, (match t.2 with | some f => [(key, f)] | none => []) ++ u.2)

/-- Staging frames of a context are published in one swap (R179, R256). -/
def publishFrames (s : State) (c x : Nat) (fs : List OutFrame) : State :=
  let k := getAny s c x
  let s1 := setAny s c x { k with outFrames := k.outFrames.filter fun f => !fs.contains f }
  let t := mergeAll s1 k.pid fs (fs.map fun f => f.key).eraseDups
  swapTiles t.1 k.pid t.2

/-- The first queued publication of a context whose CPOUTs have completed. -/
def duePub (k : Ctx) : Option Publication := k.pubq.find? (pubReady k)

/-- One publication of context `x` of core `c` is swapped; a replayed one that had been swapped before the reset leaves its staging frames
free (R348). -/
def publSwap (s : State) (c x : Nat) : State :=
  let k := getAny s c x
  match duePub k with
  | none => s
  | some p =>
    let s1 := setAny s c x { k with pubq := k.pubq.filter fun o => o != p }
    let fs := pubFrames k p
    if sentBefore s c x p.seq SendKind.publ.code then
      setAny (freeFrames s1 (fs.map fun f => (f.key, f.frame))) c x
        { getAny s1 c x with outFrames := k.outFrames.filter fun f => !fs.contains f }
    else publishFrames (noteSent (carry s1 (coreEnd c) 16 .plain) c x p.seq SendKind.publ.code) c x fs

/-! ### Meanings -/

/-- COPY_DELIVERY (R174) -/
def execCopyDelivery (c x n : Nat) (s : State) : Host.Outcome State Fault Refusal := .next (copyDelivery s c x n)

/-- COPY_COMPLETE (R174) -/
def execCopyComplete (_c _x n : Nat) (s : State) : Host.Outcome State Fault Refusal := .next (copyComplete s n)

/-- RELAY_DELIVERY (R177) -/
def execRelayDelivery (c x n k : Nat) (s : State) : Host.Outcome State Fault Refusal := .next (relayDelivery s c x n k)

/-- RELAY_HOLD_TIMEOUT (R177) -/
def execRelayHoldTimeout (c _x n : Nat) (s : State) : Host.Outcome State Fault Refusal := .next (relayTimeout s c n)

/-- PUBL_SWAP (R179) -/
def execPublSwap (c x : Nat) (s : State) : Host.Outcome State Fault Refusal := .next (publSwap s c x)

end Sys2Proof.Machine
end

