-- ==== Sys2Proof/Machine/Matrix.lean ====
section
/-! DEFINITION. The matrix-engine slots: tiles, products, banks, scale queues, copies, publications and the licence (R161 to
R181). -/

namespace Sys2Proof.Machine

/-! ### Tiles -/

/-- A tile configured by a TCFG word (R164): V, STATE and the arrived bytes start anew. -/
def tileOfWord (w : Word) : Tile :=
  { v := true, st := .empty, fmt := cfgFmt w, view := cfgView w, bytes := cfgBytes w, base := cfgBase w,
    arrived := 0, sched := 0, zd := false, ovf := false, inexact := false }

/-- TCFG binds a handle, or fails its claim (Table 7.3). -/
def bindTile (s : State) (t : TReg) (w : Word) : State :=
  if overClaim s t w then claimFailure s else setTile s s.focus (curX s) t fun _ => tileOfWord w

/-- The TSTAT word (Table 7.5). -/
def tstatWord (t : Tile) : Word :=
  if t.v then BitVec.ofNat 64 (2 ^ 63 + tileStCode t.st * 2 ^ 61 + t.fmt.toNat * 2 ^ 58 + b2n t.view * 2 ^ 57
    + t.arrived * 2 ^ 32 + t.base / 16 * 16 + b2n t.zd * 8 + b2n (t.zd && t.ovf) * 4 + b2n (t.zd && t.inexact) * 2)
  else 0

/-- TCFG (R164) -/
def execTcfg (h : TH) (t : TReg) (a : Reg) (s : State) : Host.Outcome State Fault Refusal :=
  runSlot (.tcfg h t a) (fun s => bindTile s t (readG s a)) s

/-- TSTAT (R166) -/
def execTstat (h : TH) (d : Reg) (t : TReg) (s : State) : Host.Outcome State Fault Refusal :=
  runSlot (.tstat h d t) (fun s => putG s d (tstatWord (tileOfMe s t)) 1) s

/-- TFREE (R167) -/
def execTfree (h : TH) (t : TReg) (s : State) : Host.Outcome State Fault Refusal :=
  runSlot (.tfree h t) (fun s => recordRelease s (.tfree t)) s

/-- TREL (R167) -/
def execTrel (h : TH) (t : TReg) (s : State) : Host.Outcome State Fault Refusal :=
  runSlot (.trel h t) (fun s => recordRelease s (.trel t)) s

/-! ### Products and banks -/

/-- A product takes the array, its first beat in the issue cycle (R18, R171); tile bindings, key and energy class are those of the
issue. -/
def startMma (s : State) (i : Instr) (z ta tb : TReg) (k : BitVec 6) (trn tbt acc : Bool) : State :=
  let j : MmaJob :=
    { x := curX s, z := z, ta := tileOfMe s ta, tb := tileOfMe s tb, na := ta, nb := tb, key := myKey s, tr := trn, tbT := tbt,
      acc := acc, beats := k.toNat + 1, u := 0, e := BitVec.ofNat 2 (chargedClass i), sa := [], sb := [], slot := s.latch.slot,
      word := BitVec.ofNat 32 (slotWord s), pc := (me s).bpc, due := beatWindow s s.focus, dead := false }
  setMyCore s { myCore s with mma := some j }

/-- MMA (R171) -/
def execMma (e : BitVec 2) (z ta tb : TReg) (k : BitVec 6) (tr ac : Bool) (s : State) : Host.Outcome State Fault Refusal :=
  runSlot (.mma e z ta tb k tr ac) (fun s => startMma s (.mma e z ta tb k tr ac) z ta tb k false tr ac) s

/-- MMAT (R171): tile A stands transposed. -/
def execMmat (e : BitVec 2) (z ta tb : TReg) (k : BitVec 6) (tr ac : Bool) (s : State) : Host.Outcome State Fault Refusal :=
  runSlot (.mmat e z ta tb k tr ac) (fun s => startMma s (.mmat e z ta tb k tr ac) z ta tb k true tr ac) s

/-- ZCLR (R172) -/
def execZclr (h : TH) (z : TReg) (i : Imm) (s : State) : Host.Outcome State Fault Refusal :=
  runSlot (.zclr h z i) (fun s => setBank s s.focus z ⟨true, .empty, i.sval.toInt, false, false⟩) s

/-- An instruction takes the drain unit, its first beat in the issue cycle. -/
def startDrain (s : State) (i : Instr) (kind : DrainKind) (z z2 : TReg) (t : TReg) (epi : Word) (beats : Nat) : State :=
  let j : DrainJob :=
    { x := curX s, kind := kind, z := z, z2 := z2, t := t, tile := tileOfMe s t, epi := epi,
      fpm := cstatFPM (me s).live.cstat, key := myKey s, beats := beats, u := 0, e := BitVec.ofNat 2 (chargedClass i),
      flags := 0, under := 0, sat := 0, bank := bankOf s z }
  drainBeat (setMyCore s { myCore s with drain := some j }) s.focus

/-- ZST (R173): its tile is filling from issue. -/
def execZst (e : BitVec 2) (z t u : TReg) (k : BitVec 6) (s : State) : Host.Outcome State Fault Refusal :=
  runSlot (.zst e z t u k) (fun s =>
    startDrain (setTile s s.focus (curX s) t fun l => { l with st := .filling }) (.zst e z t u k) .zst z 0 t
      ((me s).live.epi.get 0 u.toNat) 32) s

/-- The bank that a ZLD makes live: ZEXP and the flags of element (0, 0) (R79). -/
def loadedBank (s : State) (t : TReg) : Bank :=
  let w := tileReadN s s.focus (myKey s) (tileOfMe s t) 0 16
  ⟨true, .empty, (BitVec.ofNat 16 (w / 2 ^ 80)).toInt, w / 2 ^ 96 % 2 == 1, w / 2 ^ 97 % 2 == 1⟩

/-- ZLD (R173): the bank is live from issue. -/
def execZld (e : BitVec 2) (z t : TReg) (k : BitVec 6) (s : State) : Host.Outcome State Fault Refusal :=
  runSlot (.zld e z t k) (fun s =>
    startDrain (setBank s s.focus z (loadedBank s t)) (.zld e z t k) .zld z 0 t 0 32) s

/-- The flags of the source bank joined to the destination's (R75). -/
def joinFlags (s : State) (d a : TReg) : State :=
  let b := bankOf s d
  let o := bankOf s a
  setBank s s.focus d { b with inexact := b.inexact || o.inexact, ovf := b.ovf || o.ovf }

/-- ZADD (R172): 16 beats of the drain unit. -/
def execZadd (h : TH) (d a : TReg) (s : State) : Host.Outcome State Fault Refusal :=
  runSlot (.zadd h d a) (fun s => startDrain (joinFlags s d a) (.zadd h d a) .zadd d a 0 0 16) s

/-- ZFREE (R172) -/
def execZfree (h : TH) (z : TReg) (s : State) : Host.Outcome State Fault Refusal :=
  runSlot (.zfree h z) (fun s => recordRelease s (.zfree z)) s

/-! ### Scale queues -/

/-- SQLD reads scale memory at issue; its entry is there for the fourth core cycle after it (R169). -/
def pushScale (s : State) (q : Bool) (w : Word) : State :=
  let c := s.focus
  let e := (List.range (if q then 32 else 64)).map fun i => s.mem.read (scaleBase c + w.toNat % 65536 + i)
  let k := myCore s
  setMyCore s (if q then { k with sqb := { k.sqb with pend := k.sqb.pend ++ [(3, e)] } }
    else { k with sqa := { k.sqa with pend := k.sqa.pend ++ [(3, e)] } })

/-- SQLD (R169) -/
def execSqld (h : TH) (q : Bool) (a : Reg) (s : State) : Host.Outcome State Fault Refusal :=
  runSlot (.sqld h q a) (fun s => pushScale s q (readG s a)) s

/-- SQCLR (R170) -/
def execSqclr (h : TH) (q : Bool) (s : State) : Host.Outcome State Fault Refusal :=
  runSlot (.sqclr h q) (fun s => recordRelease s (.sqclr q)) s

/-! ### Copies -/

/-- CPIN (R176) -/
def execCpin (h : TH) (t : TReg) (a b : Reg) (s : State) : Host.Outcome State Fault Refusal :=
  runSlot (.cpin h t a b) (fun s => issueCopy s .cpin t (readG s a) 0 (readG s b) 0
    (descRefs s (me s) (readG s a) (readG s b)) (dRows (readG s b))) s

/-- CPOUT (R176): g[A] names the destination. -/
def execCpout (h : TH) (t : TReg) (a b : Reg) (s : State) : Host.Outcome State Fault Refusal :=
  runSlot (.cpout h t a b) (fun s => issueCopy s .cpout t (readG s a) 0 (readG s b) 0
    (descRefs s (me s) (readG s a) (readG s b)) (dRows (readG s b))) s

/-- CPCL (R176) -/
def execCpcl (h : TH) (d a b : Reg) (s : State) : Host.Outcome State Fault Refusal :=
  runSlot (.cpcl h d a b) (fun s => issueCopy s .cpcl 0 (readG s a) (readG s d) (readG s b) 0
    (descRefs s (me s) (readG s a) (readG s b)) (dRows (readG s b))) s

/-- CPMC (R177) -/
def execCpmc (h : TH) (t : TReg) (a b : Reg) (s : State) : Host.Outcome State Fault Refusal :=
  runSlot (.cpmc h t a b) (fun s => issueCopy s .cpmc t (readG s a) 0 (readG s b) 0
    (descRefs s (me s) (readG s a) (readG s b)) (dRows (readG s b))) s

/-- CPENC (R178): g[B] is the descriptor, g[B + 1] holds SOFF and BSTRIDE. -/
def execCpenc (h : TH) (t : TReg) (a : Reg) (b : BitVec 4) (s : State) : Host.Outcome State Fault Refusal :=
  runSlot (.cpenc h t a b) (fun s =>
    let d := readG s (BitVec.ofNat 5 (2 * b.toNat))
    let d2 := readG s (BitVec.ofNat 5 (2 * b.toNat + 1))
    issueCopy s .cpenc t (readG s a) 0 d d2 (encRefs s ((myOutrider s).getD (0, 0, 0)).1 (readG s a) d d2) (dLen d / 32)) s

/-- CPSC (R176) -/
def execCpsc (h : TH) (d a b : Reg) (s : State) : Host.Outcome State Fault Refusal :=
  runSlot (.cpsc h d a b) (fun s => issueCopy s .cpsc 0 (readG s a) (readG s d) (readG s b) 0
    (descRefs s (me s) (readG s a) (readG s b)) (dRows (readG s b))) s

/-! ### Arrivals and publications -/

/-- ARRW of a tile (R168): it has nothing to do once the tile is ready. -/
def execArrwTile (h : TH) (t : TReg) (s : State) : Host.Outcome State Fault Refusal :=
  runSlot (.arrwTile h t) (fun s => s) s

/-- ARRW of an arrival counter (R168): it has nothing to do once the counter has passed. -/
def execArrwCounter (h : TH) (n : TReg) (a : Reg) (s : State) : Host.Outcome State Fault Refusal :=
  runSlot (.arrwCounter h n a) (fun s => s) s

/-- PUBL (R179) -/
def execPubl (h : TH) (a : Reg) (s : State) : Host.Outcome State Fault Refusal :=
  runSlot (.publ h a) (fun s =>
    recordRelease (newPlace s) (.publ (BitVec.ofNat 16 (refTid (readG s a))) (me s).nload a)) s

/-! ### The licence (R180) -/

/-- LICQ at issue: without effect for the holder, else the grant (R274, R279). -/
def takeLicence (s : State) : State :=
  let c := s.focus
  let x := curX s
  if licMine s c x then s
  else
    let s1 := licWithdraw s c x
    let p := getPair s1 (pairOf c)
    let s2 := setPair s1 (pairOf c) (if p.mode then setAlt p c (some x) else { p with st := licSide c, holder := some (c, x), gapEnd := s.now })
    setMe s2 { me s2 with grantInInterval := true }

/-- LICQ (R180) -/
def execLicq (h : TH) (s : State) : Host.Outcome State Fault Refusal :=
  runSlot (.licq h) takeLicence s

/-- LICR (R180) -/
def execLicr (h : TH) (s : State) : Host.Outcome State Fault Refusal :=
  runSlot (.licr h) (fun s => recordRelease s .licr) s

/-- LICX (R180) -/
def execLicx (h : TH) (s : State) : Host.Outcome State Fault Refusal :=
  runSlot (.licx h) (fun s => recordRelease s .licx) s

/-- ZXT (R180): it is performed at step 4 of its commit. -/
def execZxt (h : TH) (s : State) : Host.Outcome State Fault Refusal :=
  runSlot (.zxt h) (fun s => record s .zxt) s

end Sys2Proof.Machine
end

