-- ==== Sys2Proof/Machine/Fleet.lean ====
section
/-! DEFINITION. Fleet health and the fabric mode: reason bits, located faults, code-span events, FABCTL (R364 to R371). -/

namespace Sys2Proof.Machine

def setPkg (s : State) (f : PkgRegs → PkgRegs) : State := { s with pkg := f s.pkg }

/-! ### Reason bits (R367) -/

/-- HEALTH reason bit `b` (0 LOCATED, 1 SENSOR, 2 REPAIR, 3 WEAR) is set; from 0 to 1 it raises one source 0x10 event, which names the
stack when the bit is LOCATED. -/
def raiseReason (s : State) (b stack : Nat) : State :=
  if s.pkg.reasons.getLsbD b then s
  else
    event (setPkg s fun p => { p with reasons := p.reasons ||| ((1 : BitVec 4) <<< b) }) 0x10
      [BitVec.ofNat 64 (2 ^ (16 + b) + if b = 0 then stack else 0)]

/-! ### Located faults (R366) -/

/-- WINCNT and TOTAL of a stack count one fault, and RESESC with `esc`; at LIMIT the LOCATED bit is set. -/
def countFault (s : State) (k : Nat) (esc : Bool) : State :=
  let q := getStack s k
  let s1 := setStack s k { q with wincnt := Nat.min (q.wincnt + 1) 65535, total := Nat.min (q.total + 1) (2 ^ 24 - 1),
                                  resesc := if esc then Nat.min (q.resesc + 1) 4095 else q.resesc }
  if s1.pkg.lflim.toNat % 2 ^ 16 ≤ (getStack s1 k).wincnt then raiseReason s1 0 k else s1

/-- A located fault of a member on core `c` (R267, Table 21.3): the event, then the counts. -/
def locatedFault (s : State) (q : BitVec 32) (v out ij c : Nat) : State :=
  let pay := q.toNat * 2 ^ 32 + v % 2 ^ 13 * 2 ^ 19 + out * 2 ^ 17 + ij % 8 * 2 ^ 14 + stackOf c % 8 * 2 ^ 11
    + dieOf c % 2 * 2 ^ 10 + c % 128 * 2 ^ 3
  countFault (eventOpen s 0x0A [BitVec.ofNat 64 pay]) (stackOf c % 8) false

/-- A located fault of the outer code names a package and counts in no stack (R271, R366). -/
def locatedOuter (s : State) (q : BitVec 32) (out ij p : Nat) : State :=
  eventOpen s 0x0A [BitVec.ofNat 64 (q.toNat * 2 ^ 32 + 2 ^ 18 + out * 2 ^ 17 + ij % 8 * 2 ^ 14 + p % 256 * 2 ^ 3)]

/-- An outrider lost to its span: SPANCNT and the source 0x11 event (R262, R366). -/
def spanEvent (s : State) (q : BitVec 32) (v j : Nat) : State :=
  event (setSerai s fun r => { r with spancnt := Nat.min (r.spancnt + 1) (2 ^ 32 - 1) }) 0x11
    [BitVec.ofNat 64 (q.toNat * 2 ^ 32 + v % 2 ^ 13 * 2 ^ 19 + j % 8 * 2 ^ 14)]

/-- LOCATED_WINDOW_RESET (R366): every WINCNT returns to 0. -/
def windowReset (s : State) : State :=
  setSerai { s with cstacks := s.cstacks.map fun _ q => { q with wincnt := 0 } } fun r => { r with wincntAt := s.now }

/-- Is a window of WIN × 2^30 master cycles at its end, and its reset not yet done? -/
def windowDue (s : State) : Bool :=
  decide (0 < s.now) && s.now % (s.pkg.lflim.toNat / 2 ^ 32 * 2 ^ 30) == 0 && s.serai.wincntAt != s.now

/-- A write to HEALTH (R367, R368): reason bits written 1 are cleared; STKEXCL acts on placements from the next master cycle. -/
def healthWrite (s : State) (v : Word) : State :=
  setPkg s fun p => { p with
    reasons := p.reasons &&& ~~~ (v.extractLsb' 16 4)
    stkexcl := v.extractLsb' 8 8
    exclOld := if p.exclAt = s.now ∧ 0 < s.now then p.exclOld else p.stkexcl
    exclAt := s.now }

/-! ### Fabric mode (R371) -/

/-- DRAINTO of LINKTO. -/
def drainTo (s : State) : Nat := s.pkg.linkto.toNat / 2 ^ 32
/-- GAPWAIT of LINKTO. -/
def gapWait (s : State) : Nat := s.pkg.linkto.toNat % 2 ^ 32

/-- A write to FABCTL: the change takes effect after DRAINTO master cycles. -/
def fabctlWrite (s : State) (v : Word) : State :=
  after (setPkg s fun p => { p with fabctl := v, fabPend := p.fabPend ++ [v] }) (drainTo s) .fabricModeChange

/-- Does a message on its way stand on a port that a new fabric mode changes? -/
def onChangedPort (s : State) (v : Word) (a b : Nat) (sq : BitVec 32) : Bool :=
  match torusDir s a b with
  | some d => portChanged s.pkg.fabMode v d (portOf s.pkg.fabMode d sq)
  | none => false

/-- The oldest written fabric mode takes effect; messages on a changed port are lost, and come again under R338. -/
def fabricChange (s : State) : State :=
  match s.pkg.fabPend with
  | v :: r => setPkg (loseMessages s (onChangedPort s v)) fun p => { p with fabMode := v, fabPend := r }
  | [] => s

/-! ### Meanings (a value that the field map reserves is never written, R41) -/

/-- HEALTH_WRITE (R368) -/
def execHealthWrite (v : Word) (s : State) : Host.Outcome State Fault Refusal := .next (if valueOk 0x1C4 v then healthWrite s v else s)

/-- LOCATED_WINDOW_RESET (R366) -/
def execLocatedWindowReset (s : State) : Host.Outcome State Fault Refusal := .next (windowReset s)

/-- FABCTL_WRITE (R371) -/
def execFabctlWrite (v : Word) (s : State) : Host.Outcome State Fault Refusal := .next (if valueOk 0x1C0 v then fabctlWrite s v else s)

/-- FABRIC_MODE_CHANGE (R371) -/
def execFabricModeChange (s : State) : Host.Outcome State Fault Refusal := .next (fabricChange s)

end Sys2Proof.Machine
end

