-- ==== Sys2Proof/Machine/Banks.lean ====
section
/-! DEFINITION. Register bank power: RBCTL, transitions, allocation of a context's registers (R34, R208, R354). -/

namespace Sys2Proof.Machine

/-- Actual state of bank `b`: 0 ON, 1 RETAIN, 2 OFF. -/
def bankSt (k : Core) (b : Nat) : Nat := k.rbst.toNat / 4 ^ b % 4
/-- Requested state of bank `b`. -/
def bankReq (k : Core) (b : Nat) : Nat := k.rbreq.toNat / 4 ^ b % 4
/-- Two bits of a bank replaced. -/
def put2 (w : BitVec 8) (b v : Nat) : BitVec 8 := (w &&& ~~~ ((3 : BitVec 8) <<< (2 * b))) ||| (BitVec.ofNat 8 v <<< (2 * b))
/-- The running transition of a bank forgotten. -/
def clearMove (k : Core) (b : Nat) : Core := { k with rbend := k.rbend.erase b, rbwake := k.rbwake.erase b }
def setBankSt (s : State) (c b v : Nat) : State :=
  setCore s c { clearMove (getCore s c) b with rbst := put2 (getCore s c).rbst b v }
/-- Is a transition of bank `b` running? -/
def bankMoves (k : Core) (b : Nat) : Bool := (k.rbend.find b).isSome || (k.rbwake.find b).isSome

/-- The registers a context holds: from its first physical register on, while it holds a task or code runs on it. -/
def holdsRegs (k : Ctx) : Bool := k.status != .free
/-- Does bank `b` hold registers allocated to a context of the core (R208)? -/
def bankHeld (s : State) (c b : Nat) : Bool :=
  [0, 1, 2, 3].any fun x =>
    let k := getCtx s c x
    holdsRegs k && decide (k.vbase < 32 * b + 32) && decide (32 * b < k.vbase + k.vregs)

/-- A latency the spec bounds by `n`: the next entry of the delay script, cut to the bound (log entry 10). -/
def boundedDelay (s : State) (n : Nat) : State × Nat := ({ s with delays := s.delays.drop 1 }, Nat.min n (nextDelay s))

/-- A transition that ends after `n` master cycles. -/
def startBank (s : State) (c b n : Nat) : State :=
  after (setCore s c { getCore s c with rbend := (getCore s c).rbend.set b (s.now + n) }) n (.bankTransitionDone c b)

/-- A bank leaves RETAIN, in `n` core cycles. -/
def startWake (s : State) (c b n : Nat) : State := setCore s c { getCore s c with rbwake := (getCore s c).rbwake.set b n }

/-- One bank is asked for a state (R354): ON to RETAIN takes 8 master cycles, RETAIN to ON at most 40 core cycles, OFF to ON 200
master cycles, OFF comes at once; a held bank goes to RETAIN instead of OFF and DENY is set. A RETAIN request to a bank that is OFF changes
nothing (log entry 15); one in the master cycle of an access leaves the bank ON. -/
def requestBank (s : State) (c b req : Nat) : State :=
  let k := getCore s c
  let retain := fun (u : State) => if bankSt k b = 0 ∧ k.rbused.find b ≠ some s.now then startBank u c b 8 else u
  if !k.inService.getLsbD b then s
  else
    let s1 := setCore s c (clearMove k b)
    if req = 0 then
      if bankSt k b = 1 then (let d := boundedDelay s1 40; startWake d.1 c b d.2)
      else if bankSt k b = 2 then startBank s1 c b 200
      else s1
    else if req = 1 then retain s1
    else if bankHeld s c b then retain (setCore s1 c { getCore s1 c with rbdeny := true })
    else setBankSt s1 c b 2

/-- A request for the state that was asked before (`old`), `req` the two bits of REQ: a transition that is running to it goes on. A bank
that was held at OFF and is free now goes OFF at once; one that is still held sets DENY again. -/
def requestAgain (s : State) (c b old req : Nat) : State :=
  if bankMoves (getCore s c) b && old == req then
    if req = 2 then
      if bankHeld s c b then setCore s c { getCore s c with rbdeny := true } else requestBank s c b req
    else s
  else requestBank s c b req

/-- The requests of a write to RBCTL, `old` the REQ field before it. -/
def requestBanks (s : State) (c old v : Nat) : List Nat → State
  | [] => s
  | b :: r => requestBanks (requestAgain s c b (old / 4 ^ b % 4) (v / 4 ^ b % 4)) c old v r

/-- A write to RBCTL (Table 20.4). -/
def rbctlWrite (s : State) (c : Nat) (v : Word) : State :=
  let k := getCore s c
  requestBanks (setCore s c { k with rbreq := v.setWidth 8, rbdeny := k.rbdeny && !v.getLsbD 16 }) c k.rbreq.toNat (v.toNat % 256) [0, 1, 2, 3]

/-- A bank's transition has ended: ON if ON is requested, RETAIN otherwise. -/
def bankDone (s : State) (c b : Nat) : State :=
  let k := getCore s c
  if k.rbwake.find b = some 0 then setBankSt s c b 0
  else match k.rbend.find b with
  | some e => if s.now < e then s else setBankSt s c b (if bankReq k b = 0 then 0 else 1)
  | none => s

/-! ### Allocation (R34, R225, R331) -/

/-- The banks that `n` registers from `base` on reach. -/
def banksOf (base n : Nat) : List Nat := (List.range 4).filter fun b => decide (base < 32 * b + 32) && decide (32 * b < base + n)

/-- Are `n` physical registers from `base` on in service and free? -/
def regsFree (s : State) (c base n : Nat) : Bool :=
  decide (base + n ≤ 128)
  && ((banksOf base n).all fun b => (getCore s c).inService.getLsbD b)
  && [0, 1, 2, 3].all fun x =>
      let k := getCtx s c x
      !holdsRegs k || decide (base + n ≤ k.vbase) || decide (k.vbase + k.vregs ≤ base)

/-- The first free run of `n` registers in units of 8. -/
def findRegs (s : State) (c n : Nat) : Option Nat := ((List.range 16).map (8 * ·)).find? fun b => regsFree s c b n

/-- Are the banks of a run ON, and none on its way to RETAIN? -/
def banksOn (s : State) (c base n : Nat) : Bool :=
  (banksOf base n).all fun b => bankSt (getCore s c) b == 0 && !bankMoves (getCore s c) b

/-- Is a bank on its way to ON? -/
def bankWakes (k : Core) (b : Nat) : Bool := bankMoves k b && bankReq k b == 0

/-- ON is requested for the banks of a run that are not ON, or not to stay so, and not on their way. -/
def wakeRun (s : State) (c : Nat) : List Nat → State
  | [] => s
  | b :: r =>
    let k := getCore s c
    let s1 := if (bankSt k b = 0 ∧ bankMoves k b = false) ∨ bankWakes k b = true then s
      else requestBank (setCore s c { k with rbreq := put2 k.rbreq b 0 }) c b 0
    wakeRun s1 c r

/-- An access to these banks: one in RETAIN, or on its way there, is ON (R208, R354). -/
def wakeAccess (s : State) (c : Nat) : List Nat → State
  | [] => s
  | b :: r =>
    let k := getCore s c
    let s1 := if bankSt k b = 1 ∨ (bankSt k b = 0 ∧ bankMoves k b = true) then setBankSt s c b 0 else s
    wakeAccess (setCore s1 c { getCore s1 c with rbused := (getCore s1 c).rbused.set b s.now }) c r

/-- An access to these banks, and the core cycles of global stall that it costs: at most 40 where one of them is in RETAIN (R22,
R208). -/
def touchBanks (s : State) (c : Nat) (bs : List Nat) : State × Nat :=
  let d := if bs.any fun b => bankSt (getCore s c) b == 1 then boundedDelay s 40 else (s, 0)
  (wakeAccess d.1 c bs, d.2)

/-- A commit's duplicates, or a save, touch every bank of a context's run (R208). -/
def touchRun (s : State) (c x : Nat) : State :=
  let k := getCtx s c x
  let t := touchBanks s c (banksOf k.vbase k.vregs)
  setCore t.1 c { getCore t.1 c with stall := (getCore t.1 c).stall + t.2 }

/-! ### Meanings -/

/-- RBCTL_WRITE (R354) -/
def execRbctlWrite (c : Nat) (v : Word) (s : State) : Host.Outcome State Fault Refusal :=
  .next (if valueOk 0x188 v then rbctlWrite s c v else s)

/-- BANK_TRANSITION_DONE (R354) -/
def execBankTransitionDone (c b : Nat) (s : State) : Host.Outcome State Fault Refusal := .next (bankDone s c b)

end Sys2Proof.Machine
end

