-- ==== Sys2Proof/Machine/Licence.lean ====
section
/-! DEFINITION. The matrix licence between grants: gaps, ZXT moves, the move back of a parked state, LICMODE (R272 to R282, R297
to R299). -/

namespace Sys2Proof.Machine

/-! ### The end of a gap -/

/-- PASSING_GAP_END (R275): GAP has reached 0, and the grantee holds the licence. -/
def passingEnd (s : State) (pr : Nat) : State :=
  let p := getPair s pr
  match p.grantee with
  | some g =>
    if p.st = .passing ∧ p.gapEnd ≤ s.now then setPair s pr { p with st := licSide g.core, holder := some (g.core, g.x) } else s
  | none => s

/-! ### ZXT (R180, R278, R298) -/

/-- Copy commands of a context whose tile moves with its matrix state: the fills and drains that no TFREE has cut loose. -/
def tileCmds (k : Ctx) : List Nat :=
  (k.copyq.filter fun q => (q.kind == .cpin || q.kind == .cpenc || q.kind == .cpout)
    && !k.reserved.any fun r => r.2.2 == q.id).map (·.id)

/-- The matrix state of context `x` of core `c`. -/
def matrixOf (s : State) (c x : Nat) : Parked :=
  let k := getCore s c
  { core := c, x := x, banks := k.z, sqa := k.sqa, sqb := k.sqb, tiles := (getCtx s c x).live.tiles, cmds := tileCmds (getCtx s c x),
    bySave := false }

/-- ZXT starts (step 4 of R24, or step 4 of R31): LIC.MINE reads 0 from now on, every handle reads V = 0, and the move takes
8 + 20 × (live banks) master cycles. The banks' waypoint images stay on the core, tied to the context (R297). -/
def startZxt (s : State) (c x : Nat) (bySave : Bool) : State :=
  let p := { matrixOf s c x with bySave := bySave }
  let q := getCore s c
  let s1 := layParked s c x p
  let s2 := setCore s1 c { emptyMatrix (getCore s1 c) with z := .empty, zwp := .empty }
  let k := getCtx s2 c x
  let n := moveCycles (liveBanks p.banks)
  let s3 := setCtx s2 c x { k with moveEnd := s.now + n, zwp := q.zwp, zdirty := q.zdirty, live := { k.live with tiles := .empty } }
  let r := getPair s3 (pairOf c)
  after (signal (setPair s3 (pairOf c) { r with moving := r.moving ++ [c] }) (coreEnd c) (coreEnd (twinOf c))) n (.zxtMoveDone c x)

/-- Is the ZXT move of a context's matrix state over now (R298)? -/
def zxtOver (s : State) (c x : Nat) : Bool :=
  (getPair s (pairOf c)).moving.contains c && licHolds s c x && decide ((getCtx s c x).moveEnd ≤ s.now)

/-- The licence after the holder's ZXT (Table 12.2): a waiting request of the twin core with at least the holder's priority, else
PARKED; under ALT the core's half is free (R279). -/
def zxtDone (s : State) (c x : Nat) : State :=
  let pr := pairOf c
  let p := getPair s pr
  if !zxtOver s c x then s
  else
    let q := { p with moving := p.moving.filter (· != c) }
    if p.mode then altNext (setPair s pr q) pr c
    else licUnpark (setPair s pr { q with holder := none, grantee := none, parkedFor := some (c, x), st := .parked }) pr

/-! ### The move back (R180, R278, R299) -/

/-- Bytes of tiles that outstanding commands of newer bindings still fill or read: those bindings are dropped as by TFREE (R167,
R180). -/
def droppedBindings (k : Ctx) (cmds : List Nat) : List (Nat × Nat × Nat) :=
  (k.copyq.filter fun q => (q.kind == .cpin || q.kind == .cpenc || q.kind == .cpout) && !cmds.contains q.id
    && !k.reserved.any fun r => r.2.2 == q.id).map fun q => (q.base, q.bytes, q.id)

/-- Are the gap and the move back of a parked state over (R299)? Until both are, the state stands where it is parked. -/
def moveBackOver (s : State) (c x : Nat) : Bool :=
  (getCtx s c x).restoring && decide ((getCtx s c x).moveEnd ≤ s.now) && licHolds s c x

/-- The parked banks, queues and handles of a context are on its core again; a LICQ of the open interval keeps a copy for its rollback. What
a save of that interval had parked keeps none of its own. -/
def restoreParked (s : State) (c x : Nat) : State :=
  if !moveBackOver s c x then s
  else match parkedOf s c x with
  | none => setCtx s c x { getCtx s c x with restoring := false }
  | some p =>
    let s1 := clearParked s c x
    let k := getCtx s1 c x
    let s2 := setCore s1 c { getCore s1 c with z := p.banks, zwp := k.zwp, zdirty := k.zdirty, sqa := p.sqa, sqb := p.sqb }
    let lost := droppedBindings k p.cmds
    setCtx s2 c x { k with
      restoring := false
      zwp := .empty
      zdirty := []
      unpark := if p.bySave then k.unpark else if k.grantInInterval then some p else none
      dropped := if p.bySave then k.dropped else lost.map fun r => r.2.2
      reserved := k.reserved ++ lost
      live := { k.live with tiles := p.tiles } }

/-! ### LICMODE (R273) -/

/-- A write to LICMODE is pending until the pair is quiet. -/
def modeWrite (s : State) (pr : Nat) (v : Word) : State :=
  setPair s pr { getPair s pr with pendMode := some (v.getLsbD 0) }

/-- May a pending mode take effect: the licence is FREE, no parked state reserves it, and both arrays last beat 64 or more cycles
ago? -/
def modeDue (s : State) (pr : Nat) : Bool :=
  let p := getPair s pr
  p.pendMode.isSome && p.st == .free && decide (p.freeLower ≤ s.now) && decide (p.freeUpper ≤ s.now)

/-- A pending mode takes effect, and waiting requests are served under it. -/
def modeEffect (s : State) (pr : Nat) : State :=
  let p := getPair s pr
  match p.pendMode with
  | some m =>
    if modeDue s pr then licServe (setPair s pr { p with mode := m, pendMode := none, choose := none, altLower := none, altUpper := none }) pr
    else s
  | none => s

/-! ### Meanings -/

/-- PASSING_GAP_END (R275) -/
def execPassingGapEnd (pr : Nat) (s : State) : Host.Outcome State Fault Refusal :=
  .next (match (getPair s pr).grantee with
    | some g => restoreParked (passingEnd s pr) g.core g.x
    | none => passingEnd s pr)

/-- PARKED_RESTORE_DONE (R299) -/
def execParkedRestoreDone (c x : Nat) (s : State) : Host.Outcome State Fault Refusal := .next (restoreParked s c x)

/-- LICMODE_WRITE (R273) -/
def execLicmodeWrite (pr : Nat) (v : Word) (s : State) : Host.Outcome State Fault Refusal :=
  .next (if valueOk 0x013 v then modeWrite s pr v else s)

/-- LICMODE_TAKES_EFFECT (R273) -/
def execLicmodeTakesEffect (pr : Nat) (s : State) : Host.Outcome State Fault Refusal := .next (modeEffect s pr)

end Sys2Proof.Machine
end

