-- ==== Sys2Proof/Machine/Image.lean ====
section
/-! DEFINITION. The bytes of a context image (R326 to R328, Tables 18.5 to 18.7), and the core-tied state of a saved context (R297,
R331). -/

namespace Sys2Proof.Machine

/-- A value of `n` bytes at an offset of the image. -/
structure Field where
  off : Nat
  val : Nat
  n : Nat

def fieldsAt (off n : Nat) : List Nat → List Field
  | [] => []
  | v :: r => ⟨off, v, n⟩ :: fieldsAt (off + n) n r

/-- VREGS of a header: 0 for 16, 1 for 24, 2 for 32. -/
def vregsCode (n : Nat) : Nat := if n = 16 then 0 else if n = 24 then 1 else 2

/-- Live bank mask. -/
def liveMask (z : Tab Bank) : Nat := (z.cells.filter fun e => e.2.live).foldl (fun m e => m + 2 ^ e.1) 0

/-- The header (Table 18.6) of the image in slot `sl`, under which its parked state goes. -/
def headerFields (s : State) (sl : Nat) (i : Image) : List Field :=
  let live := match parkedOf s i.core (4 + sl) with | some p => liveMask p.banks | none => 0
  fieldsAt 0 8
    [2 ^ 56 + b2n i.trapped * 2 ^ 55 + b2n i.frozen * 2 ^ 54 + b2n i.licheld * 2 ^ 53 + b2n i.coretied * 2 ^ 52 + i.mloc * 2 ^ 50
       + vregsCode i.ctx.vregs * 2 ^ 48 + live * 2 ^ 40 + i.cause.toNat * 2 ^ 32 + (ctxid i.core i.x).toNat,
     i.ctx.taskid.toNat, i.ctx.pc.toNat, i.ctx.allow * 2 ^ 32 + i.ctx.live.claimb * 2 ^ 11 + i.ctx.live.slice]
    ++ fieldsAt 32 8 (List.replicate 28 0)

/-- A context control register, from a register file and the rest of the context. -/
def ctlValue (k : Ctx) (r : Regs) (c x ix : Nat) : Nat :=
  if ix = 0x00 then (ctxid c x).toNat
  else if ix = 0x02 then r.cstat.toNat
  else if ix = 0x03 then r.ocs0.toNat
  else if ix = 0x04 then r.ocs1.toNat
  else if ix = 0x05 then r.bankkey.toNat
  else if ix = 0x07 then openEntries k * 256 + heldEntries k
  else if 0x08 ≤ ix ∧ ix ≤ 0x0F then (tcfgWord (r.tiles.get Tile.off (ix - 8))).toNat
  else if ix = 0x16 then k.taskid.toNat
  else if ix = 0x17 then k.prio.toNat
  else if ix = 0x18 then r.claimb
  else if ix = 0x19 then k.allow
  else if ix = 0x20 then k.trapcause.toNat
  else if ix = 0x21 then k.trappc.toNat
  else if ix = 0x22 then k.trapinfo.toNat
  else if ix = 0x23 then k.rqseq.toNat
  else if ix = 0x24 then k.cmpla.toNat
  else if 0x28 ≤ ix ∧ ix ≤ 0x2F then (r.epi.get 0 (ix - 0x28)).toNat
  else if ix = 0x30 then r.nwatch.toNat
  else 0

/-- The scalar, predicate, control and vector registers with their waypoint images. -/
def regFields (k : Ctx) (c x : Nat) : List Field :=
  let g := fun (r : Regs) => (List.range 32).map fun n => (r.g.get 0 n).toNat
  let p := fun (r : Regs) => (List.range 16).map fun n => if n = 0 then 2 ^ 32 - 1 else (r.p.get 0 n).toNat
  let ctl := fun (r : Regs) => (List.range 0x31).map fun n => ctlValue k r c x n
  let v := fun (r : Regs) => (List.range k.vregs).map fun n => (r.v.get 0 n).toNat
  fieldsAt 0x100 8 (g k.live ++ g k.wp) ++ fieldsAt 0x300 4 (p k.live ++ p k.wp)
    ++ fieldsAt 0x380 8 (ctl k.live) ++ fieldsAt 0x580 8 (ctl k.wp)
    ++ fieldsAt 0x3000 128 (v k.live ++ v k.wp)

def monCode : MonState → Nat | .disarmed => 0 | .armed => 1 | .fired => 2

/-- Twin window, arrival counters, monitor and NPREV. -/
def windowFields (k : Ctx) : List Field :=
  let ws := (List.range 8).map fun n => k.w.get WReg.reset n
  fieldsAt 0x780 8 (ws.map (fun r => r.val.toNat)
    ++ [(List.range 8).foldl (fun m n => m + b2n (ws.getD n WReg.reset).valid * 2 ^ n) 0]
    ++ ((List.range 8).map fun n => (k.acnt.get 0 n).toNat)
    ++ [k.mon.addrs.headD 0, monCode k.mon.st,
        match k.nprev with | some v => 2 ^ 32 + v.toNat | none => 0])

def destReg : Dest → Nat | .g n => n | .v n => n | .p n => n

/-- Pending long loads. -/
def loadFields (k : Ctx) : List Field :=
  fieldsAt 0x880 8 (k.loads.flatMap fun l =>
    [l.ref.toNat, destReg l.dest + l.cls.toNat * 2 ^ 5 + b2n l.cancelled * 2 ^ 9])

/-- A recorded release: opcode and operand field. -/
def releaseWord : Release → Nat
  | .tfree t => 2 * 2 ^ 56 + t.toNat
  | .trel t => 18 * 2 ^ 56 + t.toNat
  | .zfree z => 9 * 2 ^ 56 + z.toNat
  | .sqclr q => 11 * 2 ^ 56 + b2n q
  | .licr => 22 * 2 ^ 56
  | .licx => 23 * 2 ^ 56
  | .publ _ _ a => 20 * 2 ^ 56 + a.toNat

/-- Bytes of lane `i` in an entry's data: the low bytes of the cells of that lane, in order. -/
def entryData (e : StoreEntry) : List Nat := e.cells.map fun c => c.2.toNat

/-- The cells of a vector entry stand lane by lane in the order of its lanes; each lane's data go to its own place. -/
def spreadData (w : Nat) : List Nat → List Nat → List Field
  | [], _ => []
  | i :: r, d => fieldsAt (w * i) 1 (d.take w) ++ spreadData w r (d.drop w)

/-- One withheld store entry (Table 18.7) at an offset. -/
def entryFields (off : Nat) (e : StoreEntry) : List Field :=
  let lanes := if e.vec then lanesList e.mask else [0]
  [⟨off, e.ref.toNat, 8⟩, ⟨off + 8, e.cls.toNat + Nat.log2 e.width * 16 + b2n e.vec * 64 + b2n e.committed * 128, 1⟩,
   ⟨off + 9, b2n e.scatter, 1⟩, ⟨off + 12, e.mask.toNat, 4⟩]
    ++ (spreadData e.width lanes (entryData e)).map fun f => { f with off := off + 16 + f.off }

def bufferFields (n : Nat) : List StoreEntry → List Field
  | [] => []
  | e :: r =>
    entryFields (0xC00 + 144 * n) e
      ++ (if e.scatter then fieldsAt (0x57000 + 128 * n) 4 ((List.range 32).map fun i => (lane e.idx i).toNat) else [])
      ++ bufferFields (n + 1) r

/-- A scale queue's entries and pointers. -/
def queueFields (off : Nat) (q : ScaleQ) : List Field :=
  ⟨off, (sqstat q).toNat, 8⟩ ::
    ((List.range 16).flatMap fun n => fieldsAt (off + 64 + 64 * n) 1 ((q.ents.get [] n).map (·.toNat)))

/-- Banks, 80-bit elements packed row-major. -/
def bankFields (off : Nat) (z : Tab Bank) : List Field :=
  (z.cells.filter fun e => e.2.live).flatMap fun e => (List.range 2048).map fun n =>
    ⟨off + 20480 * e.1 + 10 * n, (e.2.elems.get 0 n).toNat, 10⟩

/-- The matrix areas, with the accumulator waypoint images `zwp` of the context. -/
def matrixFields (p : Parked) (zwp : Tab Bank) : List Field :=
  queueFields 0x5000 p.sqa ++ queueFields 0x5800 p.sqb
    ++ fieldsAt 0x6000 8 ((List.range 8).map fun n => (tcfgWord (p.tiles.get Tile.off n)).toNat)
    ++ fieldsAt 0x6040 8 ((List.range 8).map fun n =>
        let b := p.banks.get Bank.reset n
        (BitVec.ofInt 16 b.zexp).toNat + b2n b.inexact * 65536 + b2n b.ovf * 131072)
    ++ bankFields 0x7000 p.banks ++ bankFields 0x2F000 zwp

/-- Every field of the image. STL takes no entry of the buffer (R117). -/
def imageFields (s : State) (sl : Nat) (i : Image) : List Field :=
  headerFields s sl i ++ regFields i.ctx i.core i.x ++ windowFields i.ctx ++ loadFields i.ctx
    ++ fieldsAt 0x980 8 (i.ctx.releases.map releaseWord) ++ bufferFields 0 (i.ctx.wbuf.filter fun e => !e.release)
    ++ (match i.ctx.mstate with | some p => if i.mloc = 2 then matrixFields p i.ctx.zwp else [] | none => [])

/-- First byte of an image slot. -/
def slotBase (s : State) (sl : Nat) : Nat := s.serai.poolBase + sl * 2 ^ 21

def writeFields (s : State) (base : Nat) : List Field → State
  | [] => s
  | f :: r => writeFields (writeDepots s (cellsOf (base + f.off) f.val f.n)) base r

/-- The image of a slot is written, over the links of its core's die (R337). -/
def writeImage (s : State) (sl : Nat) : State :=
  match s.serai.images.find sl with
  | some i => writeFields (carryTo s (coreEnd i.core) .plain (homeEnd (slotBase s sl)).toList) (slotBase s sl) (imageFields s sl i)
  | none => s

/-! ### Core-tied state (R297, R331) -/

def putImage (s : State) (sl : Nat) (i : Image) : State := setSerai s fun r => { r with images := r.images.set sl i }

/-- Tiles of a saved context: its own and the parked ones. -/
def savedTiles (s : State) (sl : Nat) (i : Image) : List Tile :=
  ((i.ctx.live.tiles.cells.map (·.2)) ++ (match parkedOf s i.core (4 + sl) with
    | some p => p.tiles.cells.map (·.2) | none => [])).filter fun t => t.v

/-- Storage byte on core `c`, and its place in the image, of every byte of a saved context's tiles and slices. -/
def tiedBytes (s : State) (sl c : Nat) (i : Image) : List (Nat × Nat) :=
  let key := i.ctx.live.bankkey.setWidth 32
  ((savedTiles s sl i).flatMap fun t => (List.range t.bytes).map fun b =>
    (tileByte c key t.view (t.base + b), 0x100000 + t.base + b))
  ++ (List.range 32).flatMap fun l => (List.range (4 * i.ctx.live.slice)).map fun b =>
    (sliceBase c + l * 4096 + i.ctx.slbase * 4 + b, 0x60000 + 4096 * l + b)

/-- The core-tied bytes and any parked matrix state are written into the image; the core's bytes are free, and a licence PARKED for the
context goes on as on a release (R278, R331). -/
def moveOut (s : State) (sl : Nat) : State :=
  match s.serai.images.find sl with
  | none => s
  | some i =>
    let cells := (tiedBytes s sl i.core i).map fun a => (slotBase s sl + a.2, s.mem.read a.1)
    let s1 := writeDepots s cells
    let held := parkedOf s i.core (4 + sl)
    let s2 := freeParkedLicence (dropParked s1 i.core (4 + sl)) i.core (4 + sl)
    let k : Ctx := { i.ctx with mstate := held }
    let i2 := { i with ctx := k, coretied := false, mloc := if held.isSome then 2 else 0 }
    writeImage (putImage s2 sl i2) sl

/-- The target's tile store and lane slices are filled from the image (R331). -/
def fillCore (s : State) (sl c : Nat) (i : Image) : State :=
  writeDepots (askHomes s (coreEnd c) .plain (homeEnd (slotBase s sl)).toList)
    ((tiedBytes s sl c i).map fun a => (a.1, s.mem.read (slotBase s sl + a.2)))

end Sys2Proof.Machine
end

