-- ==== Sys2Proof/Machine/Context.lean ====
section
/-! DEFINITION. Pre-emption, trap delivery, saving and restoring of contexts (R31, R315 to R333). -/

namespace Sys2Proof.Machine

/-! ### Image slots -/

/-- The lowest free image slot among the next `fuel`. -/
def freeSlotFrom (s : State) : Nat → Nat → Option Nat
  | 0, _ => none
  | f + 1, n =>
    if s.serai.slots ≤ n then none
    else if (s.serai.images.find n).isSome then freeSlotFrom s f (n + 1) else some n

/-- The slot that the next save takes (log entry 16). -/
def freeSlot (s : State) : Option Nat := freeSlotFrom s (s.serai.images.cells.length + 1) 0

/-- The task of a context in the dependence table. -/
def ctxTask (s : State) (k : Ctx) : Option Task := match k.task with | some e => getTask s e | none => none

/-! ### Stopping a context (R31, R324) -/

/-- A running context stops at this bundle boundary; a waypoint commit in progress completes first. A waiting LICQ withdraws its
request. -/
def stopContext (s : State) (c x : Nat) : State :=
  let s1 := setCtx s c x { getCtx s c x with
    status := .draining, preempting := none, slept := (getCtx s c x).status == .asleep }
  licWithdraw (match (getPair s1 (pairOf c)).grantee with
    | some g =>
      if g.core = c ∧ g.x = x ∧ (getPair s1 (pairOf c)).st = .passing then
        licReturn (setCtx s1 c x { getCtx s1 c x with restoring := false }) c x false
      else s1
    | none => s1) c x

/-- Can a context be pre-empted: it holds a task or runs code, no trap of it is to be settled, and the image pool is given (R322)? -/
def preemptable (s : State) (c x : Nat) : Bool :=
  let k := getCtx s c x
  (k.status == .running || k.status == .halted || k.status == .asleep) && k.pend.isNone && decide (0 < s.serai.slots)

/-- The scheduler, the driver or a QUIESCE step asks for a context: it is pre-empted at the next bundle boundary (R31, R323, R360). -/
def askPreempt (s : State) (c x : Nat) : State :=
  if preemptable s c x && (getCtx s c x).preempting.isNone then setCtx s c x { getCtx s c x with preempting := some s.now } else s

/-- CONTEXT_PREEMPTION (R31): the context stops at this bundle boundary, or, if the core is globally stalled, at the first at which it
is not. -/
def preempt (s : State) (c x : Nat) : State :=
  if !preemptable s c x then s
  else if stalled s c then askPreempt s c x
  else stopContext (dropIssue s c x) c x

/-- Is the boundary reached at which a context that was asked for stops: one of a later master cycle, with no global stall? -/
def preemptDue (s : State) (c x : Nat) : Bool :=
  (match (getCtx s c x).preempting with | some m => decide (m < s.now) | none => false) && preemptable s c x && !stalled s c

/-- TRAP_DELIVERY (R28, R315): a context whose beats and windows are over is restored; a trapped or frozen one is saved once an image
slot is free. -/
def deliverTrap (s : State) (c x : Nat) : State :=
  let k := getCtx s c x
  if k.stopping then
    match k.pend with
    | some t => if inFlight s c x then s else restoreTrap s c x t
    | none => s
  else if (k.status = .trapped ∨ k.status = .frozen) ∧ k.pend.isSome ∧ (freeSlot s).isSome then stopContext s c x else s

/-- Engine beats and windows of a draining context are over (R31, step 2). -/
def drained (s : State) (c x : Nat) : Bool :=
  let k := getCtx s c x
  (!k.committing || k.pend.isSome) && !k.stopping && !inFlight s c x

/-- Loads that step 3 still waits for. -/
def awaited (k : Ctx) : List LongLoad := k.loads.filter fun l => !l.cancelled
/-- A plain long load, which PREDRAIN may cancel. -/
def plainLoad (l : LongLoad) : Bool := !l.acquire && l.atomic.isNone

/-- PREDRAIN_EXPIRY (R31): each plain long load still pending is cancelled. -/
def predrain (s : State) (c x : Nat) : State :=
  let k := getCtx s c x
  if k.status = .waiting ∧ k.count = 0 then
    setCtx s c x { k with loads := k.loads.map fun l => if plainLoad l then { l with cancelled := true } else l }
  else s

/-- Does PREDRAIN expire now? -/
def predrainDue (k : Ctx) : Bool := k.status == .waiting && k.count == 0 && (awaited k).any plainLoad

/-! ### Saving (R31 step 5, R325) -/

/-- Does a trap freeze its context (Table 18.3)? -/
def freezes (t : TrapReq) : Bool := t.cause == 0x20 || t.cause == 0x21 || t.cause == 0x22

/-- The saved context of an image. -/
def savedImage (s : State) (c x : Nat) (lic : Bool) : Image :=
  let k := getCtx s c x
  { ctx := k, core := c, x := x, trapped := k.pend.any fun t => !freezes t, frozen := k.pend.any freezes,
    licheld := lic, coretied := true,
    mloc := if k.mstate.isSome then 2 else if (parkedOf s c x).isSome then 1 else 0,
    cause := match k.pend with | some t => t.cause | none => 0, task := k.task, saving := true, target := none }

/-- The saving itself starts, into slot `sl`: 600 core cycles plus 4 for each withheld entry; it is over in the core cycle after them
(Table 20.11). It reads the context's registers (R208). -/
def beginSave (s : State) (c x sl : Nat) (lic : Bool) : State :=
  let s1 := touchRun s c x
  let k := getCtx s1 c x
  setCtx (putImage s1 sl (savedImage s1 c x lic)) c x
    { k with status := .saving, slot := sl, count := 600 + 4 * (heldEntries k) + 1 }

/-- May a stopped context go on to step 4 of R31: its loads are in, and no move of matrix state holds it up? -/
def saveWaits (s : State) (c x : Nat) : Bool :=
  let k := getCtx s c x
  !(awaited k).isEmpty || (getPair s (pairOf c)).moving.contains c || k.restoring

/-- Is step 2 of R31 over: the beats and windows ended in an earlier master cycle (R298)? -/
def drainOver (s : State) (c x : Nat) : Bool := drained s c x && decide ((getCore s c).cycledAt < s.now)

/-- The next stage of a stopped context (R31, steps 2 to 5). The slot is chosen at the start of the save, its ZXT move included
(R325). -/
def advanceSave (s : State) (c x : Nat) : State :=
  let k := getCtx s c x
  match k.status with
  | .draining => if drainOver s c x then setCtx s c x { k with status := .waiting, count := s.pkg.predrain.toNat } else s
  | .waiting =>
    if saveWaits s c x then s
    else match freeSlot s with
      | none => s
      | some sl =>
        if licHolds s c x then
          startZxt (setCtx (putImage s sl (savedImage s c x true)) c x { k with status := .parking, slot := sl }) c x true
        else beginSave s c x sl k.licWait
  | _ => s

/-- Would a stage of a stopped context go on now? -/
def saveMoves (s : State) (c x : Nat) : Bool :=
  match (getCtx s c x).status with
  | .draining => drainOver s c x
  | .waiting => !saveWaits s c x && (freeSlot s).isSome
  | _ => false

/-- ZXT_MOVE_DONE (R298): the licence goes on, and a pre-emption goes on to its save. -/
def zxtMoveDone (s : State) (c x : Nat) : State :=
  let s1 := zxtDone s c x
  let k := getCtx s1 c x
  if zxtOver s c x ∧ k.status = .parking then beginSave s1 c x k.slot true else s1

/-- Ownership of a parked state and of a PARKED licence passes with its context. -/
def renameParked (s : State) (c x y : Nat) : State :=
  let t := getCore s (twinOf c)
  let s1 := match t.park with
    | some p => if p.core = c ∧ p.x = x then setCore s (twinOf c) { t with park := some { p with x := y } } else s
    | none => s
  let p := getPair s1 (pairOf c)
  if p.parkedFor = some (c, x) then setPair s1 (pairOf c) { p with parkedFor := some (c, y) } else s1

/-- Committed stores of a context fall due under the name it goes by now. -/
def repostStores (s : State) (c x : Nat) : List StoreEntry → State
  | [] => s
  | _ :: r => repostStores (later s (.storePerformed c x)) c x r

/-- The event of a trapped or frozen save (R317, Table 18.2). -/
def saveEvent (s : State) (i : Image) (sl : Nat) : State :=
  let n := i.cause.toNat * 2 ^ 56 + i.core % 2048 * 2 ^ 32 + sl
  if i.frozen then
    let s1 := event s 0x02 [BitVec.ofNat 64 n]
    if i.cause = 0x21 then countFault s1 (stackOf i.core % 8) true else s1
  else if i.trapped then event s 0x01 [BitVec.ofNat 64 (n + i.x % 4 * 2 ^ 30)]
  else s

/-- May the save of image slot `sl` end: its cycles are over, and a trapped context's committed stores have drained (R315)? -/
def saveEnds (s : State) (sl : Nat) : Bool :=
  match s.serai.images.find sl with
  | none => false
  | some i =>
    let k := getCtx s i.core i.x
    i.saving && k.status == .saving && k.slot == sl && k.count == 0 && (k.pend.isNone || (committedEntries k).isEmpty)

/-- A pre-empted task returns to its cluster queue (R323, R224). -/
def requeueSaved (s : State) (e sl : Nat) : State :=
  match getTask s e with
  | none => s
  | some t =>
    let n := s.serai.order
    putTask (setSerai s fun r => { r with order := n + 1 }) e { t with st := .saved, slot := sl, order := n, since := s.now }

/-- A QUIESCE step counts the contexts it saves (Table 20.8). -/
def countSaved (s : State) (c : Nat) : State :=
  let q := getCluster s (clusterOf c)
  if !isMgmt c && q.busy && q.st == 0 && q.req == 1 then setCluster s (clusterOf c) { q with saved := Nat.min (q.saved + 1) 255 } else s

/-- The image of an ended save is written; on a die that drains for its reset its core-tied state goes there at once (R346). -/
def layImage (s : State) (sl c : Nat) : State :=
  if 2 ≤ (getDie s (dieOf c)).rphase ∧ !isMgmt c then moveOut s sl else writeImage s sl

/-- CONTEXT_SAVE_DONE (R325): the context stands in its image, and its hardware context is free; its valid bits w0 to w7 are cleared at
this moment of the save (log entry 147). -/
def saveDone (s : State) (sl : Nat) : State :=
  if !saveEnds s sl then s
  else match s.serai.images.find sl with
  | none => s
  | some i =>
    let c := i.core
    let k := { getCtx s c i.x with status := .free, block := .no }
    let i1 := { i with ctx := k, saving := false }
    let s1 := renameSent (renameParked (putImage s sl i1) c i.x (4 + sl)) c i.x (4 + sl)
    let s2 := setCtx s1 c i.x (twinCleared (freedCtx k))
    let s3 := repostStores (forgetRun s2 c k.run) c (4 + sl) (committedEntries k)
    let s4 := match k.task with | some e => requeueSaved s3 e sl | none => s3
    saveEvent (countSaved (layImage s4 sl c) c) i1 sl

/-! ### Restoring (R331 to R333) -/

/-- Is a saved context waiting to be restored: its save is over and no driver decision is awaited? -/
def restorable (i : Image) : Bool := !i.saving && !i.trapped && !i.frozen

/-- Is the window of slice words free on a core for a saved context? -/
def windowFree (s : State) (c sl base n : Nat) : Bool :=
  decide (base + n ≤ Config.sliceWords) &&
    ((([0, 1, 2, 3].map fun y => getCtx s c y) ++ ((slotsOn s c).filter fun e => e.1 != sl).map fun e => e.2.ctx).all fun k =>
      k.live.slice == 0 || n == 0 || decide (base + n ≤ k.slbase) || decide (k.slbase + k.live.slice ≤ base))

/-- The first free window of `n` slice words; `own` is tried first. -/
def findWindow (s : State) (c sl own n : Nat) : Option Nat :=
  if windowFree s c sl own n then some own else (List.range Config.sliceWords).find? fun b => windowFree s c sl b n

/-- Tile-store bytes claimed on a core by others than image slot `sl`. -/
def claimedBytes (s : State) (c sl : Nat) : Nat :=
  (([0, 1, 2, 3].map fun y => (getCtx s c y).live.claimb) ++
    ((slotsOn s c).filter fun e => e.1 != sl).map fun e => e.2.ctx.live.claimb).sum

/-- Ranges configured on a core by others than image slot `sl`. -/
def otherRanges (s : State) (c sl : Nat) : List (Nat × Nat) :=
  ([0, 1, 2, 3].flatMap (ranges s c)) ++
  ((slotsOn s c).filter fun e => e.1 != sl).flatMap fun e =>
    tileRanges e.2.ctx.live.tiles ++ parkedRanges (parkedOf s c (4 + e.1)) ++ e.2.ctx.reserved.map fun r => (r.1, r.2.1)

/-- What keeps a saved context off a core (R331): 1 registers, 2 tile store, 3 the rest; 0 where it can be placed. -/
def refusal (s : State) (sl c : Nat) (i : Image) (force : Bool) : Nat :=
  let k := i.ctx
  if (findRegs s c k.vregs).isNone then 1
  else if decide (k.live.claimb > Config.tileStoreBytes - claimedBytes s c sl)
      || (savedTiles s sl i).any (fun t => (otherRanges s c sl).any (overlaps (t.base, t.bytes)))
      || (findWindow s c sl k.slbase k.live.slice).isNone then 2
  else if !k.copyq.isEmpty || (!force && clusterOf c != clusterOf i.core) || isMgmt c != isMgmt i.core then 3
  else 0

/-- The manifest of a saved task. -/
def savedManifest (s : State) (i : Image) : Option Manifest :=
  match i.task with
  | some e => (match getTask s e with | some t => manifestOf s t.seq | none => none)
  | none => none

/-- May a saved context stand on context `x` of core `c`: does it lie in its manifest's level-0 instance (R213)? -/
def mayStand (s : State) (i : Image) (c x : Nat) : Bool :=
  match savedManifest s i with | some m => placeInInstance m c x | none => true

/-- A free hardware context of a core for a saved context: the lowest (log entry 16). -/
def freeCtx (s : State) (i : Image) (c : Nat) : Option Nat :=
  [0, 1, 2, 3].find? fun x => (getCtx s c x).status == .free && mayStand s i c x

/-- Can a core take contexts: its cluster is in STATE 0, its die is not in reset, and it has two banks in service? -/
def coreRuns (s : State) (c : Nat) : Bool :=
  isMgmt c || ((getCluster s (clusterOf c)).st == 0 && !(getCluster s (clusterOf c)).busy && !dieDown s (dieOf c)
    && repBits (getCore s c) != 0)

/-- Can tasks be placed on a core: it can take contexts, and its stack is not excluded (R368)? -/
def coreUp (s : State) (c : Nat) : Bool := coreRuns s c && (isMgmt c || !excluded s (stackOf c))

/-! ### The dies' processes (R235) -/

/-- Does a die hold no task of another process than `pid`, placed or saved with state tied to it (R235)? -/
def dieFree (s : State) (d pid : Nat) : Bool :=
  (s.serai.tasks.cells.all fun e => e.2.pid == pid || e.2.st != .placed || dieOf e.2.core != d)
  && s.serai.images.cells.all fun i => dieOf i.2.core != d || !i.2.coretied || isMgmt i.2.core ||
      (match i.2.task with | some e => (match getTask s e with | some t => t.pid == pid | none => true) | none => true)

/-- The clearing of a die for a process starts (R235): it takes 65,536 master cycles. -/
def startClear (s : State) (d pid : Nat) : State :=
  after (setDie s d { getDie s d with clearing := some (pid, s.now + 65536) }) 65536 (.dieClearDone d)

/-- Do the accumulators and memories of a die belong to process `pid` now? -/
def dieReady (s : State) (d pid : Nat) : Bool := (getDie s d).tag == some pid && (getDie s d).clearing.isNone

/-- May a context of process `pid` stand on core `c`? Management contexts are no placed tasks. -/
def dieTakes (s : State) (c pid : Nat) : Bool := isMgmt c || dieFree s (dieOf c) pid

/-- The banks of the run that a restore or a placement takes are asked to be ON; the answer says whether they are. -/
def banksReady (s : State) (c n : Nat) : State × Bool :=
  match findRegs s c n with
  | none => (s, false)
  | some b => if banksOn s c b n then (s, true) else (wakeRun s c (banksOf b n), false)

/-- What must come before a context of process `pid` with `n` registers stands on core `c`: its die is cleared for the process (R235),
and the register banks of its run are ON (R208). The answer says whether both are done. -/
def coreReady (s : State) (c pid n : Nat) : State × Bool :=
  if !mayPass s 16 (coreEnd c) then (s, false)
  else if isMgmt c || dieReady s (dieOf c) pid then banksReady s c n
  else (if (getDie s (dieOf c)).clearing.isNone then startClear s (dieOf c) pid else s, false)

/-- A sleeping MNAP wakes with code 3, an armed monitor is restored as FIRED (R193). -/
def wakeRestored (k : Ctx) : Ctx :=
  match k.nap with
  | some d =>
    let put := fun (r : Regs) => if d = 0 then r else { r with g := r.g.set d 3 }
    { k with live := put k.live, wp := put k.wp, nap := none, mon := ⟨[], .disarmed, false⟩ }
  | none => if k.mon.st = .armed then { k with mon := { k.mon with st := .fired } } else k

/-- Cancelled loads are reissued before the first bundle (R31). -/
def reissue (s : State) (c x : Nat) : List LongLoad → State
  | [] => s
  | l :: r => reissue (if l.cancelled then later s (.longLoadReturn c x l.id) else s) c x r

/-- The implicit licence request of a context that held the licence at its save (R278). -/
def implicitRequest (s : State) (c x : Nat) : State :=
  let pr := pairOf c
  let r : LicReq := ⟨c, x, (getCtx s c x).prio.toNat, s.now, true⟩
  licArrive (setCtx s c x { getCtx s c x with licWait := true }) pr r

/-- A saved task is placed again (R323, R331); on another core it leaves the nodes of the instances it no longer lies in, and enters those
of its new place (R231). -/
def placeAgain (s : State) (e c x : Nat) : State :=
  match getTask s e with
  | none => s
  | some t =>
    let n := s.serai.order
    let s1 := putTask (setSerai s fun r => { r with order := n + 1 }) e { t with
      st := .placed, core := c, x := x, refusals := 0, order := n,
      cluster := if isMgmt c then t.cluster else clusterOf c, stack := if isMgmt c then t.stack else stackOf c }
    match manifestOf s1 t.seq with
    | some m => nodesMove s1 m t.core c m.levels.length
    | none => s1

/-- The message that brings a restored context back, with the bytes of its tiles and slices (R337, R344). -/
def placedAgain (s : State) (c x : Nat) (as : List Nat) : State :=
  carry s 16 (coreEnd c) (if keepsLog s (coreEnd c) then .place c x (getCtx s c x) (as.map fun a => (a, s.mem.read a)) else .plain)

/-- A saved context stands on context `x` of core `c` again (R331). -/
def restoreAt (s : State) (sl c x : Nat) : State :=
  match s.serai.images.find sl with
  | none => s
  | some i0 =>
    let s0 := if c ≠ i0.core ∧ i0.coretied then moveOut s sl else s
    match s0.serai.images.find sl with
    | none => s0
    | some i =>
      match findRegs s0 c i.ctx.vregs, findWindow s0 c sl i.ctx.slbase i.ctx.live.slice with
      | some base, some win =>
        let i1 := { i with ctx := { i.ctx with slbase := win } }
        let s1 := if i.coretied then s0 else fillCore s0 sl c i1
        let s2 := setSerai s1 fun r => { r with images := r.images.erase sl }
        let k : Ctx := wakeRestored { i1.ctx with
          run := if i1.ctx.closed < i1.ctx.goal then i1.ctx.run else s.fresh + 1
          sent := []
          status := if i1.ctx.ended then .halted else if i1.ctx.slept then .asleep else .running, slept := false, vbase := base, pend := none, lastIssue := (getCtx s2 c x).lastIssue
          mstate := i1.ctx.mstate.map fun p => { p with core := c, x := x }
          loads := i1.ctx.loads.map fun l => { l with cancelled := false } }
        let s3 := renameSent (renameParked (setCtx s2 c x k) c (4 + sl) x) c (4 + sl) x
        let s4 := repostStores (reissue s3 c x i.ctx.loads) c x (committedEntries k)
        let s5 := match k.task with | some e => placeAgain s4 e c x | none => s4
        placedAgain (if i.licheld then implicitRequest s5 c x else s5) c x ((tiedBytes s0 sl c i1).map (·.1))
      | _, _ => s0

/-- Cores of a cluster in the order in which a saved context tries them: its own, then the others in ascending number (R332), those
outside its manifest's level-0 instance left out (R213). -/
def restoreCores (s : State) (i : Image) : List Nat :=
  if isMgmt i.core then [i.core]
  else (i.core :: ((List.range 8).map fun n => 8 * clusterOf i.core + n).filter fun c => c != i.core).filter fun c =>
    [0, 1, 2, 3].any (mayStand s i c)

/-- Those of them that can take contexts, with what keeps it off each (R331). -/
def restoreTries (s : State) (sl : Nat) (i : Image) : List (Nat × Nat) :=
  ((restoreCores s i).filter (coreRuns s)).map fun c => (c, refusal s sl c i false)

/-- The core and context a saved context can be placed on now: the first core that does not refuse it, once it has a free context and
its die is the process's to take (R224, R235, R332). -/
def restoreTarget (s : State) (sl : Nat) (i : Image) : Option (Nat × Nat) :=
  match (restoreTries s sl i).find? fun q => q.2 == 0 with
  | some q => if dieTakes s q.1 i.ctx.pid then (freeCtx s i q.1).map fun x => (q.1, x) else none
  | none => none

/-- Has every core that a saved context can try refused it (R332)? -/
def allRefuse (s : State) (sl : Nat) (i : Image) : Bool :=
  !(restoreTries s sl i).isEmpty && (restoreTries s sl i).all fun q => q.2 != 0

/-- The reason of the event: the one that every core gives, else 3, the cluster is full (Table 18.2). -/
def refusalReason (s : State) (sl : Nat) (i : Image) : Nat :=
  if (restoreTries s sl i).all (fun q => q.2 == 1) then 1
  else if (restoreTries s sl i).all (fun q => q.2 == 2) then 2
  else 3

/-- The event of a fixed task that no core of its cluster can take (Table 18.2). -/
def unplaceable (s : State) (t : Task) (reason : Nat) : State :=
  event s 0x04 [BitVec.ofNat 64 (t.seq.toNat * 2 ^ 32 + t.index % 2 ^ 24 * 2 ^ 8 + reason)]

/-- Every core of its cluster has refused a saved context (R332): a divisible task counts the pass, and its fourth aborts and splits it;
a fixed task raises its event once. -/
def refused (s : State) (sl : Nat) (i : Image) (e : Nat) (t : Task) : State :=
  let s1 := { s with delays := s.delays.drop 1 }
  let t1 := { t with refusals := t.refusals + 1, notBefore := s.now + 1 + nextDelay s }
  if t.fixed then
    let s2 := putTask s1 e t1
    if t.refusals = 0 then unplaceable s2 t (refusalReason s sl i) else s2
  else if t.refusals = 3 then abortAndSplit (putTask s1 e t1) e
  else putTask s1 e t1

/-! ### Cluster queues (R224, R235) -/

/-- Can context `x` of core `c` take task `t` of a manifest: the task waits in its cluster's queue, the context is free with registers
for it, and both lie where the task may be placed? -/
def placeable (s : State) (t : Task) (m : Manifest) (c x : Nat) : Bool :=
  t.st == .ready && decide (t.notBefore ≤ s.now) && clusterOf c == t.cluster && !isMgmt c && decide (x < 4)
  && coreUp s c && (getCtx s c x).status == .free && placeInInstance m c x && (findRegs s c m.vregs).isSome
  && dieFree s (dieOf c) t.pid

/-- Does a task come before another in a ready queue (R224)? -/
def queueBefore (a b : Task) : Bool :=
  decide (b.prio < a.prio) || (a.prio == b.prio &&
    (decide (a.seq < b.seq) || (a.seq == b.seq &&
      (decide (a.index < b.index) || (a.index == b.index && decide (a.order < b.order))))))

/-- Could a queued task take a context of core `c` now: a ready task context `x`, a saved task the core? -/
def couldTake (s : State) (t : Task) (c x : Nat) : Bool :=
  match t.st with
  | .ready => (match manifestOf s t.seq with | some m => placeable s t m c x | none => false)
  | .saved => (match s.serai.images.find t.slot with
    | some i => restorable i && decide (t.notBefore ≤ s.now) && (restoreTarget s t.slot i).any fun q => q.1 == c
    | none => false)
  | _ => false

/-- Does no task before `t` in its cluster's queue take a context of core `c` first (R224)? -/
def firstInLine (s : State) (t : Task) (c x : Nat) : Bool :=
  s.serai.tasks.cells.all fun o => o.2.cluster != t.cluster || !queueBefore o.2 t || !couldTake s o.2 c x

/-- Can a MOVE put a saved context on core `c` (R331)? Onto another stack only while that one is not excluded (R368). -/
def canMove (s : State) (sl c : Nat) (i : Image) (force : Bool) : Bool :=
  restorable i && (coreUp s c || (coreRuns s c && stackOf c == stackOf i.core)) && refusal s sl c i force == 0 && dieTakes s c i.ctx.pid && (freeCtx s i c).isSome

/-- A moved context takes its place once its die is cleared for its process and the register banks of its run are ON. -/
def moveTo (s : State) (sl c : Nat) (i : Image) : State :=
  let b := coreReady s c i.ctx.pid i.ctx.vregs
  match freeCtx s i c with
  | some x => if b.2 then restoreAt b.1 sl c x else putImage b.1 sl { i with target := some c }
  | none => s

/-- CONTEXT_RESTORE (R331, R332). A context that a MOVE sends elsewhere goes there if it still can. -/
def restore (s : State) (sl : Nat) : State :=
  match s.serai.images.find sl with
  | none => s
  | some i =>
    if !restorable i then s
    else match i.target with
    | some c => if canMove s sl c i true then moveTo s sl c i else putImage s sl { i with target := none }
    | none => match restoreTarget s sl i with
      | some (c, x) =>
        let turn := match i.task with
          | some e => (match getTask s e with | some t => decide (t.notBefore ≤ s.now) && firstInLine s t c x | none => true)
          | none => true
        let b := coreReady s c i.ctx.pid i.ctx.vregs
        if !turn then s else if b.2 then restoreAt b.1 sl c x else b.1
      | none =>
        if !allRefuse s sl i then s
        else match i.task with
          | some e => (match getTask s e with | some t => refused s sl i e t | none => s)
          | none => s

/-! ### Writes to registers of a context (R41, R190, R283) -/

/-- A context-held register written by a row of its own. -/
def ctxWrite (s : State) (c x ix : Nat) (v : Word) : State :=
  if valueOk ix v && ctxHeld ix then setCtx s c x (writeCtxReg (getCtx s c x) ix v) else s

/-! ### Meanings -/

/-- CONTEXT_PREEMPTION (R31) -/
def execContextPreemption (c x : Nat) (s : State) : Host.Outcome State Fault Refusal := .next (preempt s c x)

/-- TRAP_DELIVERY (R315) -/
def execTrapDelivery (c x : Nat) (s : State) : Host.Outcome State Fault Refusal := .next (deliverTrap s c x)

/-- PREDRAIN_EXPIRY (R31) -/
def execPredrainExpiry (c x : Nat) (s : State) : Host.Outcome State Fault Refusal := .next (predrain s c x)

/-- ZXT_MOVE_DONE (R298) -/
def execZxtMoveDone (c x : Nat) (s : State) : Host.Outcome State Fault Refusal := .next (zxtMoveDone s c x)

/-- CONTEXT_SAVE_DONE (R325) -/
def execContextSaveDone (sl : Nat) (s : State) : Host.Outcome State Fault Refusal := .next (saveDone s sl)

/-- CONTEXT_RESTORE (R331) -/
def execContextRestore (sl : Nat) (s : State) : Host.Outcome State Fault Refusal := .next (restore s sl)

/-- BANKKEY_WRITE (R190) -/
def execBankkeyWrite (c x : Nat) (v : Word) (s : State) : Host.Outcome State Fault Refusal := .next (ctxWrite s c x 0x005 v)

/-- NWATCH_WRITE (R283) -/
def execNwatchWrite (c x : Nat) (v : Word) (s : State) : Host.Outcome State Fault Refusal := .next (ctxWrite s c x 0x030 v)

end Sys2Proof.Machine
end

