-- ==== Sys2Proof/Machine/Power.lean ====
section
/-! DEFINITION. Energy grants, clock patterns, the master clock, cluster gating, and the writes of CWR to registers outside the context
(R349 to R362). -/

namespace Sys2Proof.Machine

/-! ### The energy bucket (R30, R351) -/

/-- The refill up to this master cycle, cut at the ceiling. -/
def settleBal (s : State) (c : Nat) : State :=
  let k := getCore s c
  let p := profileOf s c
  setCore s c { k with ebal := Nat.min (ceilOf p) (k.ebal + refillOf p * (s.now - k.ebalAt)), ebalAt := s.now }

def settleAll (s : State) : List Nat → State
  | [] => s
  | c :: r => settleAll (settleBal s c) r

def coresOfDie (d : Nat) : List Nat := (List.range 128).map fun i => 128 * d + i
def coresOfCluster (k : Nat) : List Nat := (List.range 8).map fun i => 8 * k + i

/-- A write to EPROFn: what has been credited up to this master cycle follows the old profile, and the new one acts from the next
(R351). -/
def eprofWrite (s : State) (d n : Nat) (v : Word) : State :=
  let s1 := settleAll s (coresOfDie d)
  let k := getDie s1 d
  setDie s1 d { k with eprof := k.eprof.set n v, eprofOld := if k.eprofAt = s.now then k.eprofOld else k.eprof, eprofAt := s.now }

/-- A write to CLGRANT (R351). -/
def clgrantWrite (s : State) (k : Nat) (v : Word) : State :=
  let s1 := settleAll s (coresOfCluster k)
  let q := getCluster s1 k
  setCluster s1 k { q with grant := v.setWidth 16, grantOld := if q.grantAt = s.now then q.grantOld else q.grant, grantAt := s.now }

/-! ### Clock patterns (R352, R357) -/

/-- Does a core have a core cycle to settle: a context that is not free, an engine that runs, or a bank that wakes? -/
def coreActive (k : Core) : Bool :=
  (k.ctxs.cells.any fun x => x.2.status != .free) || k.mma.isSome || k.drain.isSome || !k.sqa.pend.isEmpty || !k.sqb.pend.isEmpty
  || !k.rbwake.cells.isEmpty

/-- The highest level among the sensors that cover a cluster. -/
def coverLevel (s : State) (k : Nat) : Nat :=
  ((k :: (List.range 8).map fun r => 256 + 8 * (k / 32) + r).map fun n => (s.sensors.get Sensor.reset n).level).foldl Nat.max 0

/-- The pattern that a cluster has in force: PAT, reduced by its level, 0 from STATE 3 on. -/
def patternOf (s : State) (k : Nat) : BitVec 16 :=
  let q := getCluster s k
  if 3 ≤ q.st then 0
  else if coverLevel s k = 3 then 1
  else if coverLevel s k = 2 then (if q.pat &&& 0x5555 = 0 then 1 else q.pat &&& 0x5555)
  else q.pat

/-- Has a core of the cluster begun its core cycle of this master cycle? -/
def cycleBegun (s : State) (k : Nat) : Bool :=
  s.cores.cells.any fun c => !isMgmt c.1 && clusterOf c.1 == k && c.2.cycledAt == s.now && decide (0 < s.now)

/-- A new EPAT: the core cycles before it are counted under the old one (CYCLES). Cores that have not begun this master cycle begin it
as the new pattern says; a core cycle that has begun stays (R352). -/
def setEpat (s : State) (k : Nat) (p : BitVec 16) : State :=
  let q := getCluster s k
  let t := if cycleBegun s k then s.now + 1 else s.now
  let s1 := setCluster s k { q with
    cyc := q.cyc + (pulsesBefore q.epat.toNat t - pulsesBefore q.epat.toNat q.cycAt), cycAt := t, epat := p }
  let mine := (s1.cores.cells.filter fun c => !isMgmt c.1 && clusterOf c.1 == k && c.2.cycledAt != s.now && p.getLsbD (s.now % 16)
    && coreActive c.2).map (·.1)
  if cycleBegun s k ∨ (s.turns.isEmpty ∧ s.latch.words.isEmpty = false) then s1
  else { s1 with turns := (s1.turns.filter fun c => decide (c < 8 * k)) ++ mine ++ s1.turns.filter fun c => decide (8 * k + 8 ≤ c) }

/-- Clusters whose pattern may change: those written, and those under a sensor that is HOT or at TRIP. -/
def patClusters (s : State) : List Nat :=
  (s.clusters.cells.map (·.1)) ++
  (s.sensors.cells.filter fun e => decide (2 ≤ e.2.level)).flatMap fun e =>
    if e.1 < 256 then [e.1] else (List.range 32).map fun i => 32 * ((e.1 - 256) / 8) + i

def refreshPats (s : State) : List Nat → State
  | [] => s
  | k :: r => refreshPats (if patternOf s k = (getCluster s k).epat then s else setEpat s k (patternOf s k)) r

/-- Patterns take effect at a master cycle with m mod 16 = 0. -/
def patternTick (s : State) : State := if s.now % 16 = 0 then refreshPats s (patClusters s) else s

/-- A write to CLKPAT. -/
def clkpatWrite (s : State) (k : Nat) (v : Word) : State :=
  patternTick (setCluster s k { getCluster s k with pat := v.setWidth 16 })

/-- The next master cycle with m mod 16 = 0. -/
def nextBoundary (s : State) : Nat := (s.now / 16 + 1) * 16

/-! ### The master clock (R353) -/

def grantedOf (s : State) (st : Nat) : Nat :=
  Nat.min (getStack s st).target (Nat.min (boostcap s (2 * st)) (boostcap s (2 * st + 1)))

/-- A change of GRANTED falls due at the next boundary of sixteen cycles (R353 bounds it by 20 µs). -/
def askClock (s : State) (st : Nat) : State :=
  if grantedOf s st = (getStack s st).granted then s else after s (nextBoundary s - s.now) (.clockChange st)

/-- A write to MCLKF. -/
def mclkfWrite (s : State) (st : Nat) (v : Word) : State :=
  askClock (setStack s st { getStack s st with target := wf v 10 0 }) st

/-- CLOCK_CHANGE (R353). -/
def clockChange (s : State) (st : Nat) : State := setStack s st { getStack s st with granted := grantedOf s st }

/-! ### Gating a cluster (R360, R361) -/

/-- A parked state leaves a parking SRAM for its owner's image; a licence PARKED for the owner goes on as on a release (R278). -/
def evictPark (s : State) (c : Nat) : State :=
  match (getCore s c).park with
  | none => s
  | some p =>
    let s1 := setCore s c { getCore s c with park := none }
    let s2 := setAny s1 p.core p.x { getAny s1 p.core p.x with mstate := some p }
    let s3 := match s2.serai.images.find (p.x - 4) with
      | some i => if 4 ≤ p.x then writeImage (putImage s2 (p.x - 4) { i with mloc := 2 }) (p.x - 4) else s2
      | none => s2
    freeParkedLicence s3 p.core p.x

def evictParks (s : State) : List Nat → State
  | [] => s
  | c :: r => evictParks (evictPark s c) r

def preemptCore (s : State) (c : Nat) : State := askPreempt (askPreempt (askPreempt (askPreempt s c 0) c 1) c 2) c 3

def preemptCores (s : State) : List Nat → State
  | [] => s
  | c :: r => preemptCores (preemptCore s c) r

/-- A context that still has to leave a cluster. -/
def busyCtx (k : Ctx) : Bool := k.status != .free

/-- Is a QUIESCE step over: every context saved, every parking SRAM empty, every copy complete, every committed store performed? -/
def quiet (s : State) (k : Nat) : Bool :=
  ((coresOfCluster k).all fun c =>
    ([0, 1, 2, 3].all fun x => !busyCtx (getCtx s c x)) && (getCore s c).park.isNone)
  && s.serai.images.cells.all fun e => clusterOf e.2.core != k || isMgmt e.2.core ||
      (!e.2.saving && e.2.ctx.copyq.isEmpty && (committedEntries e.2.ctx).isEmpty)

/-- A cluster in its QUIESCE step. -/
def quiescing (q : Cluster) : Bool := q.busy && q.st == 0 && q.req == 1

/-- Work a QUIESCE step still has to start: contexts to pre-empt, parked states to move. -/
def quiesceWork (s : State) (k : Nat) : State := evictParks (preemptCores s (coresOfCluster k)) (coresOfCluster k)
def quiesceHas (s : State) (k : Nat) : Bool :=
  quiescing (getCluster s k) && (coresOfCluster k).any fun c =>
    (getCore s c).park.isSome || [0, 1, 2, 3].any fun x => preemptable s c x && (getCtx s c x).preempting.isNone

/-- L1s of a cluster's cores invalidated. -/
def dropL1s (s : State) : List Nat → State
  | [] => s
  | c :: r => dropL1s (setCore s c { getCore s c with l1 := .empty }) r

/-- One step of a cluster begins: BUSY is set and REQ is written (Table 20.9). -/
def beginStep (s : State) (k req : Nat) : State :=
  let q := getCluster s k
  let b := fun (e : Nat) (n : Nat) => { q with busy := true, req := req, stepEnd := e, saved := n }
  let timed := fun (n : Nat) => after (setCluster s k (b (s.now + n) q.saved)) n (.clusterStepDone k)
  if q.st = 0 then quiesceWork (setCluster s k (b s.now 0)) k
  else if q.st = 1 ∧ req = 2 then dropL1s (timed 64) (coresOfCluster k)
  else if q.st = 2 ∧ req = 3 then timed (nextBoundary s - s.now)
  else if q.st = 3 ∧ req = 4 then timed 500
  else if q.st = 4 then timed 2000
  else if q.st = 3 then timed (nextBoundary s - s.now)
  else if q.st = 2 then timed 64
  else timed 1

/-- A write to CLPCTL (R360). -/
def clpctlWrite (s : State) (k req : Nat) : State :=
  let q := getCluster s k
  if q.busy then setCluster s k { q with err := true }
  else if req = q.st then s
  else if req = q.st + 1 ∨ req + 1 = q.st then beginStep s k req
  else setCluster s k { q with err := true }

/-- The step from one state to the next is begun by the row that bears its name; from any other state, or while a step runs, the row
is the refused write of that REQ (R360; log entry 149). -/
def stepRow (s : State) (k src dst : Nat) : State :=
  let q := getCluster s k
  if !q.busy && q.st == src then beginStep s k dst
  else if q.st = dst ∧ !q.busy then s
  else setCluster s k { q with err := true }

/-- Is the step of a cluster complete? -/
def stepOver (s : State) (k : Nat) : Bool :=
  let q := getCluster s k
  q.busy && (if q.st = 0 then quiet s k else decide (q.stepEnd ≤ s.now))

/-- Does a task set the WAKEREQ bit of the cluster it is queued on as its STATE leaves 0: a ready task whose level-0 instance is the
cluster or lies in it, or a saved task that waits only for the cluster, since before the QUIESCE step began at `start` (R361, log
entry 105)? An image that awaits the driver waits for more than its cluster. -/
def wantsCluster (s : State) (k start : Nat) (t : Task) : Bool :=
  t.cluster == k && match t.st with
    | .ready => (match manifestOf s t.seq with
        | some m => (levelCluster m).isSome
        | none => false)
    | .saved => decide (t.since < start) && (match s.serai.images.find t.slot with | some i => restorable i | none => false)
    | _ => false

/-- A licence PARKED for a context of a cluster that leaves STATE 0 goes to a request of the twin core that waited for it: grants on the
twin ignore the gated core (R361). -/
def unparkGated (s : State) : List Nat → State
  | [] => s
  | c :: r => unparkGated (match (getPair s (pairOf c)).parkedFor with
      | some h => if h.1 = c ∧ (getPair s (pairOf c)).st = .parked then licUnpark s (pairOf c) else s
      | none => s) r

/-- CLUSTER_STEP_DONE (R360): STATE takes the new value and BUSY clears; EPAT follows the state. As a cluster leaves STATE 0, tasks held
for want of a candidate are queued again, licences parked for its contexts go to the twins, and its WAKEREQ bit is set if a task
waits for it (R361). -/
def stepDone (s : State) (k : Nat) : State :=
  if stepOver s k then
    let q := getCluster s k
    let s1 := setCluster s k { q with st := q.req, busy := false }
    let s2 := if patternOf s1 k = (getCluster s1 k).epat then s1 else
      (if (q.st = 2 ∧ q.req = 3) ∨ (q.st = 3 ∧ q.req = 2) then setEpat s1 k (patternOf s1 k) else s1)
    if q.req = 0 then requeueHeld s2
    else if q.st = 0 then
      let s3 := unparkGated (requeueHeld s2) (coresOfCluster k)
      if s3.serai.tasks.cells.any (fun e => wantsCluster s3 k q.stepEnd e.2) then setWake s3 k else s3
    else s2
  else s

/-! ### Waking (R361, R362) -/

/-- A write of ones to WAKEREQ clears bits, but for those set in this master cycle. -/
def wakereqClear (s : State) (d : Nat) (v : Word) : State :=
  let k := getDie s d
  setDie s d { k with wakereq := k.wakereq &&& ~~~ (v.setWidth 16 &&& ~~~ (if k.wakeSetAt = s.now then k.wakeSet else 0)) }
def wakesetWrite (s : State) (d : Nat) (v : Word) : State := setWakeBits s d (v.setWidth 16)

/-- The mailbox entry that firmware looks at, and the MSEQ in it (R321). -/
def mailEntry (s : State) : Nat := ((s.host.mseq + 1).toNat % 256) * 64
def mailSeq (s : State) : BitVec 32 := BitVec.ofNat 32 (s.mem.readN (mailEntry s) 8 / 2 ^ 32)
/-- Is a mailbox entry not yet taken? -/
def mailWaiting (s : State) : Bool := mailSeq s == s.host.mseq + 1

/-- Does a wake source that MGWAKE enables hold? -/
def wakeHolds (s : State) (c x : Nat) : Bool :=
  let k := getCtx s c x
  (k.live.mgwake.getLsbD 0 && mailWaiting s)
  || (k.live.mgwake.getLsbD 1 && (List.range 16).any fun d => (getDie s d).wakereq != 0)
  || (k.live.mgwake.getLsbD 2 && k.therm)

/-- MANAGEMENT_WAKE (R362). -/
def managementWake (s : State) (c x : Nat) : State :=
  if (getCtx s c x).status = .asleep ∧ wakeHolds s c x then setCtx s c x { getCtx s c x with status := .running } else s

/-! ### Writes to registers outside the context (R41, R190, R349, R364) -/

/-- SUSPECT is cleared by a 1 (Table 20.5). -/
def thvalWrite (s : State) (n : Nat) (v : Word) : State :=
  let t := s.sensors.get Sensor.reset n
  { s with sensors := s.sensors.set n { t with suspect := t.suspect && !v.getLsbD 62 } }

/-- The write of a value to a register held outside the context, selected by PWRSEL and THSEL as they were at issue. -/
def writeReg (s : State) (ix : Nat) (v sel ths : Word) : State :=
  let k := selCluster sel
  let d := selDie sel
  if ix = 0x013 then modeWrite s (pairOf (selCore sel)) v
  else if ix = 0x110 then setPkg s fun p => { p with predrain := v }
  else if ix = 0x111 then setPkg s fun p => { p with prewait := v }
  else if ix = 0x140 then setPkg s fun p => { p with drvctl := v }
  else if ix = 0x141 then setPkg s fun p => { p with linkto := v }
  else if ix = 0x143 then setPkg s fun p => { p with repsel := v }
  else if ix = 0x181 then clkpatWrite s k v
  else if ix = 0x182 then clgrantWrite s k v
  else if 0x184 ≤ ix ∧ ix ≤ 0x187 then eprofWrite s d (ix - 0x184) v
  else if ix = 0x188 then rbctlWrite s (selCore sel) v
  else if ix = 0x189 then mclkfWrite s (d / 2) v
  else if ix = 0x18A then setDie s d { getDie s d with vdie := wf v 10 0 }
  else if ix = 0x191 then thvalWrite s (wf ths 8 0) v
  else if ix = 0x192 then setPkg s fun p => { p with thd := v }
  else if ix = 0x193 then setPkg s fun p => { p with thm := v }
  else if ix = 0x194 then setPkg s fun p => { p with thpol := v }
  else if ix = 0x1A0 then clpctlWrite s k (wf v 2 0)
  else if ix = 0x1A1 then setCluster s k { getCluster s k with err := (getCluster s k).err && !v.getLsbD 62 }
  else if ix = 0x1A2 then wakereqClear s d v
  else if ix = 0x1A3 then wakesetWrite s d v
  else if ix = 0x1C0 then fabctlWrite s v
  else if ix = 0x1C1 then setPkg s fun p => { p with podpos := v }
  else if ix = 0x1C2 then setPkg s fun p => { p with outpl := v }
  else if ix = 0x1C4 then healthWrite s v
  else if ix = 0x1C5 then setPkg s fun p => { p with lflim := v }
  else s

/-- REGISTER_WRITE (R41): context `x` of core `c` writes register `ix`, under the access and value rules. -/
def registerWrite (s : State) (c x ix : Nat) (v : Word) : State :=
  let r := (getCtx s c x).live
  if !regKnown ix || regRO (isMgmt c) ix || !valueOk ix v || (decide (0x100 ≤ ix) && !isMgmt c) then s
  else if ctxHeld ix then setCtx s c x (writeCtxReg (getCtx s c x) ix v)
  else writeReg s ix v r.pwrsel r.thsel

/-! ### Meanings (a value that the field map reserves is never written, R41) -/

/-- REGISTER_WRITE (R41) -/
def execRegisterWrite (c x : Nat) (ix : BitVec 10) (v : Word) (s : State) : Host.Outcome State Fault Refusal :=
  .next (registerWrite s c x ix.toNat v)

/-- CLKPAT_WRITE (R352) -/
def execClkpatWrite (cl : Nat) (v : Word) (s : State) : Host.Outcome State Fault Refusal :=
  .next (if valueOk 0x181 v then clkpatWrite s cl v else s)

/-- CLGRANT_WRITE (R351) -/
def execClgrantWrite (cl : Nat) (v : Word) (s : State) : Host.Outcome State Fault Refusal :=
  .next (if valueOk 0x182 v then clgrantWrite s cl v else s)

/-- EPROF_WRITE (R351) -/
def execEprofWrite (d n : Nat) (v : Word) (s : State) : Host.Outcome State Fault Refusal :=
  .next (if valueOk 0x184 v && decide (n < 4) then eprofWrite s d n v else s)

/-- MCLKF_WRITE (R353) -/
def execMclkfWrite (st : Nat) (v : Word) (s : State) : Host.Outcome State Fault Refusal :=
  .next (if valueOk 0x189 v then mclkfWrite s st v else s)

/-- CLOCK_CHANGE (R353) -/
def execClockChange (st : Nat) (s : State) : Host.Outcome State Fault Refusal := .next (clockChange s st)

/-- QUIESCE (R360) -/
def execQuiesce (cl : Nat) (s : State) : Host.Outcome State Fault Refusal := .next (stepRow s cl 0 1)

/-- RETAIN (R360) -/
def execRetain (cl : Nat) (s : State) : Host.Outcome State Fault Refusal := .next (stepRow s cl 1 2)

/-- CLKOFF (R360) -/
def execClkoff (cl : Nat) (s : State) : Host.Outcome State Fault Refusal := .next (stepRow s cl 2 3)

/-- RAILOFF (R360) -/
def execRailoff (cl : Nat) (s : State) : Host.Outcome State Fault Refusal := .next (stepRow s cl 3 4)

/-- CLUSTER_RAIL_ON (R360) -/
def execClusterRailOn (cl : Nat) (s : State) : Host.Outcome State Fault Refusal := .next (stepRow s cl 4 3)

/-- CLUSTER_CLOCK_RESTART (R360) -/
def execClusterClockRestart (cl : Nat) (s : State) : Host.Outcome State Fault Refusal := .next (stepRow s cl 3 2)

/-- CLUSTER_RETENTION_EXIT (R360) -/
def execClusterRetentionExit (cl : Nat) (s : State) : Host.Outcome State Fault Refusal := .next (stepRow s cl 2 1)

/-- RUN (R360) -/
def execRun (cl : Nat) (s : State) : Host.Outcome State Fault Refusal := .next (stepRow s cl 1 0)

/-- CLUSTER_STEP_DONE (R360) -/
def execClusterStepDone (cl : Nat) (s : State) : Host.Outcome State Fault Refusal := .next (stepDone s cl)

/-- WAKESET_WRITE (R362) -/
def execWakesetWrite (d : Nat) (v : Word) (s : State) : Host.Outcome State Fault Refusal :=
  .next (if valueOk 0x1A3 v then wakesetWrite s d v else s)

/-- MANAGEMENT_WAKE (R362) -/
def execManagementWake (c x : Nat) (s : State) : Host.Outcome State Fault Refusal := .next (managementWake s c x)

end Sys2Proof.Machine
end

