-- ==== Sys2Proof/Machine/Commit.lean ====
section
/-! DEFINITION. The waypoint commit (R24), what lands and performs after issue (R14 to R17, R23, R28, R191 to R193), the norm watch
(R283 to R286), and the caches' own write-backs (R236). -/

namespace Sys2Proof.Machine

/-! ### The Drover's hold (R342) -/

/-- The 64 KiB frames of a die written since its last checkpoint. -/
def dirtyFrames (k : Die) : List Nat := (k.dirtyBlocks.map (· / 16)).eraseDups

/-- Has a checkpoint of die `d` fallen due (R345)? -/
def ckptDue (s : State) (d : Nat) : Bool :=
  let k := getDie s d
  let per := s.pkg.drvctl.toNat / 2 ^ 32
  let dirty := s.pkg.drvctl.toNat / 2 ^ 12 % 2 ^ 20
  s.pkg.drvctl.getLsbD 0 && k.dphase == 0 && k.rphase == 0 && decide (k.lastE < s.now) &&
    (decide (k.lastE + per * 2 ^ 20 ≤ s.now) || decide (dirty ≤ (dirtyFrames k).length) || decide (3 * 2 ^ 28 / 4 / 32 < k.log.length))

/-- The die whose capture is to start: dies are captured one at a time, the lowest that is due first. -/
def captureNext (s : State) : Option Nat :=
  if (List.range 16).any fun d => (getDie s d).dphase != 0 then none else (List.range 16).find? (ckptDue s)

/-- Does a capture that is to start hold back new copy commands of a core? -/
def copyHeld (s : State) (c : Nat) : Bool := !isMgmt c && captureNext s == some (dieOf c)

/-! ### The norm watch (R284 to R286) -/

/-- An exact product of two finite numbers. -/
def FV.times : FV → FV → FV
  | .num a m e, .num b n f => .num (a != b) (m * n) (e + f)
  | x, _ => x

def finiteNum (x : FV) : Bool := match x with | .num _ _ _ => true | _ => false

/-- Does a sample jump, and what is NPREV after it? -/
def sampleJump (jump : BitVec 32) (prev : Option (BitVec 32)) (r : BitVec 32) : Bool × Option (BitVec 32) :=
  let x := f32.read true r.toNat
  if !finiteNum x then (true, prev)
  else match prev with
    | none => (false, some r)
    | some p =>
      let q := f32.read true p.toNat
      let j := f32.read true jump.toNat
      ((FV.times j q).lt x || (FV.times j x).lt q, some r)

/-- The record's payload words (Table 13.1). -/
def watchWords (w : WatchRec) : List Word :=
  [w.fseq ++ w.findex, w.fr ++ w.fprev, w.lseq ++ w.jcount, 0]

/-- A report of context `x` of core `c` is on its way to the package's record: those of one master cycle reach it in ascending core number
(R285, R38). It takes a place in the program order of the context's accesses, and is not sent twice (R348). -/
def sendReport (s : State) (c x : Nat) (r prev : BitVec 32) : State :=
  let k := getCtx s c x
  sendOnce (setCtx s c x { k with nload := k.nload + 1 }) c x k.nload SendKind.norm.code 16 .plain fun t =>
    setSerai t fun q => { q with normq := q.normq ++ [(c, k.taskid, r, prev)] }

/-- A report reaches the package's record (R286): the first opens it and raises the event; the others change LSEQ and JCOUNT. -/
def watchReport (s : State) (taskid : Word) (r prev : BitVec 32) : State :=
  let w := s.serai.watch
  let q := taskid.extractLsb' 32 32
  if w.opened then
    setSerai s fun t => { t with watch := { w with lseq := q, jcount := if w.jcount = BitVec.allOnes 32 then w.jcount else w.jcount + 1 } }
  else
    let n : WatchRec := ⟨true, q, taskid.setWidth 32, r, prev, q, 1⟩
    eventOpen (setSerai s fun t => { t with watch := n }) 0x0C (watchWords n)

/-- Of the waiting reports, the first of the lowest core, and the others. -/
def lowestReport : List (Nat × Word × BitVec 32 × BitVec 32) → Option ((Nat × Word × BitVec 32 × BitVec 32) × List (Nat × Word × BitVec 32 × BitVec 32))
  | [] => none
  | e :: r => match lowestReport r with
    | some q => if q.1.1 < e.1 then some (q.1, e :: q.2) else some (e, r)
    | none => some (e, r)

/-- One waiting report reaches the record. -/
def takeReport (s : State) : State :=
  match lowestReport s.serai.normq with
  | some (e, r) => watchReport (setSerai s fun t => { t with normq := r }) e.2.1 e.2.2.1 e.2.2.2
  | none => s

/-- Samples left after the last write to NWATCH of the interval. -/
def lastSamples : List WatchItem → List (BitVec 32) × Bool
  | [] => ([], false)
  | .write _ :: r => let t := lastSamples r; (t.1, true)
  | .sample v :: r => let t := lastSamples r; (if t.2 then t.1 else v :: t.1, t.2)

/-- The samples of an interval act in program order. -/
def actSamples (s : State) (c x : Nat) : List (BitVec 32) → State
  | [] => s
  | r :: t =>
    let k := getCtx s c x
    let j := sampleJump (k.live.nwatch.extractLsb' 32 32) k.nprev r
    let s1 := setCtx s c x { k with nprev := j.2 }
    actSamples (if j.1 then sendReport s1 c x (if (f32.read true r.toNat).isNan then 0x7FC00000 else r) (k.nprev.getD 0) else s1) c x t

def actWatch (s : State) (c x : Nat) : State :=
  let k := getCtx s c x
  let w := lastSamples k.watch
  let wrote := k.watch.any fun i => match i with | .write _ => true | .sample _ => false
  actSamples (setCtx s c x { k with watch := [], nprev := if wrote then none else k.nprev }) c x w.1

/-! ### Step 4: the non-undoable slots (R24) -/

/-- A store entry stands in its place in program order, an STL of step 4 before a VST of its own bundle that follows it (log entry
139). -/
def insertEntry (e : StoreEntry) : List StoreEntry → List StoreEntry
  | [] => [e]
  | q :: r => if e.seq < q.seq then e :: q :: r else q :: insertEntry e r

/-- Does an act wait at step 4: a full copy queue, launch queue, event queue or seal table, or a capture that is to start? -/
def actWaits (s : State) (c x : Nat) : Act → Bool
  | .copy _ => decide (Config.copyEntries ≤ (getCtx s c x).copyq.length) || copyHeld s c
  | .taskl _ _ => decide (Config.launchQueue ≤ (s.serai.launches.filter fun l => l.byTask).length)
  | .evsig _ => decide (Config.eventQueue ≤ (getDie s (dieOf c)).evq.length)
  | .seal _ _ => decide (Config.sealTable ≤ s.serai.seals.length)
  | _ => false

/-- A sleeping or refused MNAP answers its code and disarms the monitor (Table 8.2). -/
def napWake (s : State) (c x d code : Nat) : State :=
  let k := getCtx s c x
  let put := fun (r : Regs) => if d = 0 then r else { r with g := r.g.set d (BitVec.ofNat 64 code) }
  setCtx s c x { k with live := put k.live, wp := put k.wp, nap := none, block := .no, mon := ⟨[], .disarmed, false⟩ }

/-- The die's log keeps the code, so that a replayed MNAP answers the same (R348); its MNAP was the last act of the context. -/
def napEnds (s : State) (c x d code : Nat) : State :=
  let k := getCtx s c x
  let e := coreEnd c
  let s1 := if keepsLog s e then setDie s e { getDie s e with
      log := (getDie s e).log ++ [⟨e, 0, .answer k.run (k.nload - 1) (BitVec.ofNat 64 code)⟩] } else s
  napWake s1 c x d code

/-- MNAP at step 4 (R193). -/
def napAct (s : State) (c x d limit : Nat) : State :=
  let k := getCtx s c x
  match takeReplay s c (isAnswer k.run (k.nload - 1)) with
  | some q => napWake q.2 c x d q.1.toNat
  | none => match k.mon.st with
    | .fired => napEnds s c x d 0
    | .disarmed => napEnds s c x d 2
    | .armed => if limit = 0 then napEnds s c x d 1 else setCtx s c x { k with nap := some d, napEnd := s.now + limit }

/-- A register that awaits a TASKL's answer receives it, and its waypoint image (R196). -/
def putAnswer (k : Ctx) (d : Nat) (v : Word) : Ctx :=
  let put := fun (r : Regs) => if d = 0 then r else { r with g := r.g.set d v }
  { k with live := put k.live, wp := put k.wp }

/-- A replayed TASKL whose answer the log holds writes its register (R348). -/
def answerAgain (s : State) (c x d place : Nat) : State :=
  match takeReplay s c (isAnswer (getCtx s c x).run place) with
  | some q => setCtx q.2 c x (putAnswer (getCtx q.2 c x) d q.1)
  | none => s

/-- The seal table entry that operands name (R203): none where the element has no tile. -/
def sealOf (s : State) (k : Ctx) (a b : Word) : Option Seal :=
  match locate s k a with
  | some (tile, _) => some ⟨refTid a, tile, b.toNat % 2 ^ 17, k.pid⟩
  | none => none

/-- One act is performed; it takes a place of its own in the program order of its context's accesses. -/
def performAct (s0 : State) (c x : Nat) (a : Act) : State :=
  let n := (getCtx s0 c x).nload
  let s := setCtx s0 c x { getCtx s0 c x with nload := n + 1 }
  let k := getCtx s c x
  match a with
  | .atomic id =>
    later (setCtx s c x { k with loads := k.loads.map fun l => if l.id = id then { l with handed := true } else l })
      (.longLoadReturn c x id)
  | .stl e => later (setCtx s c x { k with wbuf := insertEntry { e with committed := true } k.wbuf }) (.storePerformed c x)
  | .copy q => performCopy s c x q
  | .zxt => if licHolds s c x then startZxt s c x false else s
  | .trap code slot => setCtx s c x { k with post := k.post ++ [.trap code slot], pc := k.bnext, jumped := false }
  | .halt => setCtx s c x { k with post := k.post ++ [.halt], pc := k.bnext, jumped := false }
  | .resume t => setCtx s c x (handlerReturn k t)
  | .mnap d limit => napAct s c x d limit
  | .taskl d addr =>
    answerAgain (actOnce s c x n .taskl fun t => later (setSerai t fun r => { r with launches := r.launches ++
      [⟨k.pid, addr, k.prio.toNat, c, x, k.task, n, d, true, none, false⟩] }) .manifestEntry) c x d n
  | .taskr => match k.task with | some e => abortAndSplit s e | none => s
  | .dsig v slot => actOnce s c x n .dsig fun t =>
    later (setSerai t fun r => { r with dsigs := r.dsigs ++ [⟨c, x, k.task, n, v, k.bpc, slot⟩] }) .dsigApply
  | .evsig v => actOnce s c x n .evsig fun t =>
    setDie t (dieOf c) { getDie t (dieOf c) with
      evq := (getDie t (dieOf c)).evq ++ [⟨c, x, k.task, n, [v, k.taskid, ctxid c x]⟩] }
  | .seal a b => (match sealOf s k a b with
    | some e => sendOnce s c x n SendKind.seal.code 16 .plain fun t => setSerai t fun r => { r with seals := r.seals ++ [e] }
    | none => s)
  | .unseal a b => (match sealOf s k a b with
    | some e => sendOnce s c x n SendKind.seal.code 16 .plain fun t => setSerai t fun r => { r with seals := r.seals.filter fun o => o != e }
    | none => s)
  | .dcinvLine p => dropL1 s c p
  | .dcinvL2 d => setDie s d { getDie s d with l2 := .empty }
  | .cwr ix v sel ths => writeReg s ix.toNat v sel ths

/-- The acts of a bundle in slot order, up to one that waits; TASKR of a divisible task ends them. -/
def performActs (s : State) (c x : Nat) : List Act → State
  | [] => setCtx s c x { getCtx s c x with acts := [] }
  | a :: r =>
    if actWaits s c x a then setCtx s c x { getCtx s c x with acts := a :: r }
    else
      let s1 := performAct s c x a
      if a = .taskr ∧ (getCtx s1 c x).committing = false then s1 else performActs s1 c x r

/-! ### Step 5: recorded releases (R23, R167, R170, R172, R179, R180) -/

/-- Outstanding commands on a handle keep the bytes of their region (R167). -/
def cutLoose (k : Ctx) (t : TReg) : List (Nat × Nat × Nat) :=
  (k.copyq.filter fun q => (q.kind == .cpin || q.kind == .cpenc || q.kind == .cpout) && q.t == t
    && !k.reserved.any fun r => r.2.2 == q.id).map fun q => (q.base, q.bytes, q.id)

def clearQ (q : ScaleQ) : ScaleQ := { q with rd := q.wr, cnt := 0, drawn := 0, pushed := 0, pend := [] }

/-- Bank `z` has changed since the last waypoint: step 6 takes its image again (R27, R172). -/
def addDirty (z : TReg) (l : List Nat) : List Nat := if l.contains z.toNat then l else l ++ [z.toNat]

/-- A release of an interval whose commit has parked the matrix state acts on the parked state. -/
def releaseParked (p : Parked) (gone : List Nat) : Release → Parked
  | .tfree t => { p with tiles := p.tiles.erase t.toNat, cmds := p.cmds.filter fun q => !gone.contains q }
  | .trel t =>
    let l := p.tiles.get Tile.off t.toNat
    if l.st = .ready then { p with tiles := p.tiles.set t.toNat (emptyTile l) } else p
  | .zfree z => { p with
      banks := p.banks.set z.toNat { p.banks.get Bank.reset z.toNat with live := false } }
  | .sqclr q => if q then { p with sqb := clearQ p.sqb } else { p with sqa := clearQ p.sqa }
  | _ => p

def performParked (s : State) (c x : Nat) (r : Release) : State :=
  let k := getCtx s c x
  let loose := match r with | .tfree t => cutLoose k t | _ => []
  match parkedOf s c x with
  | some p => layParked (setCtx s c x { k with
      reserved := k.reserved ++ loose, zdirty := match r with | .zfree z => addDirty z k.zdirty | _ => k.zdirty }) c x (releaseParked p (loose.map fun q => q.2.2) r)
  | none => s

/-- Is the matrix state of the context on its way to its twin's parking SRAM? -/
def isMoving (s : State) (c x : Nat) : Bool := licHolds s c x && (getPair s (pairOf c)).moving.contains c

def matrixRelease : Release → Bool
  | .tfree _ | .trel _ | .zfree _ | .sqclr _ => true
  | _ => false

def performRelease (s : State) (c x : Nat) (r : Release) : State :=
  let k := getCtx s c x
  if isMoving s c x && matrixRelease r then performParked s c x r
  else match r with
  | .tfree t =>
    if (k.live.tiles.get Tile.off t.toNat).v then
      setCtx s c x { k with reserved := k.reserved ++ cutLoose k t, live := { k.live with tiles := k.live.tiles.erase t.toNat } }
    else s
  | .trel t =>
    let l := k.live.tiles.get Tile.off t.toNat
    if l.st = .ready then setCtx s c x { k with live := { k.live with tiles := k.live.tiles.set t.toNat (emptyTile l) } } else s
  | .zfree z =>
    if licHolds s c x then
      let q := getCore s c
      setCore s c { q with
        z := q.z.set z.toNat { q.z.get Bank.reset z.toNat with live := false }, zdirty := addDirty z q.zdirty }
    else s
  | .sqclr q =>
    if licHolds s c x then
      setCore s c (if q then { getCore s c with sqb := clearQ (getCore s c).sqb } else { getCore s c with sqa := clearQ (getCore s c).sqa })
    else s
  | .licr => if (getPair s (pairOf c)).moving.contains c then s else licRelease s c x false
  | .licx => if (getPair s (pairOf c)).moving.contains c then s else licRelease s c x true
  | .publ tid seq _ => setCtx s c x { k with pubq := k.pubq ++ [⟨tid, seq⟩] }

def performReleases (s : State) (c x : Nat) : List Release → State
  | [] => s
  | r :: t => performReleases (performRelease s c x r) c x t

/-! ### Step 6: the waypoint images (R27) -/

/-- Drawn scale entries are freed (R170). -/
def freeDrawn (q : ScaleQ) : ScaleQ := { q with cnt := q.cnt - q.drawn, drawn := 0, pushed := 0 }

/-- Images of the banks written in the interval are refreshed. -/
def refreshBanks (z zwp : Tab Bank) : List Nat → Tab Bank
  | [] => zwp
  | b :: r => refreshBanks z (zwp.set b (z.get Bank.reset b)) r

def refreshCore (k : Core) : Core :=
  { k with zwp := refreshBanks k.z k.zwp k.zdirty, zdirty := [], sqa := freeDrawn k.sqa, sqb := freeDrawn k.sqb }
def refreshParked (p : Parked) : Parked := { p with sqa := freeDrawn p.sqa, sqb := freeDrawn p.sqb }
def refreshStore (k : Ctx) (p : Parked) : Ctx := { k with zwp := refreshBanks p.banks k.zwp k.zdirty, zdirty := [] }

/-- The matrix state at step 6: the holder's on its core, or where a ZXT of this commit parked it. -/
def refreshMatrix (s : State) (c x : Nat) : State :=
  if !licHolds s c x then s
  else if (getPair s (pairOf c)).moving.contains c then
    (match parkedOf s c x with
      | some p => layParked (setCtx s c x (refreshStore (getCtx s c x) p)) c x (refreshParked p)
      | none => s)
  else setCore s c (refreshCore (getCore s c))

/-- A fence is over once every access before it has performed. -/
def liveFence (k : Ctx) (f : BitVec 16 × Nat × Nat) : Bool :=
  (k.loads.any fun l => f.1.getLsbD l.cls.toNat && decide (l.id < f.2.2))
  || k.wbuf.any fun e => f.1.getLsbD e.cls.toNat && decide (e.seq < f.2.2)

/-- The images of R27 refreshed; the interval is closed. -/
def refreshCtx (k : Ctx) : Ctx :=
  { k with
    wp := k.live, wppc := k.pc, wpjumped := k.jumped, releases := [], acts := [], committing := false, handedOver := false
    loads := k.loads.map fun l => { l with committed := true }
    fences := k.fences.filter (liveFence k)
    wpseq := k.nload, closed := k.closed + 1, allowAdded := 0, grantInInterval := false, unpark := none, dropped := [], residueRetry := false, block := .no }

/-- HALT has committed (R201, R362). One that was told to stop goes on to its save (R31, R324), after which it stands so again. -/
def haltCtx (k : Ctx) (mgmt : Bool) : Ctx :=
  let run := k.status == .running
  if mgmt then { k with status := if run then .asleep else k.status, slept := k.slept || !run, therm := false }
  else { k with status := if run then .halted else k.status, ended := true }

/-- TRAP and HALT act after step 6 (R187, R201): a task stops issuing, a management context sleeps. -/
def performPost (s : State) (c x : Nat) : State :=
  let k := getCtx s c x
  let s0 := setCtx s c x { k with post := [] }
  match k.post with
  | .trap code slot :: _ => takeTrap s0 c x ⟨0x12, slot, false, code, k.bpc⟩
  | .halt :: _ => setCtx s0 c x (haltCtx (getCtx s0 c x) (isMgmt c))
  | _ => s0

/-- Steps 5 and 6, and what follows them; step 6 touches the banks of the context's registers (R208). -/
def closeInterval (s : State) (c x : Nat) : State :=
  let s1 := performReleases s c x (getCtx s c x).releases
  let s2 := refreshMatrix s1 c x
  let s3 := actWatch s2 c x
  performPost (touchRun (setCtx s3 c x (refreshCtx (getCtx s3 c x))) c x) c x

/-! ### The commit (R24) -/

/-- Step 2: every window of the interval has landed, every long load of it has returned, its engine beats are done (R161). -/
def commitReady (s : State) (c x : Nat) : Bool :=
  let k := getCtx s c x
  let q := getCore s c
  k.committing && k.pend.isNone
    && !(k.loads.any fun l => !l.committed && l.handed)
    && !inFlight s c x
    && !(licHolds s c x && (!q.sqa.pend.isEmpty || !q.sqb.pend.isEmpty))

/-- Can a commit go on: step 2 is met, or step 4 waited and its next act has room? -/
def commitMoves (s : State) (c x : Nat) : Bool :=
  let k := getCtx s c x
  if k.handedOver then k.committing && (match k.acts with | a :: _ => !actWaits s c x a | [] => true) else commitReady s c x

/-- Step 3: the withheld stores of the interval are handed to memory. -/
def handOver (s : State) (c x : Nat) : State :=
  let k := getCtx s c x
  let new := k.wbuf.filter fun e => !e.committed
  repostStores (setCtx s c x { k with wbuf := k.wbuf.map (fun e => { e with committed := true }), handedOver := true }) c x new

/-- WAYPOINT_COMMIT (R24). -/
def commit (s : State) (c x : Nat) : State :=
  if !commitMoves s c x then s
  else
    let s1 := if (getCtx s c x).handedOver then s else handOver s c x
    let s2 := performActs s1 c x (getCtx s1 c x).acts
    let k := getCtx s2 c x
    if k.committing ∧ k.acts.isEmpty then closeInterval s2 c x else s2

/-! ### After issue -/

/-- RESULT_LANDING (R14, R82): every due result lands; a failed residue check rolls back, and its result lands nowhere. -/
def resultLanding (s : State) (c x : Nat) : State :=
  let k := getAny s c x
  match k.flight.find? fun f => f.residueBad && f.left == 0 with
  | some f => residueTrap (setAny s c x { k with flight := k.flight.filter fun g => !g.residueBad }) c x f.slot f.pc
  | none =>
    let r := landDue k.live k.flight
    setAny s c x { k with live := r.1, flight := r.2 }

/-- STORE_PERFORMED (R23): the oldest committed store is performed; one that something holds back comes again: what must be performed
before it, its messages (R337), or a block that the Drover has still to copy (R343). -/
def storePerformed (s : State) (c x : Nat) : State :=
  match oldestEntry (getAny s c x) with
  | none => s
  | some e =>
    if storeReady (getAny s c x) e && storePasses s c (getAny s c x) e && !e.cells.any fun w => waitsCopy s w.1 then performOldest s c x
    else after s 1 (.storePerformed c x)

/-- MONITOR_ARM_ESTABLISHED (R191). -/
def armEstablished (s : State) (c x : Nat) : State :=
  let k := getAny s c x
  setAny s c x { k with mon := { k.mon with established := k.mon.st == .armed } }

/-- MNAP_WAKE (R193). -/
def mnapWake (s : State) (c x : Nat) : State :=
  let k := getCtx s c x
  match k.nap, k.mon.st with
  | some d, .fired => napEnds s c x d 0
  | some d, .disarmed => napEnds s c x d 2
  | _, _ => s

/-- MNAP_TIMEOUT (R193). -/
def mnapTimeout (s : State) (c x : Nat) : State :=
  let k := getCtx s c x
  match k.nap with
  | some d => if k.mon.st = .armed ∧ k.napEnd ≤ s.now then napEnds s c x d 1 else s
  | none => s

/-- L1_EVICTION (R236): a clean line leaves the L1. -/
def l1Evict (s : State) (c ln : Nat) : State := setCore s c { getCore s c with l1 := (getCore s c).l1.erase ln }

/-- SOFT_ERROR (R293): bits of a stored byte change unnoticed. -/
def softError (s : State) (a : Nat) (v : BitVec 8) : State := { s with mem := s.mem.write a (s.mem.read a ^^^ v) }

/-! ### Meanings -/

/-- WAYPOINT_COMMIT (R24) -/
def execWaypointCommit (c x : Nat) (s : State) : Host.Outcome State Fault Refusal := .next (commit s c x)

/-- RESULT_LANDING (R14) -/
def execResultLanding (c x : Nat) (s : State) : Host.Outcome State Fault Refusal := .next (resultLanding s c x)

/-- LONG_LOAD_RETURN (R17) -/
def execLongLoadReturn (c x n : Nat) (s : State) : Host.Outcome State Fault Refusal := .next (returnLoad s c x n)

/-- STORE_PERFORMED (R23) -/
def execStorePerformed (c x : Nat) (s : State) : Host.Outcome State Fault Refusal := .next (storePerformed s c x)

/-- MONITOR_ARM_ESTABLISHED (R191) -/
def execMonitorArmEstablished (c x : Nat) (s : State) : Host.Outcome State Fault Refusal := .next (armEstablished s c x)

/-- MNAP_WAKE (R193) -/
def execMnapWake (c x : Nat) (s : State) : Host.Outcome State Fault Refusal := .next (mnapWake s c x)

/-- MNAP_TIMEOUT (R193) -/
def execMnapTimeout (c x : Nat) (s : State) : Host.Outcome State Fault Refusal := .next (mnapTimeout s c x)

/-- L2_WRITEBACK (R236) -/
def execL2Writeback (d ln : Nat) (s : State) : Host.Outcome State Fault Refusal := .next (writeBackLine s d ln)

/-- L1_EVICTION (R236) -/
def execL1Eviction (c ln : Nat) (s : State) : Host.Outcome State Fault Refusal := .next (l1Evict s c ln)

/-- SOFT_ERROR (R293) -/
def execSoftError (ad : Nat) (xr : BitVec 8) (s : State) : Host.Outcome State Fault Refusal := .next (softError s ad xr)

end Sys2Proof.Machine
end

