-- ==== Sys2Proof/Machine/Tasks.lean ====
section
/-! DEFINITION. Tasks from manifest to retirement: entry, placement, signals, allowance, retirement, publication (R195, R196, R198,
R201, R210 to R225, R235, R289, R290, R323, R375). -/

namespace Sys2Proof.Machine

/-! ### What must be performed first (R196, R198, R202) -/

/-- Has every store that a context handed to memory before place `place` been performed? -/
def storesDone (s : State) (task : Option Nat) (c x place : Nat) : Bool :=
  match standsAt s task c x with
  | some (d, y) => !(getAny s d y).wbuf.any fun e => e.committed && decide (e.seq < place)
  | none => true

/-- Can the Serai answer a context now (R337, R346): its die is not held in reset, and the message can pass? -/
def answersPass (s : State) (task : Option Nat) (c x : Nat) : Bool :=
  match standsAt s task c x with
  | some (d, y) => !decide (y < 4) || isMgmt d || (decide ((getDie s (dieOf d)).rphase < 3 ∨ 4 < (getDie s (dieOf d)).rphase) && mayPass s 16 (dieOf d))
  | none => true

/-- Those stores stand at package scope (R117, R250): the dirty lines of the die are written back. -/
def toPackage (s : State) (c : Nat) : State := if isMgmt c then s else writeBackAll s (dieOf c)

/-! ### Placement (R225, R235) -/

/-- Grain cells of a task. -/
def grainCells (m : Manifest) (t : Task) : Nat :=
  ((List.range 4).map fun a => (axisExtent t a + axisGrain m a - 1) / axisGrain m a).foldl (· * ·) 1

/-- A claim of the header, in [63:32] PER and [31:0] BASE, for `u` cells. -/
def claimOf (w : Word) (u : Nat) : Nat := w.toNat % 2 ^ 32 + w.toNat / 2 ^ 32 * u

/-- The first free window of `n` slice words for a context (R234). -/
def sliceWindow (s : State) (c x n : Nat) : Option Nat := (List.range (Config.sliceWords + 1)).find? fun b => sliceFree s c x b n

/-- TASKID of a task (Table 2.4). -/
def taskidOf (t : Task) : Word := BitVec.ofNat 64 (t.seq.toNat * 2 ^ 32 + t.index % 2 ^ 24 * 2 ^ 8 + t.depth % 2 ^ 8)

/-- Registers from a list, from register `n` on. -/
def putRegs (g : Tab Word) (n : Nat) : List Nat → Tab Word
  | [] => g
  | v :: r => putRegs (g.set n (BitVec.ofNat 64 v)) (n + 1) r

/-- The registers at task start (Table 2.2). -/
def startRegs (m : Manifest) (t : Task) : Regs :=
  let g := putRegs .empty 4 ((m.args.map (·.toNat)) ++ t.lo ++ t.hi ++ [(taskidOf t).toNat, t.depth])
  { Regs.reset with
    g := g
    bankkey := (((m.levels.find? fun (l : Nat × BitVec 32) => l.1 == 1).map fun (l : Nat × BitVec 32) => l.2).getD 0).setWidth 64 }

/-- The completion area of an entry (R195): a reference in tensor 0, or 0 without a request pool. -/
def areaOf (s : State) (pid e : Nat) : Option Word := (getProc s pid).pool.map fun b => mkRef 0 (refIdx b + 4096 * e)

/-- The area is zeroed before the first bundle. -/
def zeroArea (s : State) (pid : Nat) : Option Word → State
  | none => s
  | some r => match tensorZero s pid (refIdx r) true with
    | (s1, some p) => writeDepots s1 (cellsOf p 0 4096)
    | (s1, none) => s1

/-- The context at task start (Table 2.2), which is its first waypoint (R39). -/
def startCtx (k : Ctx) (m : Manifest) (t : Task) (e base ts sl win cy : Nat) (cmpla : Word) : Ctx :=
  let r := { startRegs m t with claimb := ts, slice := sl }
  { twinCleared k with
    live := r, wp := r, pc := m.entry, wppc := m.entry, bpc := m.entry, jumped := true, wpjumped := true
    vregs := m.vregs, vbase := base, taskid := taskidOf t, prio := BitVec.ofNat 3 t.prio
    allow := Nat.min cy (2 ^ 32 - 1), slbase := win, status := .running, cmpla := cmpla, task := some e, pid := t.pid
    rqseq := 0, acnt := .empty, nprev := none }

/-- A task stands on a context: it enters its nodes (R231). -/
def reachContext (s : State) (e : Nat) (t : Task) (m : Manifest) (c x : Nat) : State :=
  let n := s.serai.order
  let s0 := setSerai s fun r => { r with order := n + 1 }
  let s1 := match getIndex s0 (taskKey t) with | some ix => putIndex s0 (taskKey t) { ix with placed := true } | none => s0
  nodesIn (putTask s1 e { t with st := .placed, core := c, x := x, since := s.now, order := n, inNode := true }) m c m.levels.length

/-- A task that finds too little free space returns to its cluster queue (R225). -/
def requeueTask (s : State) (e : Nat) (t : Task) (m : Manifest) (c : Nat) : State :=
  let n := s.serai.order
  let s1 := setSerai { s with delays := s.delays.drop 1 } fun r => { r with order := n + 1 }
  nodesOut (putTask s1 e { t with st := .ready, requeues := t.requeues + 1, order := n, since := s.now, inNode := false,
                                  notBefore := s.now + 1 + nextDelay s }) m c m.levels.length

/-- Saturated to `n` bits. -/
def satBits (n v : Nat) : Nat := Nat.min v (2 ^ n - 1)

/-- A task has reached a context; its claims are set up (R225). -/
def setUpClaims (s : State) (e : Nat) (t : Task) (m : Manifest) (c x base : Nat) : State :=
  let u := grainCells m t
  let ts := claimOf m.claimts u
  let sl := claimOf m.claimsl u
  let cy := claimOf m.claimcy u
  let area := areaOf s t.pid e
  let start := fun (st : State) (ts sl win : Nat) =>
    let s1 := zeroArea st t.pid area
    let k := { startCtx (getCtx s1 c x) m t e base ts sl win cy (area.getD 0) with run := st.fresh + 1 }
    carry (setCtx s1 c x k) 16 (coreEnd c) (if t.fixed then .place c x k [] else .plain)
  if Config.tileStoreBytes < ts ∨ Config.sliceWords < sl then
    if t.fixed then
      takeTrap (start s 0 0 0) c x ⟨0x0E, 0, false, BitVec.ofNat 64 (satBits 16 sl * 2 ^ 32 + satBits 32 ts), m.entry⟩
    else abortAndSplit s e
  else match (if freeTileStore s c x < ts then none else if sl = 0 then some 0 else sliceWindow s c x sl) with
    | some win => start s ts sl win
    | none =>
      if t.fixed ∨ t.requeues + 1 < 4 then requeueTask s e t m c
      else abortAndSplit (putTask s e { t with st := .placed, core := c, x := x, requeues := t.requeues + 1 }) e

/-- TASK_PLACEMENT: a ready task reaches a free context of its cluster (R224, R225). A die of another process is cleared first (R235),
and the register banks of its run are turned on (R208). -/
def placeTask (s : State) (e c x : Nat) : State :=
  match getTask s e with
  | none => s
  | some t => match manifestOf s t.seq with
    | none => s
    | some m =>
      if !placeable s t m c x || !firstInLine s t c x then s
      else
        let b := coreReady s c t.pid m.vregs
        if !b.2 then b.1
        else match findRegs b.1 c m.vregs with
          | none => b.1
          | some base =>
            let s1 := reachContext b.1 e t m c x
            match getTask s1 e with
            | some u => setUpClaims s1 e u m c x base
            | none => s1

/-- The on-chip bytes of a die. -/
def onDie (d a : Nat) : Bool := decide (2 ^ 44 ≤ a) && decide (a < 2 ^ 49) && dieOfAddr a == d

/-- The accumulator banks, their image store and the scale entries of a core are zero. -/
def clearMatrix (k : Core) : Core := { k with z := .empty, zwp := .empty, zdirty := [], sqa := .reset, sqb := .reset }

def clearCores (s : State) (d : Nat) : State :=
  { s with cores := s.cores.map fun c k => if dieOf c = d ∧ !isMgmt c then clearMatrix k else k }

/-- DIE_CLEAR_DONE (R235): the levels are zero and the tag is set. No checkpoint of the die gives back what it held before. -/
def dieCleared (s : State) (d : Nat) : State :=
  match (getDie s d).clearing with
  | none => s
  | some (pid, e) =>
    if s.now < e then s
    else
      let gone := ((s.mem.cells.filter fun w => onDie d w.1).map fun w => w.1 / 4096).eraseDups
      let k := freshCkpt s d (dropCapture (getDie s d))
      let s1 := setDie { s with mem := ⟨s.mem.cells.filter fun w => !onDie d w.1⟩ } d
        { k with tag := some pid, clearing := none, dirtyBlocks := k.dirtyBlocks ++ gone.filter fun f => !k.dirtyBlocks.contains f }
      clearCores s1 d

/-! ### Allowance, late faults, retirement (R198, R201, R225, R226, R290) -/

/-- Is a context at a bundle boundary: no bundle of it is being issued? -/
def atBoundary (s : State) (c x : Nat) : Bool := !(s.focus == c && curX s == x && s.latch.words != [] && !s.latch.hold)

/-- Has the allowance of a context run out, to be acted on now? -/
def allowOut (s : State) (c x : Nat) : Bool :=
  let k := getCtx s c x
  k.task.isSome && k.allow == 0 && k.status == .running && k.pend.isNone && !k.committing && atBoundary s c x

/-- ALLOW_EXPIRY (R218, R226): a divisible task is aborted and split, a fixed one takes the allowance fault. -/
def allowExpired (s : State) (c x : Nat) : State :=
  if !allowOut s c x then s
  else match ctxTask s (getCtx s c x) with
    | none => s
    | some t =>
      if t.fixed then takeTrap s c x ⟨0x0F, 0, false, Config.freeInfo s.fresh, (getCtx s c x).pc⟩
      else match (getCtx s c x).task with
        | some e => abortAndSplit s e
        | none => s

/-- Is a late fault of a context to be delivered: at a bundle boundary, or before its retirement (R24, R290)? -/
def lateDue (s : State) (c x : Nat) : Bool :=
  let k := getCtx s c x
  !k.late.isEmpty && (k.status == .running || k.status == .halted) && k.pend.isNone && !k.committing && atBoundary s c x

/-- An outer outrider that overran its span is lost to the home decoder. -/
def loseGroup (s : State) (m : Manifest) (p : Nat) : State :=
  let s1 := match getCaravan s m.seq outerNo with
    | some c => putCaravan s m.seq outerNo { c with lost := c.lost ++ [p] }
    | none => s
  spanEvent s1 m.seq 0 (p - outerK m + 1)

/-- An outrider that overran its span is lost (R178, R262): its task is aborted, and the caravan counts it as lost. -/
def loseOutrider (s : State) (e : Nat) : State :=
  match getTask s e with
  | none => s
  | some t => match t.car with
    | none =>
      if t.index < outerBase then abortTask s e
      else match manifestOf s t.seq with
        | some m => loseGroup (cancelMember s e) m t.member
        | none => abortTask s e
    | some v =>
      let s1 := cancelMember s e
      let s2 := match getCaravan s1 t.seq v with
        | some q => putCaravan s1 t.seq v { q with lost := q.lost ++ [t.member] }
        | none => s1
      (match manifestOf s2 t.seq with
        | some m => spanEvent s2 t.seq ((getCaravan s2 t.seq v).elim v (·.q)) (t.member - codeK m + 1)
        | none => s2)

/-- The first late fault of a context is delivered. -/
def deliverLate (s : State) (c x : Nat) : State :=
  let k := getCtx s c x
  match k.late with
  | [] => s
  | t :: r =>
    let s1 := setCtx s c x { k with late := r }
    if t.cause = 0x15 then
      (match k.task with | some e => loseOutrider s1 e | none => s1)
    else takeTrap s1 c x t

/-- What a task has sent and the Serai has still to apply. -/
def hasDsig (s : State) (e : Nat) : Bool :=
  s.serai.dsigs.any fun d => d.task == some e

/-- Is a halted context's task complete (R201, R290)? -/
def retires (s : State) (c x : Nat) : Bool :=
  let k := getCtx s c x
  k.status == .halted && k.wbuf.isEmpty && k.copyq.isEmpty && k.loads.isEmpty && k.pubq.isEmpty && k.late.isEmpty
    && (match k.task with
      | some e => !hasDsig s e && !s.serai.launches.any fun l => l.byTask && l.task == some e && l.seq.isNone && l.dest != 0
      | none => true)

/-- What caches hold of a task's frames reaches the depots. -/
def flushFrames (s : State) : List (Nat × Nat) → State
  | [] => s
  | f :: r => flushFrames (dropCopies (flushRange s f.2 65536) f.2 65536) r

/-- A member's return goes to its caravan's decoder (R258). -/
def memberReturn (s : State) (e : Nat) (t : Task) (v c under sat : Nat) : State :=
  let s1 := putTask (flushFrames s t.shadows) e { t with st := .returned, shadows := [] }
  match getCaravan s1 t.seq v, manifestOf s1 t.seq with
  | some q, some m =>
    if q.lost.contains t.member then freeFrames s1 t.shadows
    else putReturn s1 m v q ⟨t.member, t.shadows, c, under, sat⟩
  | _, _ => freeFrames s1 t.shadows

/-- A replayed task that had retired before the reset leaves its context again; nothing else of it happens twice (R348). -/
def endGhost (s : State) (c x : Nat) : State :=
  vacate (freeFrames s ((getCtx s c x).outFrames.map fun f => (f.key, f.frame))) c x

/-- TASK_RETIREMENT (R201): the context is freed; a member's frames become its return, another task's are published in their order
(R222). -/
def retireTask (s : State) (c x : Nat) : State :=
  if !retires s c x then s
  else if (getCtx s c x).ghost then endGhost s c x
  else
    let k := getCtx s c x
    let s1 := vacate (publishFrames s c x k.outFrames) c x
    match k.task with
    | none => s1
    | some e =>
      let s2 := orphanRequests (dropSpares s1 e) e
      match getTask s2 e with
      | none => s2
      | some t =>
        match t.car with
        | some v => memberReturn s2 e t v c k.live.underzero k.live.satblk
        | none =>
          let u := { t with under := k.live.underzero, sat := k.live.satblk }
          if t.index < outerBase then putTask s2 e { u with st := .publishing }
          else match manifestOf s2 t.seq with
            | some m => offerGroup (putTask (flushFrames s2 t.shadows) e { u with st := .grouped }) m
            | none => s2

/-- Can a retired task publish a tile, or finish? -/
def pubMoves (s : State) (e : Nat) : Bool :=
  match getTask s e with
  | none => false
  | some t => t.st == .publishing &&
      match getIndex s (taskKey t) with
      | none => true
      | some ix => !ix.isLive || !(publishable s t).isEmpty || allOut s t ix.published

/-- TILE_PUBLICATION (R222). -/
def tilePublished (s : State) (e : Nat) : State := if pubMoves s e then publishTask s e else s

/-! ### Reading a manifest (R210 to R215) -/

/-- Bits [h:l] of a number. -/
def bitsOf (n h l : Nat) : Nat := n / 2 ^ l % 2 ^ (h + 1 - l)

/-- Width of a level's domain, the widest first; reserved codes have none (Table 9.5). -/
def levelRank (code : Nat) : Option Nat :=
  [some 7, some 5, some 4, some 3, some 2, some 1, some 0, some 6].getD code none

/-- Levels narrow strictly. -/
def narrows : List Nat → Bool
  | [] => true
  | [a] => (levelRank a).isSome
  | a :: b :: r =>
    (match levelRank a, levelRank b with | some p, some q => decide (p < q) | _, _ => false) && narrows (b :: r)

/-- The source of an image that a scheduler node has sent: the ring region of queue 63, by physical address (R313). -/
def fabricSource : Nat := 65536

/-- Bytes of a manifest image: of tensor 0 of a process, or of the ring region of queue 63. -/
def imageRead (s : State) (src a n : Nat) : Nat := if src < fabricSource then seraiRead s src a n else s.mem.readN a n

/-- Words of a manifest image. -/
def imageWord (s : State) (src a : Nat) : Nat := imageRead s src a 8

/-- A task record, with its reserved fields zero? -/
def readRec (s : State) (src a cap : Nat) : TaskRec × Bool :=
  let w0 := imageWord s src a
  let w1 := imageWord s src (a + 8)
  let half := fun o => imageRead s src (a + o) 4
  ({ prio := Nat.min (bitsOf w0 2 0) cap, expcnt := bitsOf w0 23 8, rdidx := bitsOf w0 47 32, nrd := bitsOf w0 55 48,
     wridx := bitsOf w1 15 0, nwr := bitsOf w1 23 16,
     origin := [half 0x10, half 0x14, half 0x18, half 0x1C], extent := [half 0x20, half 0x24, half 0x28, half 0x2C] },
   bitsOf w0 63 56 == 0 && bitsOf w0 31 24 == 0 && bitsOf w0 7 3 == 0 && bitsOf w1 63 24 == 0
     && imageWord s src (a + 0x30) == 0 && imageWord s src (a + 0x38) == 0)

/-- A tile-set record, with its reserved fields zero? -/
def readSet (s : State) (src a : Nat) : SetRec × Bool :=
  let w0 := imageWord s src a
  let w1 := imageWord s src (a + 8)
  ({ tid := bitsOf w0 63 48, first := bitsOf w0 47 0, step0 := bitsOf w1 63 48, step1 := bitsOf w1 47 32,
     ax0 := bitsOf w1 27 26, ax1 := bitsOf w1 25 24, count := bitsOf w1 15 0 },
   bitsOf w1 31 28 == 0 && bitsOf w1 23 16 == 0)

/-- Packages of the pod: the product of the ring sizes of PODPOS (Table 21.2). -/
def podSize (s : State) : Nat :=
  ((List.range 4).map fun a => s.pkg.podpos.toNat / 2 ^ (16 + 4 * a) % 16 + 1).foldl (· * ·) 1

/-- The header's fields in range (Tables 9.2 to 9.4, R271, R372)? `l0` is level 0's code. -/
def headerOk (s : State) (src a l0 : Nat) : Bool :=
  let w := fun o => imageWord s src (a + o)
  let h := w 0
  let nlev := bitsOf h 51 48
  let n := bitsOf (w 0x88) 23 0
  let code := w 0x78
  let k := bitsOf code 3 0
  let m := bitsOf code 7 4
  let ko := bitsOf code 51 48
  let mo := bitsOf code 55 52
  let coded := bitsOf h 44 44 == 1
  bitsOf h 63 56 == 1 && bitsOf h 55 52 == 0 && decide (1 ≤ nlev) && decide (nlev ≤ 8) && bitsOf h 43 42 != 3 && bitsOf h 41 8 == 0
  && bitsOf (w 8) 63 48 == 0
  && ((List.range 4).all fun g => imageRead s src (a + 0x50 + 4 * g) 4 != 0)
  && bitsOf (w 0x80) 63 48 == 0 && bitsOf (w 0x80) 4 0 == 0
  && decide (1 ≤ n) && decide (n ≤ 16128) && bitsOf (w 0x88) 63 24 == 0
  && ((List.range 14).all fun i => w (0x90 + 8 * i) == 0)
  && (if !coded then code == 0
      else
        bitsOf h 45 45 == 0 && bitsOf code 63 56 == 0 && bitsOf code 11 10 == 0 && bitsOf code 9 8 != 3
        && decide (bitsOf code 15 12 ≤ 8) && decide (2 ≤ k) && decide (1 ≤ m) && decide (m ≤ 4) && decide (k + m ≤ 8)
        && n % k == 0 && decide (n + m * n / k ≤ 16128) && (l0 == 5 || l0 == 6)
        && (if ko = 0 then mo == 0
            else decide (2 ≤ ko) && decide (1 ≤ mo) && decide (mo ≤ 4) && decide (ko + mo ≤ 8) && l0 == 6 && n % (k * ko) == 0
              && (let p := (List.range (ko + mo)).map fun e => s.pkg.outpl.toNat / 256 ^ e % 256
                  p.eraseDups.length == ko + mo && p.all fun q => decide (q < podSize s))))

/-- The level records in range (R213, R231)? -/
def levelsOk (s : State) (src a : Nat) : Bool :=
  let h := imageWord s src a
  let n := bitsOf h 51 48
  let codes := (List.range n).map fun l => bitsOf (imageWord s src (a + 0x100 + 16 * l)) 3 0
  narrows codes
  && ((List.range n).all fun l =>
      bitsOf (imageWord s src (a + 0x100 + 16 * l)) 63 4 == 0 && bitsOf (imageWord s src (a + 0x108 + 16 * l)) 63 32 == 0
        && !((codes.getD l 0 == 7 || codes.getD l 0 == 0) && bitsOf h l l == 1))

/-- A task record in range for a manifest of `nax` axes (R214)? -/
def recOk (nax : Nat) (r : TaskRec) : Bool :=
  (List.range 4).all fun i =>
    let o := r.origin.getD i 0
    let e := r.extent.getD i 0
    decide (1 ≤ e) && decide (o + e ≤ 2 ^ 32) && (decide (i < nax) || (o == 0 && e == 1))

/-- The last tile of a set for a record's full task, and whether the set is in range (R215, R217). -/
def setFits (s : State) (pid : Nat) (grains : List Nat) (r : TaskRec) (w : SetRec) : Bool :=
  let cells := fun (ax step : Nat) => if step = 0 then 0 else (r.extent.getD ax 1 - 1) / grains.getD ax 1 * step
  decide (w.tid < 0xFFF0) && w.count != 0 &&
    match (getProc s pid).tensors.find w.tid with
    | some l => decide (w.first + cells w.ax0 w.step0 + cells w.ax1 w.step1 + w.count ≤ l.ntile)
    | none => false

/-- The manifest at byte `a` of a process's tensor 0, and whether the Serai accepts it (R217). -/
def readManifest (s : State) (src pid a cap : Nat) (q : BitVec 32) : Manifest × Bool :=
  let w := fun o => imageWord s src (a + o)
  let h := w 0
  let nlev := bitsOf h 51 48
  let nax := bitsOf h 47 46 + 1
  let n := bitsOf (w 0x88) 23 0
  let levels := (List.range nlev).map fun l =>
    (bitsOf (w (0x100 + 16 * l)) 3 0, BitVec.ofNat 32 (w (0x108 + 16 * l)))
  let coded := bitsOf h 44 44 == 1
  let good := headerOk s src a (levels.headD (15, 0)).1 && levelsOk s src a
  let recs := if good then (List.range n).map fun i => readRec s src (a + 0x180 + 64 * i) cap else []
  let top := (recs.map fun r => Nat.max (r.1.rdidx + r.1.nrd) (r.1.wridx + r.1.nwr)).foldl Nat.max 0
  let first := a + 0x180 + 64 * n
  let inImage := if src = fabricSource then decide (first + 16 * top ≤ a + 65536) else match (getProc s pid).tensors.find 0 with
    | some l => decide (first + 16 * top ≤ l.ntile * 65536)
    | none => false
  let sets := if good && inImage then (List.range top).map fun i => readSet s src (first + 16 * i) else []
  let grains := (List.range 4).map fun g => if g < nax then imageRead s src (a + 0x50 + 4 * g) 4 else 1
  let k := bitsOf (w 0x78) 3 0
  let used := fun (r : TaskRec) => ((sets.drop r.rdidx).take r.nrd) ++ ((sets.drop r.wridx).take r.nwr)
  let recsOk := recs.all fun r => r.2 && recOk nax r.1 && (used r.1).all fun e => e.2 && setFits s pid grains r.1 e.1
  let carsOk := !coded || (List.range n).all fun i =>
    ((recs.getD i (emptyRec, false)).1.extent == (recs.getD (i / k * k) (emptyRec, false)).1.extent)
  let cmpl := w 0x80
  ({ seq := q, pid := pid, entry := BitVec.ofNat 48 (w 8), args := (List.range 8).map fun i => BitVec.ofNat 64 (w (0x10 + 8 * i)),
     grains := grains, claimts := BitVec.ofNat 64 (w 0x60), claimsl := BitVec.ofNat 64 (w 0x68),
     claimcy := BitVec.ofNat 64 (w 0x70), fixed := bitsOf h 45 45 == 1, coded := coded, code := BitVec.ofNat 64 (w 0x78),
     vregs := [16, 24, 32].getD (bitsOf h 43 42) 32, nax := nax, evmask := BitVec.ofNat 8 h,
     cmpl := if bitsOf cmpl 63 48 = 0 ∧ bitsOf cmpl 4 0 = 0 then BitVec.ofNat 64 cmpl else 0,
     ntask := n, levels := levels, recs := recs.map (·.1), sets := sets.map (·.1), inst0 := 0, root := 0, nsplit := 0,
     failed := none, underzero := 0, satblk := 0, entered := false, bad := false, replicas := [], ncar := 0, fabric := false,
     outpl := s.pkg.outpl },
   good && inImage && recsOk && carsOk)

/-! ### The level-0 instance (R213) -/

/-- Instances of a level's domain in the package. -/
def instances (code : Nat) : Nat :=
  if code = 4 then 8 else if code = 3 then 16 else if code = 2 then 256 else if code = 1 then 2048
  else if code = 7 ∨ code = 0 then 8192 else 1

/-- The first core of an instance, and the instance of context `x` of a core. -/
def instCore (code i : Nat) : Nat :=
  if code = 4 then 256 * i else if code = 3 then 128 * i else if code = 2 then 8 * i else if code = 1 then i else i / 4
def instOf (code c x : Nat) : Nat :=
  if code = 4 then stackOf c else if code = 3 then dieOf c else if code = 2 then clusterOf c else if code = 1 then c
  else if code = 7 ∨ code = 0 then c * 4 + x else 0

/-- Dies of an instance. -/
def instDies (code i : Nat) : List Nat := if code = 4 then [2 * i, 2 * i + 1] else [dieOf (instCore code i)]

/-- Tasks that R224 counts in an instance: those queued and placed; a core or a context counts those that stand on it. -/
def instTasks (s : State) (code i : Nat) : Nat :=
  (s.serai.tasks.cells.filter fun e => queuedOn e.2 &&
    (if code = 4 then e.2.stack == i else if code = 3 then e.2.cluster / 16 == i else if code = 2 then e.2.cluster == i
     else e.2.st != .ready && instOf code e.2.core e.2.x == i)).length

/-- May a process use an instance? -/
def mayUse (s : State) (pid code i : Nat) : Bool :=
  !excluded s (stackOf (instCore code i)) && (instDies code i).any fun d => (getDie s d).tag == some pid || dieFree s d pid

/-- The instance of a manifest, if there is one: the launcher's for a task's launch on a compute core, else the one with the fewest
tasks. -/
def chooseInstance (s : State) (m : Manifest) (l : Launch) : Option Nat :=
  let code := (m.levels.headD (5, 0)).1
  if code = 5 ∨ code = 6 then some 0
  else if l.byTask && !isMgmt l.core then some (instOf code l.core l.x)
  else fewest (instTasks s code) ((List.range (instances code)).filter (mayUse s m.pid code))

/-! ### Entry (R220, R223, R230, R375) -/

/-- Free entries that a manifest's tasks may take, in rising order. -/
def freeEntries (s : State) : List Nat :=
  (List.range (Config.depEntries - Config.splitEntries)).filter fun e => (s.serai.tasks.find e).isNone

/-- Live indices that precede an index and write a tile of its read set (R220). -/
def writersOf (s : State) (m : Manifest) (i : Nat) : List Nat :=
  let mine := indexReads m i
  (s.serai.indices.cells.filter fun e => e.2.isLive &&
    (match manifestOf s e.2.seq with
      | some o => o.pid == m.pid && decide (e.2.index < o.ntask) && runsMeet (indexWrites o e.2.index) mine
      | none => false)).map (·.1)

/-- One index enters: its counter (R220) and its task. -/
def enterIndex (s : State) (m : Manifest) (i e : Nat) : State :=
  let r := recFor m i
  let deps := if i < m.ntask then writersOf s m i else []
  let count := if i < m.ntask then r.expcnt + deps.length else 0
  let key := idxKey m.seq i
  let s1 := putIndex s key
    { seq := m.seq, index := i, counter := count, deps := deps, isReady := false, live := 1, complete := false, failed := none,
      published := [], placed := false }
  putTask s1 e
    { seq := m.seq, index := i, depth := 0, prio := r.prio, pid := m.pid, fixed := m.fixed, lo := r.origin, hi := fullHi m i,
      requeues := 0, st := .waiting, stack := 0, cluster := 0, order := 0, since := 0, core := 0, x := 0, slot := 0, shadows := [], spares := [],
      car := if m.coded ∧ i < outerBase then some (indexCar m i) else none
      member := if !m.coded then 0 else if i < outerBase then indexMember m i else outerK m + (i - outerBase) / 0x100000
      notBefore := 0, refusals := 0, inNode := false, under := 0, sat := 0 }

def enterIndices (s : State) (m : Manifest) : List (Nat × Nat) → State
  | [] => s
  | (i, e) :: r => enterIndices (enterIndex s m i e) m r

def enterCaravans (s : State) (m : Manifest) : List Nat → State
  | [] => s
  | v :: r =>
    enterCaravans (putCaravan s m.seq v (freshCaravan m.seq v [0, 0, 0, 0] (recFor m (memberIndex m v 0)).extent)) m r

/-- Indices with a counter of 0 are ready at once. -/
def readyFirst (s : State) : List Nat → State
  | [] => s
  | k :: r =>
    readyFirst (match getIndex s k with
      | some ix => if ix.counter = 0 ∧ !ix.isReady then readyIndex s k else s
      | none => s) r

/-- Does the caravan's first read set name an LG6 tensor, so that it replicates (R270)? -/
def replicates (s : State) (m : Manifest) (v : Nat) : Bool :=
  let r := m.recs.getD (codeK m * v) emptyRec
  match (if r.nrd = 0 then none else (m.sets.drop r.rdidx).head?) with
  | some w => (match (getProc s m.pid).tensors.find w.tid with | some l => l.elem == 7 | none => false)
  | none => false

/-- Indices of a manifest, the outriders of its caravans included. -/
def indexCount (m : Manifest) : Nat := m.ntask + if m.coded then codeM m * (m.ntask / codeK m) else 0

/-- The outer outrider indices that run in this package (R271). -/
def outerTasks (s : State) (m : Manifest) : List Nat :=
  match outerPlace s m with
  | some p => if p < outerK m then [] else (List.range (groupSize m)).map (outerIndex (p - outerK m + 1))
  | none => []

/-- Tiles of a request pool at byte `a` of tensor 0. -/
def poolTiles (a : Nat) : List Nat := (List.range ((a + 2 ^ 26 - 1) / 65536 + 1 - a / 65536)).map (a / 65536 + ·)

/-- A tile of a request pool is made resident: one that is unplaced or non-resident gets a zeroed frame, and monitors on it stand on that
(R192, R309, log entry 108). -/
def placePoolTile (s : State) (pid tile : Nat) : State :=
  match layoutOf s pid 0 with
  | none => s
  | some l =>
    if entryAt s l tile / 2 ^ 62 = 1 then s
    else
      let s1 := putFrame s 2048 l 0 tile
      if entryAt s1 l tile / 2 ^ 62 = 1 then moveMonitors s1 (absentByte pid (tileKey 0 tile) 0) (frameOf s1 (entryAt s1 l tile)) else s1

/-- Tiles of a request pool are made resident. -/
def placePool (s : State) (pid : Nat) : List Nat → State
  | [] => s
  | t :: r => placePool (placePoolTile s pid t) pid r

/-- The request pool of a process that comes to have a live task is resident (R309). -/
def wholePool (s : State) (pid : Nat) : State :=
  match (getProc s pid).pool with | some b => placePool s pid (poolTiles (refIdx b)) | none => s

/-- A waiting manifest enters: its indices and tasks take their entries in index order. -/
def enterManifest (s0 : State) (m : Manifest) (inst : Nat) (free : List Nat) : State :=
  let s := wholePool s0 m.pid
  let all := List.range (indexCount m) ++ outerTasks s m
  let n := all.length
  let cars := if m.coded then List.range (m.ntask / codeK m) else []
  let m1 := { m with entered := true, inst0 := inst, root := n, ncar := cars.length, replicas := cars.filter (replicates s m) }
  let s1 := enterCaravans (enterIndices (putManifest s m1) m1 (all.zip free)) m1 (cars ++ if outerCoded m then [outerNo] else [])
  readyFirst s1 ((List.range m.ntask).map (idxKey m.seq))

/-- A register that awaits a sequence number receives it (R196). -/
def answerLaunch (s : State) (l : Launch) (q : BitVec 32) : State :=
  match launcherAt s l with
  | some (c, x) =>
    if l.dest = 0 ∨ !l.byTask then s
    else
      let k := getAny s c x
      let s1 := if x < 4 then carry s 16 (coreEnd c) (.answer k.run l.place (q.setWidth 64)) else s
      if decide (x < 4) && underReplay s (coreEnd c) then s1 else setAny s1 c x (putAnswer (getAny s1 c x) l.dest (q.setWidth 64))
  | none => s

/-- The launches without the first one that satisfies a test, and with it put in its place. -/
def replaceLaunch (f : Launch → Bool) (g : Launch → List Launch) : List Launch → List Launch
  | [] => []
  | l :: r => if f l then g l ++ r else l :: replaceLaunch f g r

/-- Is the report store full, so that manifests and commands wait (R311)? -/
def storeFull (s : State) : Bool := decide (Config.reportStore ≤ s.host.reports.length)

/-- Can the Serai read a launch's manifest now (R196, R311)? -/
def launchReady (s : State) (l : Launch) : Bool :=
  !storeFull s && l.seq.isNone
    && (!l.byTask || (storesDone s l.task l.core l.x l.place && mayPass s (coreEnd l.core) 16 && answersPass s l.task l.core l.x))

/-- A launch takes its sequence number; its image is read once, and a malformed one completes at once (R196, R210, R217). -/
def takeLaunch (s : State) (l : Launch) : State :=
  let q := s.serai.mseq
  let s1 := if l.byTask then carry (toPackage s l.core) (coreEnd l.core) 16 .plain else s
  let s2 := answerLaunch (setSerai s1 fun r => { r with mseq := q + 1 }) l q
  let r := readManifest s2 (if l.fabric then fabricSource else l.pid) l.pid l.addr l.cap q
  let m := { r.1 with fabric := l.fabric, bad := !r.2 }
  let drop := fun (t : State) (g : Launch → List Launch) => setSerai t fun z => { z with launches := replaceLaunch (· == l) g z.launches }
  if r.2 then drop (putManifest s2 m) fun o => [{ o with seq := some q }]
  else finishRoot (drop (putManifest s2 m) fun _ => []) q

/-- The manifest that enters next: the lowest in sequence (R223). -/
def nextEntry (s : State) : Option (Launch × BitVec 32) :=
  (s.serai.launches.filterMap fun l => l.seq.map fun q => (l, q)).foldl
    (fun b p => match b with | some o => if o.2.toNat ≤ p.2.toNat then some o else some p | none => some p) none

/-- The waiting manifest enters where there is room and an instance; the answer says whether it did. -/
def tryEnter (s : State) : State × Bool :=
  match nextEntry s with
  | none => (s, false)
  | some (l, q) => match manifestOf s q with
    | none => (setSerai s fun z => { z with launches := replaceLaunch (· == l) (fun _ => []) z.launches }, true)
    | some m =>
      let free := freeEntries s
      if free.length < indexCount m + (outerTasks s m).length then (s, false)
      else match chooseInstance s m l with
        | none => (s, false)
        | some i =>
          (setSerai (enterManifest s m i free) fun z => { z with launches := replaceLaunch (· == l) (fun _ => []) z.launches }, true)

/-- MANIFEST_ENTRY (R210, R223): the first launch whose writes are performed takes its number, and the manifest first in sequence
enters if it can; while launches wait, the row comes again. -/
def manifestEntry (s : State) : State :=
  let s1 := match s.serai.launches.find? (launchReady s) with | some l => takeLaunch s l | none => s
  let r := tryEnter s1
  if r.1.serai.launches.isEmpty then r.1
  else if (r.1.timers.any fun t => t.2 == .manifestEntry) then r.1
  else after r.1 1 .manifestEntry

/-! ### Signals (R198, R221, R290, R375) -/

/-- The first signal that can be applied: its stores are performed, and no earlier one of its context waits, wherever the context was
then (R198). -/
def firstDsig (s : State) (seen : List (Option Nat × Nat × Nat)) : List Dsig → Option Dsig
  | [] => none
  | d :: r =>
    let who := senderOf d.task d.core d.x
    if !seen.contains who && storesDone s d.task d.core d.x d.place && mayPass s (coreEnd d.core) 16
        && (match manifestOf s (d.v.extractLsb' 32 32) with | some m => m.entered || decide (m.ntask ≤ d.v.toNat / 256 % 2 ^ 24) | none => true)
    then some d else firstDsig s (seen ++ [who]) r

def removeDsig (d : Dsig) : List Dsig → List Dsig
  | [] => []
  | e :: r => if e = d then r else e :: removeDsig d r

/-- A dependence underflow is reported to the signaller (R198). -/
def underflow (s : State) (d : Dsig) : State :=
  match standsAt s d.task d.core d.x with
  | some (c, x) =>
    let t : TrapReq := ⟨0x10, d.slot, true, d.v, d.pc⟩
    let s1 := if x < 4 then carry s 16 (coreEnd c) (.fault (getCtx s c x).run t) else s
    setAny s1 c x { getAny s1 c x with late := (getAny s1 c x).late ++ [t] }
  | none => s

/-- One decrement by a signal. -/
def applyDsig (s : State) (d : Dsig) : State :=
  let s1 := carry (toPackage s d.core) (coreEnd d.core) 16 .plain
  let q : BitVec 32 := d.v.extractLsb' 32 32
  let i := d.v.toNat / 256 % 2 ^ 24
  let key := idxKey q i
  match getIndex s1 key, manifestOf s1 q with
  | some ix, some m =>
    if !ix.isLive || ix.counter == 0 || decide (m.ntask ≤ i) then underflow s1 d
    else
      let s2 := putIndex s1 key { ix with counter := ix.counter - 1 }
      if ix.counter = 1 then readyIndex s2 key else s2
  | _, _ => underflow s1 d

/-- DSIG_APPLY (R198): while signals wait, the row comes again. -/
def dsigApply (s : State) : State :=
  let s1 := match firstDsig s [] s.serai.dsigs with
    | some d => applyDsig (setSerai s fun r => { r with dsigs := removeDsig d r.dsigs }) d
    | none => s
  if s1.serai.dsigs.isEmpty ∨ s1.timers.any (fun t => t.2 == .dsigApply) then s1 else after s1 1 .dsigApply

/-! ### Priority pre-emption (R323) -/

/-- Is a context of a cluster free for `n` registers: does it hold no task, and can its core allocate them (R224)? -/
def freeFor (s : State) (cl n : Nat) : Bool :=
  (coresOfCluster cl).any fun c => coreRuns s c && (findRegs s c n).isSome && [0, 1, 2, 3].any fun x => (getCtx s c x).status == .free

/-- The registers that a queued task asks for. -/
def askedRegs (s : State) (t : Task) : Nat :=
  match t.st with
  | .saved => (match s.serai.images.find t.slot with | some i => i.ctx.vregs | none => 32)
  | _ => (match manifestOf s t.seq with | some m => m.vregs | none => 32)

/-- Has a task waited PREWAIT master cycles in a cluster's queue with no free context for it? -/
def hasWaited (s : State) (cl : Nat) (t : Task) : Bool :=
  t.cluster == cl && (t.st == .ready || t.st == .saved) && decide (t.since + s.pkg.prewait.toNat ≤ s.now)
    && (match t.st with | .saved => (match s.serai.images.find t.slot with | some i => restorable i | none => false) | _ => true)
    && !freeFor s cl (askedRegs s t)

/-- Is a context of the cluster already on its way out? -/
def leaving (s : State) (cl : Nat) : Bool :=
  (coresOfCluster cl).any fun c => [0, 1, 2, 3].any fun x =>
    (getCtx s c x).preempting.isSome || match (getCtx s c x).status with | .draining | .waiting | .parking | .saving => true | _ => false

/-- Placed tasks of a cluster that can be pre-empted. -/
def victims (s : State) (cl : Nat) : List Task :=
  (s.serai.tasks.cells.filter fun e => e.2.st == .placed && clusterOf e.2.core == cl && preemptable s e.2.core e.2.x).map (·.2)

/-- The lowest priority, and among equals the most recently placed. -/
def victim : List Task → Option Task
  | [] => none
  | t :: r => match victim r with
    | none => some t
    | some u => if u.prio < t.prio ∨ (u.prio = t.prio ∧ t.order < u.order) then some u else some t

/-- The context that PREWAIT pre-empts now. -/
def prewaitVictim (s : State) (cl : Nat) : Option Task :=
  if s.pkg.prewait = 0 ∨ leaving s cl then none
  else match victim (victims s cl) with
    | none => none
    | some v => if s.serai.tasks.cells.any fun e => hasWaited s cl e.2 && decide (v.prio < e.2.prio) then some v else none

/-- PREWAIT_EXPIRY (R323). -/
def prewaitExpired (s : State) (cl : Nat) : State :=
  match prewaitVictim s cl with
  | some v => askPreempt s v.core v.x
  | none => s

/-! ### Meanings -/

/-- TASK_PLACEMENT (R225) -/
def execTaskPlacement (t c x : Nat) (s : State) : Host.Outcome State Fault Refusal := .next (placeTask s t c x)

/-- DIE_CLEAR_DONE (R235) -/
def execDieClearDone (d : Nat) (s : State) : Host.Outcome State Fault Refusal := .next (dieCleared s d)

/-- ALLOW_EXPIRY (R226) -/
def execAllowExpiry (c x : Nat) (s : State) : Host.Outcome State Fault Refusal := .next (allowExpired s c x)

/-- TASK_RETIREMENT (R201) -/
def execTaskRetirement (c x : Nat) (s : State) : Host.Outcome State Fault Refusal := .next (retireTask s c x)

/-- TILE_PUBLICATION (R222) -/
def execTilePublication (t : Nat) (s : State) : Host.Outcome State Fault Refusal := .next (tilePublished s t)

/-- MANIFEST_ENTRY (R210) -/
def execManifestEntry (s : State) : Host.Outcome State Fault Refusal := .next (manifestEntry s)

/-- DSIG_APPLY (R198) -/
def execDsigApply (s : State) : Host.Outcome State Fault Refusal := .next (dsigApply s)

/-- PREWAIT_EXPIRY (R323) -/
def execPrewaitExpiry (cl : Nat) (s : State) : Host.Outcome State Fault Refusal := .next (prewaitExpired s cl)

end Sys2Proof.Machine
end

