-- ==== Sys2Proof/Machine/Caravans.lean ====
section
/-! DEFINITION. The exact decoder of coded operators: policies, losses, decoding, location, replicas, publication (R258, R264 to
R271, R375). -/

namespace Sys2Proof.Machine

/-! ### Records (R79, R264) -/

def accOf (w : Nat) : Int := (BitVec.ofNat 80 w).toInt
def zexpOf (w : Nat) : Int := (BitVec.ofNat 16 (w / 2 ^ 80)).toInt
/-- A record with its flags clear. -/
def packRecord (a z : Int) : Nat := (BitVec.ofInt 80 a).toNat + (BitVec.ofInt 16 z).toNat * 2 ^ 80

/-- The decoder computes in 256-bit two's complement; elements have 80 bits. -/
def fits (n : Nat) (a : Int) : Bool := decide (-(2 ^ (n - 1)) ≤ a) && decide (a < 2 ^ (n - 1))

/-- The smallest exponent of some records. -/
def leastExp : List Int → Int
  | [] => 0
  | [z] => z
  | z :: r => if z ≤ leastExp r then z else leastExp r

/-- The exact values of a record position, aligned to the smallest ZEXP of the usable returns: by member. -/
structure Pos where
  z : Int
  vals : List (Nat × Int)

def alignPos (ws : List (Nat × Nat)) : Pos :=
  let z := leastExp (ws.map fun w => zexpOf w.2)
  ⟨z, ws.map fun w => (w.1, accOf w.2 * 2 ^ (zexpOf w.2 - z).toNat)⟩

def Pos.at_ (p : Pos) (j : Nat) : Int := (findCell j p.vals).getD 0

/-! ### Residuals and rebuilding (R266) -/

/-- Row entry V(j,i) of outrider j = 1, 2, … (R260). -/
def codeRow (j i : Nat) : Int := ((i + 1) ^ (j - 1) : Nat)

def sumInt (l : List Int) : Int := l.foldl (· + ·) 0

/-- O_j less the blocks of the data members given. -/
def residual (p : Pos) (k : Nat) (data : List Nat) (val : Nat → Int) (j : Nat) : Int :=
  p.at_ (k + j - 1) - sumInt (data.map fun i => codeRow j i * val i)

/-- A matrix without its column `n`. -/
def dropCol (n : Nat) (m : List (List Int)) : List (List Int) := m.map fun r => r.eraseIdx n

/-- The determinant, along the first row. -/
def detOf : Nat → List (List Int) → Int
  | 0, _ => 1
  | _, [] => 1
  | n + 1, r :: rs =>
    sumInt ((List.range (n + 1)).map fun c => (if c % 2 = 0 then 1 else -1) * r.getD c 0 * detOf n (dropCol c rs))

/-- A matrix with a column replaced. -/
def setCol (m : List (List Int)) (c : Nat) (b : List Int) : List (List Int) := (m.zip b).map fun e => e.1.set c e.2

/-- The missing blocks at a position by Cramer's rule over the integers; none where a division leaves a remainder or a value does not
fit. -/
def solvePos (p : Pos) (k : Nat) (have_ miss take extra : List Nat) : Option (List (Nat × Int)) :=
  let n := miss.length
  let mat := take.map fun j => miss.map fun i => codeRow j i
  let b := take.map (residual p k have_ p.at_)
  let d := detOf n mat
  let sols := (List.range n).map fun c => (miss.getD c 0, detOf n (setCol mat c b))
  if (p.vals.all fun v => fits 256 v.2) && (b.all (fits 256)) && d != 0
      && sols.all fun x => fits 256 x.2 && x.2 % d == 0 && fits 80 (x.2 / d) then
    let out := sols.map fun x => (x.1, x.2 / d)
    let val := fun i => (findCell i out).getD (p.at_ i)
    if extra.all fun j => residual p k (have_ ++ miss) val j == 0 then some out else none
  else none

/-! ### Verdicts -/

/-- A record to be written into a data block: member, tile of its write set, record, value. -/
structure Fix where
  i : Nat
  tile : Nat
  rec_ : Nat
  word : Nat

/-- What a decode finds: the records to write and the members located, or an inconsistency. -/
inductive Verdict where
  | publish (fixes : List Fix) (located : List Nat)
  | inconsistent

/-- The words of a position, by member. -/
def wordsAt (s : State) (pid : Nat) (rs : List (Return × List Nat)) (n i : Nat) : List (Nat × Nat) :=
  rs.map fun r => (r.1.member, returnRecord s pid r.1 (r.2.getD n 0) i)

/-- Every record position of a return of `n` tiles. -/
def positions (n : Nat) : List (Nat × Nat) := (List.range n).flatMap fun t => (List.range 4096).map fun i => (t, i)

/-- Rebuilding (R266): positions taken one by one. -/
def rebuild (k : Nat) (have_ miss take extra : List Nat) (word : Nat → Nat → List (Nat × Nat)) :
    List (Nat × Nat) → List Fix → Verdict
  | [], acc => .publish acc []
  | (n, i) :: r, acc =>
    let p := alignPos (word n i)
    match solvePos p k have_ miss take extra with
    | some out => rebuild k have_ miss take extra word r (acc ++ out.map fun x => ⟨x.1, n, i, packRecord x.2 p.z⟩)
    | none => .inconsistent

/-- A position with a non-zero syndrome: tile, record, its values and the syndromes by outrider. -/
structure Bad where
  tile : Nat
  rec_ : Nat
  pos : Pos
  syn : List (Nat × Int)

def synAt (b : Bad) (j : Nat) : Int := (findCell j b.syn).getD 0

/-- The positions with a syndrome; none where a value needs more than 256 bits. -/
def badPositions (k : Nat) (outs : List Nat) (word : Nat → Nat → List (Nat × Nat)) : List (Nat × Nat) → Option (List Bad)
  | [] => some []
  | (n, i) :: r =>
    let p := alignPos (word n i)
    let syn := outs.map fun j => (j, residual p k (List.range k) p.at_ j)
    if (p.vals.all fun v => fits 256 v.2) && syn.all fun x => fits 256 x.2 then
      (badPositions k outs word r).map fun rest => if syn.all fun x => x.2 == 0 then rest else ⟨n, i, p, syn⟩ :: rest
    else none

/-- Is only outrider `j` wrong (R267)? -/
def outriderWrong (bad : List Bad) (j : Nat) : Bool :=
  bad.all fun b => b.syn.all fun x => x.1 == j || x.2 == 0

/-- Is data block `i` wrong (R267)? `ja` is the lowest outrider held. -/
def blockWrong (bad : List Bad) (ja i : Nat) : Bool :=
  bad.all fun b => synAt b ja != 0 && b.syn.all fun x => x.2 == ((i + 1) ^ (x.1 - ja) : Nat) * synAt b ja

/-- The corrected records of block `i`; none where a correction is not exact or does not fit. -/
def corrections (bad : List Bad) (ja i : Nat) : Option (List Fix) :=
  let d : Int := ((i + 1) ^ (ja - 1) : Nat)
  bad.mapM fun b =>
    let v := b.pos.at_ i + synAt b ja / d
    if synAt b ja % d == 0 && fits 80 v then some ⟨i, b.tile, b.rec_, packRecord v b.pos.z⟩ else none

/-- Location (R267). -/
def locateFault (k : Nat) (outs : List Nat) (bad : List Bad) : Verdict :=
  if bad.isEmpty then .publish [] []
  else if outs.length < 2 then .inconsistent
  else match outs.find? (outriderWrong bad) with
    | some j => .publish [] [k + j - 1]
    | none => match (List.range k).find? (blockWrong bad (outs.headD 1)) with
      | some i => (match corrections bad (outs.headD 1) i with
        | some fs => .publish fs [i]
        | none => .inconsistent)
      | none => .inconsistent

/-- The decode of a coded caravan (R266). -/
def decodeCoded (s : State) (m : Manifest) (v : Nat) (us : List Return) : Verdict :=
  let k := carK m v
  let rs := us.map fun r => (r, returnTiles s m.seq v r.member)
  let n := (returnTiles s m.seq v 0).length
  let word := wordsAt s m.pid rs
  let have_ := (List.range k).filter fun i => us.any fun r => r.member == i
  let miss := (List.range k).filter fun i => !have_.contains i
  let outs := ((List.range (carM m v)).map (· + 1)).filter fun j => us.any fun r => r.member == k + j - 1
  if miss.isEmpty then
    match badPositions k outs word (positions n) with
    | some bad => locateFault k outs bad
    | none => .inconsistent
  else rebuild k have_ miss (outs.take miss.length) (outs.drop miss.length) word (positions n) []

/-! ### Replicas (R270) -/

/-- The value that two or more of three copies hold, and the copies that differ from it; none where there is no majority. -/
def majority (ws : List (Nat × Nat)) : Option (Nat × List Nat) :=
  match ws with
  | [] => none
  | w :: r =>
    if r.all fun x => x.2 == w.2 then some (w.2, [])
    else match ws.find? fun x => decide (2 * (ws.filter fun y => y.2 == x.2).length > ws.length) with
      | some x => some (x.2, (ws.filter fun y => y.2 != x.2).map (·.1))
      | none => none

/-- One block of a replicating caravan: every position compared. -/
def mergeCopies (i : Nat) (word : Nat → Nat → List (Nat × Nat)) : List (Nat × Nat) → List Fix → List Nat → Verdict
  | [], fs, odd => .publish fs odd.eraseDups
  | (n, p) :: r, fs, odd =>
    match majority (word n p) with
    | some (w, o) => mergeCopies i word r (fs ++ [⟨i, n, p, w⟩]) (odd ++ o)
    | none => .inconsistent

/-- The verdicts of two blocks together. -/
def joinVerdict : Verdict → Verdict → Verdict
  | .publish f o, .publish g p => .publish (f ++ g) (o ++ p)
  | _, _ => .inconsistent

def decodeReplicas (s : State) (m : Manifest) (v : Nat) (us : List Return) : Verdict :=
  let block := fun i =>
    let n := (returnTiles s m.seq v i).length
    let rs := (us.filter fun r => (copiesOf m i).contains r.member).map fun r => (r, returnTiles s m.seq v r.member)
    mergeCopies i (wordsAt s m.pid rs) (positions n) [] []
  ((List.range (codeK m)).map block).foldl joinVerdict (.publish [] [])

/-! ### Publication (R258, R266, R288) -/

/-- The frame of a tile of a data block, a new one if it has none. -/
def blockFrame (s : State) (pid core : Nat) (frames : List (Nat × Nat)) (key : Nat) : State × Option Nat :=
  match findCell key frames with
  | some f => (s, some f)
  | none => match frameFrom s (stackOrder core (key % 2 ^ 48)) with
    | none => (event s 0x0F [BitVec.ofNat 64 key], none)
    | some (s1, f) =>
      let s2 := dropCopies { s1 with mem := s1.mem.clear f 65536 } f 65536
      let l := (getProc s2 pid).tensors.find (key / 2 ^ 48)
      (match l with
        | some l =>
          let e := entryAt s2 l (key % 2 ^ 48)
          if e / 2 ^ 62 = 1 then { s2 with mem := s2.mem.copy (frameOf s2 e) f 65536 } else s2
        | none => s2, some f)

/-- Records written into the frames of a block. -/
def applyFixes (s : State) (pid core : Nat) (tiles : List Nat) (frames : List (Nat × Nat)) : List Fix → State × List (Nat × Nat)
  | [] => (s, frames)
  | x :: r =>
    let key := tiles.getD x.tile 0
    match blockFrame s pid core frames key with
    | (s1, some f) =>
      applyFixes { s1 with mem := s1.mem.writeN (f + 16 * x.rec_) x.word 16 } pid core tiles (putCell key f frames) r
    | (s1, none) => applyFixes s1 pid core tiles frames r

/-- Data block `i` is published as its task's retirement; under an outer code it is kept for the group's return (R271). -/
def publishBlock (s : State) (m : Manifest) (v : Nat) (us : List Return) (fixes : List Fix) (i : Nat) : State :=
  match (carTasks s m.seq v).find? fun e => e.2.member == i with
  | none => s
  | some (e, t) =>
    let r := us.find? fun r => r.member == i
    let own := match r with | some r => r.frames | none => []
    let a := applyFixes s m.pid t.core (returnTiles s m.seq v i) own (fixes.filter fun x => x.i == i)
    putTask a.1 e { t with
      st := if outerCoded m then .grouped else .publishing
      shadows := a.2, under := (r.map (·.under)).getD 0, sat := (r.map (·.sat)).getD 0 }

def publishBlocks (s : State) (m : Manifest) (v : Nat) (us : List Return) (fixes : List Fix) : List Nat → State
  | [] => s
  | i :: r => publishBlocks (publishBlock s m v us fixes i) m v us fixes r

/-- Members cancelled. -/
def cancelAll (s : State) (q : BitVec 32) (v : Nat) : List Nat → State
  | [] => s
  | j :: r =>
    cancelAll (match (carTasks s q v).find? fun e => e.2.member == j with | some e => cancelMember s e.1 | none => s) q v r

/-- Outriders end; their counts travel with a return that was used. Under an outer code they end with the outer decode. -/
def endOutriders (s : State) (m : Manifest) (v : Nat) (us : List Return) : List (Nat × Task) → State
  | [] => s
  | (e, t) :: r =>
    let u := us.find? fun u => u.member == t.member
    let n := ((u.map (·.under)).getD 0, (u.map (·.sat)).getD 0)
    let s1 :=
      if outerCoded m then (if t.st = .cancelled then s else putTask s e { t with st := .grouped, under := n.1, sat := n.2 })
      else endTask (addCounts s m.seq n.1 n.2) e
    endOutriders s1 m v us r

/-- Located members raise their events (R267, R270); one of the outer code names its package (R271). -/
def raiseLocated (s : State) (m : Manifest) (v q : Nat) (us : List Return) : List Nat → State
  | [] => s
  | j :: r =>
    let out := if j < carK m v then 0 else 1
    let n := if j < carK m v then j else j - carK m v + 1
    let core := ((us.find? fun u => u.member == j).map (·.core)).getD 0
    let s1 := if v = outerNo then locatedOuter s m.seq out n (m.outpl.toNat / 256 ^ j) else locatedFault s m.seq q out n core
    raiseLocated s1 m v q us r

/-- The caravan publishes: surplus members are cancelled, data blocks go to publication, every other return is dropped. Under an outer
code the results are kept for the group's return. -/
def publishCaravan (s : State) (m : Manifest) (v : Nat) (c : Caravan) (us : List Return) (fixes : List Fix) (loc : List Nat) : State :=
  let s1 := raiseLocated (cancelAll s m.seq v (awaitedMembers s m v c)) m v c.q us loc
  let s2 := publishBlocks s1 m v us fixes (List.range (codeK m))
  let s3 := dropReturns s2 (c.returns.filter fun r => !(decide (r.member < codeK m) && us.any fun u => u.member == r.member))
  let s4 := endOutriders s3 m v us ((carTasks s3 m.seq v).filter fun e => decide (codeK m ≤ e.2.member))
  if outerCoded m then offerGroup (putCaravan s4 m.seq v { c with returns := [], done := true }) m else dropCaravan s4 m.seq v

/-! ### The home decoder of an outer code (R271) -/

/-- The frame that tile `key` of a group's task is published from: the task's own, else a copy of what the group's return holds. -/
def groupFrame (s : State) (core : Nat) (own src : List (Nat × Nat)) (key : Nat) : State × List (Nat × Nat) :=
  match findCell key own, findCell key src with
  | some f, _ => (s, [(key, f)])
  | none, some f => (match frameFrom s (stackOrder core (key % 2 ^ 48)) with
    | some (s1, g) => let s2 := dropCopies s1 g 65536; ({ s2 with mem := s2.mem.copy f g 65536 }, [(key, g)])
    | none => (event s 0x0F [BitVec.ofNat 64 key], []))
  | none, none => (s, [])

def groupFrames (s : State) (core : Nat) (own src : List (Nat × Nat)) : List Nat → State × List (Nat × Nat)
  | [] => (s, [])
  | key :: r =>
    let a := groupFrame s core own src key
    let b := groupFrames a.1 core own src r
    (b.1, a.2 ++ b.2)

/-- A data task of an outer-coded operator retires with its tiles of the group's block. -/
def publishGrouped (s : State) (m : Manifest) (us : List Return) (fixes : List Fix) (e : Nat) (t : Task) : State :=
  let p := t.index / Nat.max 1 (groupSize m)
  let s1 := if t.st = .grouped then s else abortTask s e
  let tiles := runTiles (taskRuns s t)
  let all := groupTiles m p
  let a := groupFrames s1 t.core (if t.st = .grouped then t.shadows else []) (((us.find? fun r => r.member == p).map (·.frames)).getD []) tiles
  let b := applyFixes a.1 m.pid t.core all a.2 (fixes.filter fun x => x.i == p && tiles.contains (all.getD x.tile 0))
  putTask b.1 e { t with
    st := .publishing, shadows := b.2, spares := [], inNode := t.inNode && t.st == .grouped
    under := if t.st = .grouped then t.under else 0, sat := if t.st = .grouped then t.sat else 0 }

/-- Data tasks retire; every other task of the operator ends, its counts with it. -/
def publishGroups (s : State) (m : Manifest) (us : List Return) (fixes : List Fix) : List (Nat × Task) → State
  | [] => s
  | (e, t) :: r =>
    publishGroups (if t.index < m.ntask then publishGrouped s m us fixes e t
      else if t.st = .grouped then endTask (addCounts (dropShadows s e) m.seq t.under t.sat) e
      else endTask (abortTask s e) e) m us fixes r

/-- Counts that came with the returns of other packages. -/
def addReturns (s : State) (q : BitVec 32) : List Return → State
  | [] => s
  | r :: t => addReturns (addCounts s q r.under r.sat) q t

def manifestTasks (s : State) (m : Manifest) : List (Nat × Task) := s.serai.tasks.cells.filter fun e => e.2.seq == m.seq
def dropCaravans (s : State) (q : BitVec 32) : State :=
  setSerai s fun r => { r with caravans := r.caravans.filter fun _ c => c.seq != q }

/-- Tasks of a caravan: under the outer code all of the operator's. -/
def tasksOf (s : State) (m : Manifest) (v : Nat) : List (Nat × Task) := if v = outerNo then manifestTasks s m else carTasks s m.seq v

/-- Returns whose frames this package holds: those of an inner caravan. -/
def heldReturns (s : State) (m : Manifest) (v : Nat) (c : Caravan) : List Return :=
  if v = outerNo then (s.serai.caravans.cells.filter fun e => e.2.seq == m.seq && e.1 % 2 ^ 32 != outerNo).flatMap fun e => e.2.returns
  else c.returns

/-- The home decoder publishes the operator. -/
def publishOuter (s : State) (m : Manifest) (c : Caravan) (us : List Return) (fixes : List Fix) (loc : List Nat) : State :=
  let s1 := addReturns (raiseLocated s m outerNo c.q us loc) m.seq us
  let s2 := dropReturns s1 (heldReturns s1 m outerNo c)
  dropCaravans (publishGroups s2 m us fixes (manifestTasks s2 m)) m.seq

/-! ### Losses, re-issue, failure (R265, R268) -/

/-- The caravan fails (cause 5): nothing of it is published. -/
def failCaravan (s : State) (m : Manifest) (v : Nat) (c : Caravan) : State :=
  let mem := tasksOf s m v
  let s1 := abortAll (dropReturns s (heldReturns s m v c)) (mem.map (·.1))
  let s2 := failMembers s1 ((mem.head?.map fun e => e.2.depth).getD 0) 5 mem
  if v = outerNo then dropCaravans s2 m.seq else dropCaravan s2 m.seq v

/-- A task starts afresh. -/
def reissueTask (s : State) (e : Nat) : State :=
  let s1 := abortTask s e
  match getTask s1 e with
  | some u => putTask s1 e { u with st := .waiting, requeues := 0, refusals := 0, notBefore := 0 }
  | none => s1
/-- A member starts afresh. -/
def reissueMember (s : State) (q : BitVec 32) (v j : Nat) : State :=
  match (carTasks s q v).find? fun e => e.2.member == j with
  | none => s
  | some (e, _) => queueReady (reissueTask s e) [e]

def reissueMembers (s : State) (q : BitVec 32) (v : Nat) : List Nat → State
  | [] => s
  | j :: r => reissueMembers (reissueMember s q v j) q v r

/-- Tasks start afresh. -/
def reissueTasks (s : State) : List Nat → State
  | [] => s
  | e :: r => reissueTasks (reissueTask s e) r

/-- Does an inner caravan belong to group `p`? -/
def inGroup (m : Manifest) (p : Nat) (c : Caravan) : Bool := codeK m * c.q / Nat.max 1 (groupSize m) == p

/-- The inner caravans of a group start afresh. -/
def freshGroup (s : State) (m : Manifest) (p : Nat) : List (Nat × Caravan) → State
  | [] => s
  | (key, c) :: r =>
    let s1 := if c.seq == m.seq && key % 2 ^ 32 != outerNo && inGroup m p c then
        putCaravan (dropReturns s c.returns) m.seq (key % 2 ^ 32) (freshCaravan m.seq c.q c.off c.ext) else s
    freshGroup s1 m p r

/-- The work of the package at place `p` is issued again, where that is this package. -/
def reissueGroup (s : State) (m : Manifest) (p : Nat) : State :=
  if outerPlace s m != some p then s
  else
    let s1 := if p < outerK m then freshGroup s m p s.serai.caravans.cells else s
    let own := (manifestTasks s1 m).filter fun e =>
      if p < outerK m then (match e.2.car with
        | some v => (getCaravan s1 m.seq v).any (inGroup m p)
        | none => false)
      else decide (outerBase ≤ e.2.index)
    queueReady (reissueTasks s1 (own.map (·.1))) (own.map (·.1))

def reissueGroups (s : State) (m : Manifest) : List Nat → State
  | [] => s
  | p :: r => reissueGroups (reissueGroup s m p) m r

/-- Members are issued again: tasks of an inner caravan, or the work of packages. -/
def reissueAll (s : State) (m : Manifest) (v : Nat) (js : List Nat) : State :=
  if v = outerNo then reissueGroups s m js else reissueMembers s m.seq v js

/-- Lost members are re-issued once; their own returns are dropped (R265). -/
def reissueLost (s : State) (m : Manifest) (v : Nat) (c : Caravan) (js : List Nat) : State :=
  let gone := if v = outerNo then [] else c.returns.filter fun r => js.contains r.member
  let c1 := { c with
    returns := c.returns.filter fun r => !js.contains r.member
    lost := c.lost.filter fun j => !js.contains j
    reissued := c.reissued ++ js }
  reissueAll (putCaravan (dropReturns s gone) m.seq v c1) m v js

/-- A decode inconsistency (R268): the event, then the whole caravan afresh once, then failure. Under the outer code the group work of
every package is issued again (R271). -/
def inconsistency (s : State) (m : Manifest) (v : Nat) (c : Caravan) : State :=
  let s1 := event s 0x0B [BitVec.ofNat 64 (m.seq.toNat * 2 ^ 32 + c.q % 2 ^ 13 * 2 ^ 19 + if v = outerNo then 2 ^ 18 else 0)]
  if c.retried then failCaravan s1 m v c
  else
    let fresh := { freshCaravan m.seq c.q c.off c.ext with retried := true }
    let s2 := if v = outerNo then s1 else abortAll (dropReturns s1 c.returns) ((carTasks s1 m.seq v).map (·.1))
    reissueAll (putCaravan s2 m.seq v fresh) m v (members m v)

/-! ### When the decoder acts (R264, R265) -/

/-- Can enough usable returns still exist? -/
def stillPossible (s : State) (m : Manifest) (v : Nat) (c : Caravan) : Bool :=
  suffice m v c.q ((usableReturns s m.seq v m.pid c).map (·.member) ++ awaitedMembers s m v c)

/-- Does the caravan publish at this decode? Replicas of which one is lost are not waited for once every block has a copy (R270). -/
def publishNow (s : State) (m : Manifest) (v : Nat) (c : Caravan) : Bool :=
  if policyOf m = 1 then true
  else (awaitedMembers s m v c).isEmpty
    || (policyOf m == 2 && (c.deadline || isReplica m v c.q && !(lostMembers s m v c).isEmpty))

/-- Does the decoder act on what it holds? -/
def decodeNow (s : State) (m : Manifest) (v : Nat) (c : Caravan) : Bool :=
  let us := (usableReturns s m.seq v m.pid c).map (·.member)
  !c.done && suffice m v c.q us && (publishNow s m v c || (policyOf m == 2 && us != c.seen))

/-- The lowest-numbered free decoder unit (R264). -/
def freeUnit (s : State) : Option Nat := (List.range Config.decoders).find? fun u => decide (s.serai.units.get 0 u ≤ s.now)

/-- Is the caravan of a key decodable? -/
def decodable (s : State) (key : Nat) : Bool :=
  match s.serai.caravans.find key with
  | some c => (match manifestOf s c.seq with | some m => decodeNow s m (key % 2 ^ 32) c | none => false)
  | none => false

/-- Has a caravan a unit: one is free, and no caravan waits that became decodable before it? -/
def hasUnit (s : State) (key : Nat) : Bool :=
  (freeUnit s).isSome && (match s.serai.decq.find? (decodable s) with | some k => k == key | none => true)

/-- The caravans that await a unit, in the order they became decodable. -/
def waitingDecodes (s : State) : List Nat :=
  let old := s.serai.decq.filter (decodable s)
  old ++ (s.serai.caravans.cells.map (·.1)).filter fun k => !old.contains k && decodable s k

/-- A unit takes a caravan, and is busy for a free number of master cycles (log entry 60). -/
def takeUnit (s : State) (key : Nat) : State :=
  setSerai { s with delays := s.delays.drop 1 } fun r => { r with
    units := r.units.set ((freeUnit s).getD 0) (s.now + nextDelay s), decq := r.decq.filter (· != key) }

/-- Has a caravan lost what it cannot do without? -/
def lossDue (s : State) (m : Manifest) (v : Nat) (c : Caravan) : Bool :=
  !c.done && ((lostMembers s m v c).any c.reissued.contains || !stillPossible s m v c)

/-- Under policy 1, are surplus members to be cancelled: K usable returns are held, and their master cycle ends (Table 11.2)? -/
def surplusDue (s : State) (m : Manifest) (v : Nat) (c : Caravan) : Bool :=
  policyOf m == 1 && v != outerNo && decodeNow s m v c && !(awaitedMembers s m v c).isEmpty

/-- Is there anything to do for a caravan? -/
def caravanDue (s : State) (m : Manifest) (v : Nat) (c : Caravan) : Bool :=
  lossDue s m v c || surplusDue s m v c || (decodeNow s m v c && hasUnit s (carKey m.seq v))

/-- The decoder runs on what it holds. -/
def runDecode (s : State) (m : Manifest) (v : Nat) (c : Caravan) : State :=
  let us := usableReturns s m.seq v m.pid c
  match (if isReplica m v c.q then decodeReplicas s m v us else decodeCoded s m v us) with
  | .inconsistent => inconsistency s m v c
  | .publish fixes loc =>
    let c1 := { c with seen := us.map (·.member) }
    if publishNow s m v c1 then (if v = outerNo then publishOuter s m c1 us fixes loc else publishCaravan s m v c1 us fixes loc)
    else putCaravan s m.seq v c1

/-- Lost members that can be issued again: their index is live. -/
def canReissue (s : State) (m : Manifest) (v j : Nat) : Bool :=
  if v = outerNo then !groupFailed s m j
  else (carTasks s m.seq v).any fun e => e.2.member == j && (getIndex s (taskKey e.2)).any (·.isLive)

/-- CARAVAN_DECODE (R265, R266): a member lost again fails the caravan; losses that leave too few returns re-issue the lost members;
otherwise the decoder runs where its policy says so, once a unit is free (R264); the surplus of policy 1 is cancelled at once. -/
def caravanDecode (s : State) (q v : Nat) : State :=
  match getCaravan s (BitVec.ofNat 32 q) v, manifestOf s (BitVec.ofNat 32 q) with
  | some c, some m =>
    if !caravanDue s m v c then s
    else
      let lost := lostMembers s m v c
      if lost.any c.reissued.contains then failCaravan s m v c
      else if !stillPossible s m v c then
        let js := lost.filter (canReissue s m v)
        if js.isEmpty then failCaravan s m v c else reissueLost s m v c js
      else
        let s1 := if surplusDue s m v c then cancelAll s m.seq v (awaitedMembers s m v c) else s
        if hasUnit s1 (carKey m.seq v) then runDecode (takeUnit s1 (carKey m.seq v)) m v c else s1
  | _, _ => s

/-- DEADLINE_EXPIRY (R265): a caravan under policy 2 publishes what it holds. -/
def deadlineExpired (s : State) (q v : Nat) : State :=
  match getCaravan s (BitVec.ofNat 32 q) v, manifestOf s (BitVec.ofNat 32 q) with
  | some c, some m =>
    match c.kth with
    | some k =>
      if k + deadlineOf m ≤ s.now ∧ policyOf m = 2 then caravanDecode (putCaravan s m.seq v { c with deadline := true }) q v else s
    | none => s
  | _, _ => s

/-! ### Meanings -/

/-- CARAVAN_DECODE (R266) -/
def execCaravanDecode (sq q : Nat) (s : State) : Host.Outcome State Fault Refusal := .next (caravanDecode s sq q)

/-- DEADLINE_EXPIRY (R265) -/
def execDeadlineExpiry (sq q : Nat) (s : State) : Host.Outcome State Fault Refusal := .next (deadlineExpired s sq q)

end Sys2Proof.Machine
end

