-- ==== Sys2Proof/Machine/Transfer.lean ====
section
/-! DEFINITION. Transfers between the g and v files and the twin window (R156 to R160). -/

namespace Sys2Proof.Machine

/-- A register of the twin window written in this master cycle; the twin's core cycle that begins now still sees what stood before
(R157, R159). -/
def putWReg (s : State) (r : WReg) (new : Word × Bool) : WReg :=
  let old := if r.stamp = s.now ∧ 0 < s.now then (r.oldVal, r.oldValid) else (r.val, r.valid)
  ⟨new.1, new.2, old.1, old.2, s.now⟩

/-- An outbound register of the twin window is written, over the bond to the twin's die (R157, R337). -/
def writeTwin (s : State) (w : TReg) (f : WReg → Word × Bool) : State :=
  let c := s.focus
  let k := me s
  let r := k.w.get WReg.reset w.toNat
  let new := f r
  sendOnce (setMe s { k with nload := k.nload + 1 }) c (curX s) k.nload SendKind.twin.code (coreEnd (twinOf c))
    (.twin c (curX s) w.toNat new.1 new.2)
    fun t => setMe t { me t with w := (me t).w.set w.toNat (putWReg s r new) }

/-- VSPLAT (R156) -/
def execVsplat (h : TH) (d a : Reg) (s : State) : Host.Outcome State Fault Refusal :=
  runSlot (.vsplat h d a) (fun s => putV s d (ofLanes fun _ => (readG s a).setWidth 32) (lanesOf s (.vsplat h d a)) 1 0 false) s

/-- VINS (R156) -/
def execVins (h : TH) (d a : Reg) (k : BitVec 5) (s : State) : Host.Outcome State Fault Refusal :=
  runSlot (.vins h d a k) (fun s => putV s d (ofLanes fun _ => (readG s a).setWidth 32)
      ((lanesOf s (.vins h d a k)) &&& ((1 : Pred) <<< k.toNat)) 1 0 false) s

/-- VEXT (R156) -/
def execVext (h : TH) (d a : Reg) (k : BitVec 5) (s : State) : Host.Outcome State Fault Refusal :=
  runSlot (.vext h d a k) (fun s => putG s d ((lane (readV s a) k.toNat).signExtend 64) 1) s

/-- TWSET (R157) -/
def execTwset (h : TH) (w : TReg) (a : Reg) (s : State) : Host.Outcome State Fault Refusal :=
  runSlot (.twset h w a) (fun s => writeTwin s w fun _ => (readG s a, true)) s

/-- TWGET (R158) -/
def execTwget (h : TH) (d : Reg) (w : TReg) (s : State) : Host.Outcome State Fault Refusal :=
  runSlot (.twget h d w) (fun s => putG s d (twinReg s w).1 1) s

/-- TWCLR (R157) -/
def execTwclr (h : TH) (w : TReg) (s : State) : Host.Outcome State Fault Refusal :=
  runSlot (.twclr h w) (fun s => writeTwin s w fun r => (r.val, false)) s

end Sys2Proof.Machine
end

