-- ==== Sys2Proof/Machine/Dies.lean ====
section
/-! DEFINITION. Numbered messages between dies, the Drover's checkpoints, the warm reset of one die, package reset (R337 to R348). -/

namespace Sys2Proof.Machine

/-! ### Messages of the script, gaps and acknowledgements (R337 to R339) -/

/-- The message of a number in a list of messages. -/
def findMsg (sq : BitVec 32) : List (BitVec 32 × Word) → Option Word
  | [] => none
  | m :: r => if m.1 = sq then some m.2 else findMsg sq r

/-- The expected message and its held successors are delivered in order. -/
def deliverFrom (s : State) (a b : Nat) (m : Word) : Nat → State
  | 0 => s
  | n + 1 =>
    let l := getLink s a b
    let s1 := logInbound s a b l.expected (.word m)
    let l1 := { l with delivered := m :: l.delivered, expected := l.expected + 1,
                       oldAt := if l.expected = l.acked + 1 then s.now else l.oldAt
                       holds := l.holds.filter fun h => h.1 != l.expected + 1 }
    let s2 := setLink s1 a b l1
    match findMsg (l.expected + 1) l.holds with
    | some w => deliverFrom s2 a b w n
    | none => s2

/-- A destination asks for the expected message, and again every GAPWAIT master cycles (R338). A request that has gone unanswered for
2^20 master cycles breaks the pair (R339). -/
def askResend (s : State) (a b : Nat) : State :=
  let l := getLink s a b
  let s1 := setLink s a b { l with gapAt := some (s.now + gapWait s), reqAt := some (l.reqAt.getD s.now) }
  let s2 := if l.reqAt.isNone then after s1 (2 ^ 20) (.pairBroken a b) else s1
  after (later s2 (.resendRequest a b l.expected)) (gapWait s) (.gapTimeout a b)

/-- The messages of a pair from number `l.next` on, `n` of them, that their source must have sent: what they carry has not come in. -/
def fillKept (key : Nat) (l : Link) : Nat → Link
  | 0 => l
  | n + 1 => fillKept key { l with kept := l.kept ++ [(l.next, Config.freeMsg key l.next.toNat)], next := l.next + 1 } n

/-- What an arrival shows of its source: it has sent that message and every one before it, and keeps them for resending (R338, R339). -/
def keepSent (s : State) (a b : Nat) (sq : BitVec 32) (m : Word) : State :=
  let l := getLink s a b
  if isOld sq l.next then s
  else
    let l1 := fillKept (pairKey a b) l (sq - l.next).toNat
    setLink s a b { l1 with kept := l1.kept ++ [(sq, m)], next := sq + 1 }

/-- Has the retransmit buffer of endpoint `a` room for the messages of a pair up to number `sq` (R339)? -/
def hasRoom (s : State) (a b : Nat) (sq : BitVec 32) : Bool :=
  let l := getLink s a b
  isOld sq l.next || decide (occupied s a + (sq - l.next).toNat < Config.retransmit)

/-- MESSAGE_ARRIVAL (R338). A source with a full buffer sends nothing new until an entry frees (R339). For a die held in reset the message stays in its source's
buffer (Table 19.4). -/
def messageArrival (s : State) (a b : Nat) (sq : BitVec 32) (m : Word) : State :=
  if !hasRoom s a b sq then after s 1 (.messageArrival a b sq m)
  else
    let s1 := keepSent s a b sq m
    let l := getLink s1 a b
    if b < 16 ∧ dieHeld s b then s1
    else if sq = l.expected then
      let s2 := deliverFrom s1 a b m (Config.heldMessages + 1)
      let l2 := getLink s2 a b
      setLink s2 a b { l2 with gapAt := if l2.holds.isEmpty then none else some (s.now + gapWait s), reqAt := none }
    else if isOld sq l.expected then s1
    else if (findMsg sq l.holds).isSome then s1
    else if l.holds.length < Config.heldMessages then
      let s2 := setLink s1 a b { l with holds := l.holds ++ [(sq, m)], gapAt := some (l.gapAt.getD (s.now + gapWait s)) }
      if l.gapAt.isNone then after s2 (gapWait s) (.gapTimeout a b) else s2
    else askResend s1 a b

/-- GAP_TIMEOUT (R338). -/
def gapTimeout (s : State) (a b : Nat) : State :=
  match (getLink s a b).gapAt with
  | some t => if t ≤ s.now then askResend s a b else after s (t - s.now) (.gapTimeout a b)
  | none => s

/-- Kept messages of a pair from a number onward come again. -/
def resendAll (s : State) (a b : Nat) (sq : BitVec 32) : List (BitVec 32 × Word) → State
  | [] => s
  | m :: r => resendAll (if isOld m.1 sq then s else later s (.messageArrival a b m.1 m.2)) a b sq r

/-- RESEND_REQUEST (R338). -/
def resendRequest (s : State) (a b : Nat) (sq : BitVec 32) : State := resendAll s a b sq (getLink s a b).kept

/-- CUMULATIVE_ACK (R339): entries up to the number are freed; an acknowledgement names no message that has not been delivered. -/
def cumulativeAck (s : State) (a b : Nat) (sq : BitVec 32) : State :=
  let l := getLink s a b
  if !isOld sq l.expected ∨ isOld sq l.acked then s
  else setLink s a b { l with kept := l.kept.filter (fun m => !isOld m.1 (sq + 1)), acked := sq, oldAt := s.now }

/-- The acknowledgement that a destination sends now: at least every 256 messages or 1,024 master cycles (R339). A die in reset sends
none. -/
def ackDue (s : State) (b : Nat) (l : Link) : Option (BitVec 32) :=
  let n := (l.expected - 1 - l.acked).toNat
  if n ≠ 0 ∧ !(decide (b < 16) && dieHeld s b) ∧ (256 ≤ n ∨ l.oldAt + 1024 ≤ s.now) ∧ isOld l.acked l.expected then some (l.expected - 1) else none

/-- Accesses of a context of core `c` that await data from endpoint `a`, long loads and atomics past the caches and copy commands: they end,
and fault late (R339). -/
def breakAccesses (s : State) (c a : Nat) (k : Ctx) : Ctx :=
  let hit := fun (l : LongLoad) => (farHomes s c l.scope (loadBytes l)).contains a
  let out := fun (q : CopyCmd) => !q.done && q.kind != .cpout && (copyHomes s q).contains a
  { k with
    late := k.late ++ (k.loads.filter hit).map (fun l => brokenFault l.slot l.pc) ++ (k.copyq.filter out).map fun q => brokenFault q.slot q.pc
    loads := k.loads.filter fun l => !hit l
    copyq := k.copyq.filter fun q => !out q
    reserved := k.reserved.filter fun r => !(k.copyq.any fun q => out q && q.id == r.2.2) }

/-- PAIR_BROKEN (R339). -/
def pairBroken (s : State) (a b : Nat) : State :=
  let l := getLink s a b
  match l.reqAt with
  | some t =>
    if t + 2 ^ 20 ≤ s.now ∧ !l.broken then
      let s1 := event (setLink s a b { l with broken := true }) 0x06
        [BitVec.ofNat 64 (a % 65536 * 2 ^ 48 + b % 65536 * 2 ^ 32 + l.expected.toNat)]
      let saved := fun (i : Image) => if coreEnd i.core = b then { i with ctx := breakAccesses s1 i.core a i.ctx } else i
      { s1 with
        cores := s1.cores.map fun c k => if coreEnd c = b then { k with ctxs := k.ctxs.map fun _ x => breakAccesses s1 c a x } else k
        serai := { s1.serai with images := s1.serai.images.map fun _ i => saved i } }
    else s
  | none => s

/-! ### Checkpoints (R341 to R345) -/

/-- Contexts of fixed tasks placed on a die: core, context. -/
def fixedOn (s : State) (d : Nat) : List (Nat × Nat) :=
  (s.serai.tasks.cells.filter fun e => e.2.fixed && e.2.st == .placed && dieOf e.2.core == d && !isMgmt e.2.core).map fun e =>
    (e.2.core, e.2.x)

/-- A context as a rollback at this cycle would leave it, with its matrix state, on its core or parked; that it holds the licence is kept in
`licWait`: it asks again when it stands there once more, since its release at the reset (R281) has passed the licence on (Table 19.2). What a
replay reads of the context as it runs is not part of it. Faults of committed intervals stay (R24). -/
def rolledBack (s : State) (c x : Nat) : Ctx :=
  let r := rollback s c x
  let k := { getCtx r c x with sent := [], redo := [], goal := 0, late := (getCtx r c x).late }
  match parkedOf r c x with
  | some p => { k with mstate := some p, licWait := licHolds r c x || k.licWait }
  | none =>
    if licHolds r c x then
      { k with mstate := some { matrixOf r c x with bySave := true }, zwp := (getCore r c).zwp, zdirty := [], licWait := true
               live := { k.live with tiles := .empty } }
    else { k with mstate := none, licWait := false }

/-- What the Drover captures of a die now (Table 19.2). -/
def snapshot (s : State) (d : Nat) (epoch : BitVec 32) : Ckpt :=
  { epoch := epoch, at_ := s.now, ctxs := (fixedOn s d).map fun q => (q.1, q.2, rolledBack s q.1 q.2), win := windowOf s d,
    pseq := diePseq s d, map := [], blocks := (getDie s d).dirtyBlocks, logged := (getDie s d).log.length }

/-- Does a context of the die stand within its commit: its stores are handed over, and a later act waits? -/
def commitsOn (s : State) (d : Nat) : Bool := (fixedOn s d).any fun q => (getCtx s q.1 q.2).handedOver

/-- Has every copy command of a fixed-task context on the die completed (R342), those of saved contexts among them? A commit within its
step 4 cannot be rolled back, and ends first (log entry 40). -/
def copiesDone (s : State) (d : Nat) : Bool :=
  ((fixedOn s d).all fun q => (getCtx s q.1 q.2).copyq.isEmpty)
  && (s.serai.images.cells.all fun i => isMgmt i.2.core || dieOf i.2.core != d || i.2.ctx.copyq.isEmpty
    || !(i.2.task.bind (getTask s)).any (·.fixed))
  && !commitsOn s d

/-- Does a capture start now? -/
def captureDue (s : State) (d : Nat) : Bool := captureNext s == some d && copiesDone s d

def postCopies (s : State) (d : Nat) : List Nat → State
  | [] => s
  | b :: r => postCopies (later s (.droverBlockCopy d b)) d r

/-- CHECKPOINT_CAPTURE (R342, R345): the state at E is taken, and the dirty L2 lines are written back as at E. -/
def captureDie (s : State) (d : Nat) : State :=
  if !captureDue s d then s
  else
    let c := snapshot s d ((getDie s d).epoch + 1)
    let s1 := writeBackAll s d
    let s2 := setDie s1 d { getDie s1 d with dphase := if c.blocks.isEmpty then 2 else 1, capture := some c, lastE := s.now, dirtyBlocks := [] }
    if c.blocks.isEmpty then later s2 (.checkpointCommit d) else postCopies s2 d c.blocks

/-- Has the Drover copied every block of a capture? -/
def allCopied (c : Ckpt) : Bool := c.blocks.all fun b => (findCell b c.map).isSome

/-- DROVER_BLOCK_COPY (R343): the block is copied unless a write has had it copied already; with the last block the capture commits. -/
def copyBlock (s : State) (d b : Nat) : State :=
  match (getDie s d).capture with
  | none => s
  | some c =>
    if (getDie s d).dphase ≠ 1 ∨ !c.blocks.contains b then s
    else
      let s1 := if (findCell b c.map).isSome then s else copyOut s d b
      match (getDie s1 d).capture with
      | some o => if allCopied o then later (setDie s1 d { getDie s1 d with dphase := 2 }) (.checkpointCommit d) else s1
      | none => s1

/-- CHECKPOINT_COMMIT (R343 to R345): the new map replaces the old one, and superseded space is free; log entries from before E are
freed. -/
def commitCkpt (s : State) (d : Nat) : State :=
  let k := getDie s d
  match k.capture with
  | none => s
  | some c =>
    if k.dphase ≠ 2 then s
    else
      let old := match k.ckpt with | some o => o.map | none => []
      let c1 := { c with map := c.map ++ old.filter fun e => (findCell e.1 c.map).isNone }
      event (setDie s d { k with ckpt := some c1, capture := none, epoch := c.epoch, dphase := 0, log := k.log.drop c.logged })
        0x07 [BitVec.ofNat 64 (d % 16 * 2 ^ 56 + c.epoch.toNat)]

/-! ### Warm reset of one die (R346 to R348) -/

/-- Is a DIERESET refused: another die of the stack is in reset, or a restore is running (R346)? -/
def resetRefused (s : State) (d : Nat) : Bool :=
  dieDown s (d / 2 * 2) || dieDown s (d / 2 * 2 + 1)
    || (List.range 16).any fun e => (getDie s e).rphase == 4 || (getDie s e).rphase == 5

/-- A phase begins: its event names the EPOCH used. -/
def enterPhase (s : State) (d n : Nat) : State :=
  event (setDie s d { getDie s d with rphase := n }) 0x05 [BitVec.ofNat 64 (n * 2 ^ 60 + d % 16 * 2 ^ 56 + (getDie s d).epoch.toNat)]

/-- A divisible task on the die is aborted and issued again; a caravan member is lost (R341). -/
def loseTask (s : State) (e : Nat) : State :=
  match getTask s e with
  | none => s
  | some t => match t.car with
    | none => queueReady (abortTask s e) [e]
    | some v =>
      let s1 := cancelMember s e
      match getCaravan s1 t.seq v with
      | some q => putCaravan s1 t.seq v { q with lost := q.lost ++ [t.member] }
      | none => s1

/-- A task fails with cause 2 (R218). -/
def endFixed (s : State) (e : Nat) : State :=
  match getTask s e with
  | none => s
  | some t => endTask (failIndex (abortTask s e) (taskKey t) t.depth 2) e

def fenceTasks (s : State) (keep : Bool) : List (Nat × Task) → State
  | [] => s
  | (e, t) :: r => fenceTasks (if !t.fixed then loseTask s e else if keep then s else endFixed s e) keep r

/-- Messages that stand inside a die, on their way between endpoints that it is none of (R340). -/
def insideOf (s : State) (d : Nat) : List (Nat × Nat × BitVec 32) :=
  s.timers.filterMap fun t => match t.2 with
    | .messageArrival a b sq _ => if (transitDies s a b).contains d then some (a, b, sq) else none
    | _ => none

/-- Phase 1, FENCE: new messages take paths round the die from now on; those inside it go on. -/
def fenceDie (s : State) (d : Nat) : State :=
  let s1 := enterPhase (setDie s d { dropCapture (getDie s d) with inside := insideOf s d, around := true }) d 1
  let keep := s1.pkg.drvctl.getLsbD 0 && (getDie s1 d).ckpt.isSome
  fenceTasks s1 keep (s1.serai.tasks.cells.filter fun e => e.2.st == .placed && dieOf e.2.core == d && !isMgmt e.2.core)

def moveOuts (s : State) : List Nat → State
  | [] => s
  | sl :: r => moveOuts (moveOut s sl) r

/-- A context's licence requests are withdrawn; a holder keeps its matrix state, ends its engine jobs and releases as on an abort (R281,
R227). -/
def leaveLicence (s : State) (c x : Nat) : State :=
  let s1 := licWithdraw s c x
  if licHolds s1 c x then
    let k := rolledBack s1 c x
    let s2 := rollback s1 c x
    let s3 := licRelease (setCtx s2 c x { getCtx s2 c x with mstate := k.mstate, zwp := k.zwp, zdirty := k.zdirty, licWait := false }) c x false
    setCore s3 c (killJobs (getCore s3 c) x)
  else licReturn s1 c x false

def leaveLicences (s : State) : List (Nat × Nat) → State
  | [] => s
  | q :: r => leaveLicences (leaveLicence s q.1 q.2) r

def contextsOf (d : Nat) : List (Nat × Nat) := (coresOfDie d).flatMap fun c => [0, 1, 2, 3].map fun x => (c, x)

/-- Phase 2, DRAIN: parked states and core-tied state move into images; nothing on the die holds or waits for a licence. -/
def drainDie (s : State) (d : Nat) : State :=
  let s1 := evictParks (enterPhase s d 2) (coresOfDie d)
  let s2 := moveOuts s1 ((s1.serai.images.cells.filter fun e => e.2.coretied && !e.2.saving && dieOf e.2.core == d && !isMgmt e.2.core).map (·.1))
  leaveLicences s2 (contextsOf d)

/-- Events of the die's own contexts, which end with its reset. -/
def dueOn (d : Nat) : Due → Bool
  | .longLoadReturn c x _ | .copyDelivery c x _ | .copyComplete c x _ | .relayDelivery c x _ _ => decide (x < 4) && !isMgmt c && dieOf c == d
  | .storePerformed c x | .monitorArmEstablished c x => decide (x < 4) && !isMgmt c && dieOf c == d
  | _ => false

/-- A core as reset leaves it; the registers of firmware, the banks' state and the counts since reset stay (log entry 121). -/
def resetCore (k : Core) : Core :=
  { k with
    ctxs := k.ctxs.map fun _ t => twinCleared (freedCtx t)
    cur := 0, mma := none, drain := none, z := .empty, zwp := .empty, zdirty := [], sqa := .reset, sqb := .reset
    stall := 0, engineFrozen := false, park := none, l1 := .empty, icache := .empty }

def resetCores (s : State) : List Nat → State
  | [] => s
  | c :: r =>
    let k := resetCore (getCore s c)
    resetCores (setCore s c { k with ebal := ceilOf (profileOf s c), ebalAt := s.now }) r

/-- The run of a checkpointed context that stands on the die at the reset, as it stands there. -/
def stoppedRun (l : List (Nat × Nat × Ctx)) (r : Nat) : Option Ctx := (l.find? fun q => q.2.2.run == r).map (·.2.2)

/-- Staging frames that contexts have taken since the checkpoint: their copies are made again. -/
def newFrames (o : Option Ckpt) (l : List (Nat × Nat × Ctx)) : List (Nat × Nat) :=
  l.flatMap fun q =>
    let had := match (match o with | some c => stoppedRun c.ctxs q.2.2.run | none => none) with | some k => k.outFrames | none => []
    (q.2.2.outFrames.filter fun f => !had.contains f).map fun f => (f.key, f.frame)

/-- Saves that have begun on the die and not ended are given up. -/
def dropSaves (s : State) : List (Nat × Nat) → State
  | [] => s
  | q :: r => dropSaves (dropSave s q.1 q.2) r

/-- The states that the die's contexts have parked on their twins are lost with them: a checkpoint holds them as at E. -/
def dropParks (s : State) : List (Nat × Nat) → State
  | [] => s
  | q :: r => dropParks (freeParkedLicence (dropParked s q.1 q.2) q.1 q.2) r

/-- Phase 3, RESET: what the die's levels held is lost, and so is every message still inside it. The model keeps, of the contexts of fixed
tasks, what tells a replay which of their messages had been sent, and the lines that were still to be written back. -/
def holdDie (s : State) (d : Nat) : State :=
  let s1 := enterPhase s d 3
  let k := getDie s1 d
  let cur := (fixedOn s1 d).map fun q => (q.1, q.2, getCtx s1 q.1 q.2)
  let s2 := dropParks (dropSaves (freeFrames s1 (newFrames k.ckpt cur)) (contextsOf d)) (contextsOf d)
  let s3 := setDie s2 d { getDie s2 d with stopped := cur, unsent := k.l2.filter fun _ l => l.dirty != 0, l2 := .empty, inside := [] }
  let s4 := { loseMessages s3 (fun a b sq => k.inside.contains (a, b, sq)) with
    latch := if dieOf s.focus = d then { s.latch with words := [] } else s.latch }
  resetCores { s4 with timers := s4.timers.filter fun t => !dueOn d t.2 } (coresOfDie d)

/-- The blocks of a map copied back from the area. -/
def putBlocks (s : State) (d : Nat) : List (Nat × Nat) → State
  | [] => s
  | e :: r => putBlocks { s with mem := s.mem.copy (areaBase d + e.2 * 4096) (e.1 * 4096) 4096 } d r

/-- The on-chip bytes of a die as its checkpoint has them; the Drover brings them from the area, past the log. -/
def putLevels (s : State) (d : Nat) (m : List (Nat × Nat)) : State :=
  putBlocks { s with
    mem := ⟨s.mem.cells.filter fun w => !onDie d w.1⟩
    links := (homeEnd (areaBase d)).toList.foldl (fun t b => t.set (pairKey b d) (passLink (t.get Link.reset (pairKey b d)) s.now)) s.links } d m

/-- Is a trap one that a context which is rolled back still takes: neither a freeze, nor the first residue trap of an interval (R82,
R329)? -/
def trapStands (t : TrapReq) : Bool := !([0x11, 0x20, 0x21, 0x22] : List (BitVec 8)).contains t.cause

/-- A context as it goes on after a restore: a trap taken before E waits to be delivered; what froze it is met again as its bundles are
executed again. -/
def rerunCtx (k : Ctx) : Ctx :=
  let k1 := { k with
    status := if k.ended then .halted else .running, pend := none, stopping := false, preempting := none, block := .no }
  match k.pend.filter trapStands with
  | some t => { writeTrapRegs k1 t with status := .trapped, pend := some t }
  | none => k1

/-- A context from which a run begins again (R348): with what it had sent before the reset, if it is the run that stood there then; a run
that had retired is a ghost, all of whose sends are duplicates. Accesses handed to memory and not yet performed are those of the context
as it stood. -/
def rerun (stopped : List (Nat × Nat × Ctx)) (k : Ctx) : Ctx :=
  match stoppedRun stopped k.run with
  | some o =>
    { rerunCtx k with
      w := o.w, sent := o.sent, redo := o.sent, goal := o.closed
      wbuf := k.wbuf.map fun e => (o.wbuf.find? fun f => f.seq == e.seq).getD e
      loads := k.loads.map fun l => { (o.loads.find? fun f => f.id == l.id).getD l with cancelled := false, handed := true, committed := true }
      outFrames := k.outFrames.filter o.outFrames.contains }
  | none => { rerunCtx k with task := some deadTask, ghost := true, sent := [], redo := [], outFrames := [] }

/-- Register banks that fail the test go out of service; a core with fewer than two offers none (R347). -/
def testBanks (s : State) : List Nat → State
  | [] => s
  | c :: r =>
    let k := getCore s c
    let left := k.inService &&& ~~~ k.bankFault
    let n := [0, 1, 2, 3].countP left.getLsbD
    testBanks (setCore s c { k with inService := if n < 2 then 0 else left }) r

/-- Has some bank of the die gone out of service by this test? -/
def lostBank (s : State) (d : Nat) : Bool :=
  (coresOfDie d).any fun c => (getCore s c).inService &&& (getCore s c).bankFault != 0

/-- The next PSEQ of each pair as captured. -/
def putPseq (s : State) : List (Nat × BitVec 32) → State
  | [] => s
  | e :: r => putPseq { s with links := s.links.set e.1 { s.links.get Link.reset e.1 with next := e.2 } } r

/-- Phase 4, RESTORE: banks are tested; the captured bytes are written back, and the L2 is empty. The captured contexts wait for the replay
to begin. -/
def restoreDie (s : State) (d : Nat) : State :=
  let s1 := enterPhase s d 4
  let s2 := testBanks s1 (coresOfDie d)
  let s3 := if lostBank s1 d then raiseReason s2 2 0 else s2
  match (getDie s3 d).ckpt with
  | some c =>
    if s3.pkg.drvctl.getLsbD 0 then
      let s4 := putPseq (putLevels s3 d c.map) c.pseq
      setDie s4 d { getDie s4 d with dirtyBlocks := [], view := c.win }
    else s3
  | none => s3

/-- Events of a context that stands on its core again. -/
def repostCtx (s : State) (c x : Nat) : State :=
  let k := getCtx s c x
  let s1 := k.loads.foldl (fun t l => if l.handed then later t (.longLoadReturn c x l.id) else t) s
  let s2 := repostStores s1 c x (committedEntries k)
  if k.mon.st = .armed ∧ !k.mon.established then later s2 (.monitorArmEstablished c x) else s2

/-- A context begins its run again: on its core where the banks in service hold its registers, else in a free image slot, from which it
is restored elsewhere (R332, R347). A holder's licence is asked for again. -/
def rerunAt (s : State) (c x : Nat) (k : Ctx) : State :=
  match findRegs s c k.vregs with
  | some b =>
    let s1 := repostCtx (setCtx s c x { k with vbase := b }) c x
    if k.licWait then implicitRequest s1 c x else s1
  | none => match freeSlot s, k.task with
    | some sl, some e =>
      if k.ghost then s
      else
        let i : Image :=
          { ctx := { k with status := .free }, core := c, x := x, trapped := false, frozen := false, licheld := k.licWait, coretied := true,
            mloc := if k.mstate.isSome then 2 else 0, cause := 0, task := some e, saving := false, target := none }
        requeueSaved (writeImage (moveOut (putImage s sl i) sl) sl) e sl
    | _, some e => if k.ghost then s else endFixed s e
    | _, none => s

def rerunAll (s : State) (stopped : List (Nat × Nat × Ctx)) : List (Nat × Nat × Ctx) → State
  | [] => s
  | q :: r => rerunAll (rerunAt s q.1 q.2.1 (rerun stopped q.2.2)) stopped r

/-- Phase 5, REPLAY (R348): each captured context runs again from E, and the log feeds it. -/
def replayDie (s : State) (d : Nat) : State :=
  let s1 := enterPhase s d 5
  match (getDie s1 d).ckpt with
  | none => s1
  | some c =>
    if s1.pkg.drvctl.getLsbD 0 then
      rerunAll (setDie s1 d { getDie s1 d with replay := (getDie s1 d).log }) (getDie s1 d).stopped c.ctxs
    else s1

/-- The context of the die that a run stands on. -/
def runAt (s : State) (d r : Nat) : Option (Nat × Nat) :=
  (contextsOf d).find? fun q => (getCtx s q.1 q.2).run == r && (getCtx s q.1 q.2).status != .free

/-- Has a context still to come to where it stood at the reset? -/
def behind (k : Ctx) : Bool :=
  (k.status == .running || k.status == .halted) && k.pend.isNone && (k.ghost || decide (k.closed < k.goal))

/-- Is an answer of the log one that a context may still ask for: its run is behind, or waits for it? -/
def wanted (s : State) (d r id : Nat) : Bool :=
  match runAt s d r with
  | some q => behind (getCtx s q.1 q.2) || (getCtx s q.1 q.2).loads.any fun l => l.id == id
  | none => false

/-- A sleeping context of a run whose MNAP the log answers. -/
def napOf (s : State) (d r place : Nat) : Option (Nat × Nat × Nat) :=
  (runAt s d r).bind fun q => (getCtx s q.1 q.2).nap.bind fun g =>
    if (getCtx s q.1 q.2).nload = place + 1 then some (q.1, q.2, g) else none

/-- The state after the first entry of a replay has been delivered, or dropped where no context will ask for it; none while it waits
(R348): an unsolicited message waits for the answers logged before it, an answer for its request. -/
def replayItem (s : State) (d : Nat) (i : LogItem) (rest : List LogItem) : Option State :=
  let s1 := setDie s d { getDie s d with replay := rest }
  match i.body with
  | .word _ | .plain => some s1
  | .twin c x w v valid =>
    let t := (getDie s1 d).view.get .empty (4 * c + x)
    some (setDie s1 d { getDie s1 d with view := (getDie s1 d).view.set (4 * c + x) (t.set w (putWReg s (t.get WReg.reset w) (v, valid))) })
  | .place c x k cells =>
    if (getCtx s c x).status = .free then
      some (rerunAt { s1 with mem := s1.mem.writeCells cells } c x (rerun (getDie s d).stopped k))
    else none
  | .page r sq => match runAt s d r with
    | some q =>
      if (getCtx s q.1 q.2).rqout.contains sq then some (setCtx s1 q.1 q.2 (removeReq sq (getCtx s1 q.1 q.2)))
      else if behind (getCtx s q.1 q.2) then none else some s1
    | none => some s1
  | .answer r p v => match napOf s d r p with
    | some q => some (napWake s1 q.1 q.2.1 q.2.2 v.toNat)
    | none => if wanted s d r p then none else some s1
  | .reply r id _ _ | .row r id _ _ => if wanted s d r id then none else some s1
  | .line ln v => some (layLine s1 d (ln, v))
  | .code c key v => some (setCore s1 c { getCore s1 c with icache := (getCore s1 c).icache.set key v })
  | .fault r t => match runAt s d r with
    | some q => some (setCtx s1 q.1 q.2 { getCtx s1 q.1 q.2 with late := (getCtx s1 q.1 q.2).late ++ [t] })
    | none => some s1

/-- The next thing that the replay of a die does by itself. -/
def replayNext (s : State) (d : Nat) : Option State :=
  if (getDie s d).rphase ≠ 5 then none
  else match (getDie s d).replay with
    | [] => none
    | i :: r => replayItem s d i r

/-- Has a die's replay come to where the die stood: the log is delivered and no context is behind? -/
def caughtUp (s : State) (d : Nat) : Bool :=
  (getDie s d).replay.isEmpty && !(contextsOf d).any fun q => behind (getCtx s q.1 q.2)

/-- An array's LASTBEAT is set 64 master cycles in the past at the end of a warm reset (R272). -/
def clearBeats (s : State) (d : Nat) : List Nat → State
  | [] => s
  | c :: r =>
    let p := getPair s (pairOf c)
    clearBeats (setPair s (pairOf c) (if d % 2 = 0 then { p with freeLower := s.now } else { p with freeUpper := s.now })) d r

/-- PSEQ counters of the die's own pairs go on from where the replay has brought them (Table 19.4). -/
def levelPseq (s : State) (d : Nat) : State :=
  { s with links := s.links.map fun k l => if k / 65536 = d ∧ isOld l.next l.expected then { l with next := l.expected } else l }

/-- The held messages of a pair are resent (Table 19.4): those of the script come in again. -/
def resendHeld (s : State) (d : Nat) : List (Nat × Link) → State
  | [] => s
  | e :: r => resendHeld (if e.1 % 65536 = d then resendAll s (e.1 / 65536) d e.2.expected e.2.kept else s) d r

/-- Clean bytes leave the L2 of a die: what its replay read may be out of date (R236). -/
def dropStale (s : State) (d : Nat) : State :=
  setDie s d { getDie s d with l2 := (getDie s d).l2.map fun _ l => { l with valid := l.dirty } }

/-- Writes to the twin window that stayed with their source come to the die (Table 19.4). -/
def deliverKept (s : State) (d : Nat) : List (Nat × MsgBody) → State
  | [] => s
  | e :: r => deliverKept (carry s e.1 d e.2) d r

/-- Phase 6, REJOIN. -/
def rejoinDie (s : State) (d : Nat) : State :=
  let s1 := dropStale (levelPseq (enterPhase s d 6) d) d
  let s2 := setDie s1 d { getDie s1 d with around := false, stopped := [], view := .empty, inbox := [] }
  let s3 := deliverKept s2 d (getDie s1 d).inbox
  resendHeld (clearBeats s3 d (coresOfDie d)) d s3.links.cells

/-- The next phase falls due; a drain ends within DRAINTO (R346). -/
def postPhase (s : State) (d : Nat) : State :=
  if (getDie s d).rphase = 2 then
    let b := boundedDelay s (drainTo s)
    after (after b.1 b.2 (.dieResetPhase d)) (drainTo s) (.transitDrainTimeout d)
  else later s (.dieResetPhase d)

/-- A warm reset starts. -/
def startReset (s : State) (d : Nat) : State := postPhase (fenceDie s d) d

/-- DIE_RESET_PHASE (R346): a phase completes and the next begins; a replay goes on until it has caught up. -/
def resetPhase (s : State) (d : Nat) : State :=
  let n := (getDie s d).rphase
  if n = 1 then postPhase (drainDie s d) d
  else if n = 2 then (if commitsOn s d then after s 1 (.dieResetPhase d) else postPhase (holdDie s d) d)
  else if n = 3 then postPhase (restoreDie s d) d
  else if n = 4 then postPhase (replayDie s d) d
  else if n = 5 then (if caughtUp s d then postPhase (rejoinDie s d) d else after s 1 (.dieResetPhase d))
  else if n = 6 then requeueHeld (setDie s d { getDie s d with rphase := 0 })
  else s

/-- TRANSIT_DRAIN_TIMEOUT (R340): the drain of a die that is being reset is over, at DRAINTO at the latest. -/
def drainTimeout (s : State) (d : Nat) : State := if (getDie s d).rphase = 2 then postPhase (holdDie s d) d else s

/-! ### Package reset -/

/-- Wear is kept through every reset (R359); located-fault totals are kept but by a cold reset (Table 21.2). -/
def keptDie (d : Die) : Die := { Die.reset with wear := d.wear }
def keptStack (cold : Bool) (k : Stack) : Stack := if cold then .reset else { Stack.reset with total := k.total, resesc := k.resesc }

/-- PACKAGE_RESET: every part takes its reset state. Stacked memory keeps its bytes but for the mailbox entries and their progress word,
which firmware zeroes (R321); after a thermal shutdown the reset is a cold one, and memory is as after power-on (log entry 19). The
model's own scripts go on. -/
def packageReset (s : State) : State :=
  { State.reset with
    fresh := s.fresh
    inputs := s.inputs
    delays := s.delays
    pieces := s.pieces
    dies := s.dies.map fun _ d => keptDie d
    cstacks := s.cstacks.map fun _ k => keptStack s.off k
    mem := if s.off then ⟨[]⟩ else s.mem.clear 0 0x4008 }

/-! ### Meanings -/

/-- MESSAGE_ARRIVAL (R338) -/
def execMessageArrival (a b : Nat) (sq : BitVec 32) (m : Word) (s : State) : Host.Outcome State Fault Refusal :=
  .next (messageArrival s a b sq m)

/-- GAP_TIMEOUT (R338) -/
def execGapTimeout (a b : Nat) (s : State) : Host.Outcome State Fault Refusal := .next (gapTimeout s a b)

/-- RESEND_REQUEST (R338) -/
def execResendRequest (a b : Nat) (sq : BitVec 32) (s : State) : Host.Outcome State Fault Refusal := .next (resendRequest s a b sq)

/-- CUMULATIVE_ACK (R339) -/
def execCumulativeAck (a b : Nat) (sq : BitVec 32) (s : State) : Host.Outcome State Fault Refusal := .next (cumulativeAck s a b sq)

/-- PAIR_BROKEN (R339) -/
def execPairBroken (a b : Nat) (s : State) : Host.Outcome State Fault Refusal := .next (pairBroken s a b)

/-- TRANSIT_DRAIN_TIMEOUT (R340) -/
def execTransitDrainTimeout (d : Nat) (s : State) : Host.Outcome State Fault Refusal := .next (drainTimeout s d)

/-- DIE_RESET_PHASE (R346) -/
def execDieResetPhase (d : Nat) (s : State) : Host.Outcome State Fault Refusal := .next (resetPhase s d)

/-- CHECKPOINT_CAPTURE (R345) -/
def execCheckpointCapture (d : Nat) (s : State) : Host.Outcome State Fault Refusal := .next (captureDie s d)

/-- DROVER_BLOCK_COPY (R343) -/
def execDroverBlockCopy (d bk : Nat) (s : State) : Host.Outcome State Fault Refusal := .next (copyBlock s d bk)

/-- CHECKPOINT_COMMIT (R343) -/
def execCheckpointCommit (d : Nat) (s : State) : Host.Outcome State Fault Refusal := .next (commitCkpt s d)

/-- PACKAGE_RESET (R337) -/
def execPackageReset (s : State) : Host.Outcome State Fault Refusal := .next (packageReset s)

end Sys2Proof.Machine
end

