-- ==== Sys2Proof/Machine/HostLink.lean ====
section
/-! DEFINITION. The host link: the register window, manifest queues, the command and report rings, the residency service, the rack
scheduler (R301 to R313). -/

namespace Sys2Proof.Machine

def setHost (s : State) (f : HostIf → HostIf) : State := { s with host := f s.host }
def getQueue (s : State) (n : Nat) : MQueue := s.host.mq.get MQueue.reset n
def setQueue (s : State) (n : Nat) (q : MQueue) : State := setHost s fun h => { h with mq := h.mq.set n q }

/-! ### Rings (Table 17.1) -/

/-- Base address of a ring, and its number of entries. -/
def ringBase (w : Word) : Nat := w.toNat % 2 ^ 48 / 4096 * 4096
def ringSize (w : Word) : Nat := 16 * 2 ^ (w.toNat % 16)
/-- The address of entry `i` of `n` bytes. -/
def ringEntry (w : Word) (n i : Nat) : Nat := ringBase w + n * (i % ringSize w)
/-- What a base register keeps of a write. -/
def baseValue (v : Word) : Word := BitVec.ofNat 64 (ringBase v + v.toNat % 16)

/-- The test of R305 for a sequence number against the last one: 1 taken, 0 an older or equal one, 2 a gap. -/
inductive SeqTest where | next | old | gap
  deriving DecidableEq, Repr
def seqTest (last found : BitVec 32) : SeqTest :=
  let d := (found - last).toNat
  if d = 1 then .next else if d = 0 ∨ 2 ^ 31 ≤ d then .old else .gap

/-- REPORT_WRITE (R311): words 1 to 3, then word 0, of the oldest held report. -/
def canWriteReport (s : State) : Bool :=
  match s.host.rpbase with
  | some b => !s.host.reports.isEmpty && decide ((s.host.rphead - s.host.rpack).toNat < ringSize b)
  | none => false

def writeReport (s : State) : State :=
  match s.host.rpbase, s.host.reports with
  | some b, r :: rest =>
    if (s.host.rphead - s.host.rpack).toNat < ringSize b then
      let a := ringEntry b 32 r.dseq.toNat
      let put := fun (t : State) (i : Nat) => writeDepots t (cellsOf (a + 8 * i) (r.words.getD i 0).toNat 8)
      setHost (put (put (put (put s 1) 2) 3) 0) fun h => { h with reports := rest, rphead := r.dseq }
    else s
  | _, _ => s

/-- A write to RPACK (R311). -/
def rpackWrite (s : State) (v : Word) : State := setHost s fun h => { h with rpack := v.setWidth 32 }

/-- Offset of a base register: rings 0 to 63 are queues, 64 the command ring, 65 the report ring. -/
def baseOffset (rg : Nat) : Nat := if rg < 64 then 0x1000 + 0x40 * rg else if rg = 64 then 0 else 0x18

/-- Is a ring empty? -/
def ringEmpty (s : State) (rg : Nat) : Bool :=
  if rg < 64 then (getQueue s rg).head == (getQueue s rg).tail
  else if rg = 64 then s.host.cmdhead == s.host.cmdtail
  else s.host.rphead == s.host.rpack

/-- A write to a base register (Table 17.1): ignored with report 0x11 while the ring holds entries, or for a size of 12 to 15. -/
def baseWrite (s : State) (rg : Nat) (v : Word) : State :=
  if !ringEmpty s rg || decide (11 < v.toNat % 16) then report s 0x11 (BitVec.ofNat 64 (baseOffset rg)) 0 0
  else if rg < 64 then setQueue s rg { getQueue s rg with base := baseValue v }
  else if rg = 64 then setHost s fun h => { h with cmdbase := baseValue v }
  else setHost s fun h => { h with rpbase := some (baseValue v) }

/-! ### Manifest queues (R303 to R306) -/

def untaken (q : MQueue) : Bool := q.head != q.tail
def queueNos : List Nat := List.range 64
def heldCount (s : State) : Nat := queueNos.countP fun n => (getQueue s n).held

/-- Is a queue switched out with entries that wait? -/
def waitsOut (q : MQueue) : Bool := q.en != 0 && !q.held && untaken q

/-- A place among the held queues is free: the lowest waiting queue takes it. -/
def fillHeld (s : State) : State :=
  if heldCount s < Config.heldQueues then
    match queueNos.find? fun n => waitsOut (getQueue s n) with
    | some n => setQueue s n { getQueue s n with held := true, idleSince := s.now }
    | none => s
  else s

/-- A write to MQTAIL (R304): a queue that waits takes a free place among the held ones (R306); writes of the host to queue 63 are refused
(R313). -/
def tailWrite (s : State) (n : Nat) (v : Word) : State :=
  let q := getQueue s n
  let tseq : BitVec 32 := v.extractLsb' 32 32
  let tail : BitVec 32 := v.setWidth 32
  let refuse := fun (t : State) => report t 0x12 (BitVec.ofNat 64 n) (tseq.setWidth 64) (tail.setWidth 64)
  let d := (tseq - q.tseq).toNat
  if n = 63 then refuse s
  else if d = 0 ∨ 2 ^ 31 ≤ d then s
  else
    let ok := decide ((q.tail - q.head).toNat ≤ (tail - q.head).toNat) && decide ((tail - q.head).toNat ≤ ringSize q.base)
    if ok then fillHeld (setQueue s n { q with tseq := tseq, tail := tail })
    else refuse (setQueue s n { q with tseq := tseq })

/-- A write to MQCTL (Table 17.2): a queue that is enabled is held while the Serai has a place; EN = 0 clears STOP and gives the place
up. -/
def ctlWrite (s : State) (n : Nat) (v : Word) : State :=
  let q := getQueue s n
  let en := v.toNat % 8
  let q1 := { q with pid := v.toNat / 2 ^ 48, en := en, stop := q.stop && en != 0 }
  if en = 0 then fillHeld (setQueue s n { q1 with held := false })
  else if q.held then setQueue s n q1
  else if heldCount s < Config.heldQueues then setQueue s n { q1 with held := true, idleSince := s.now }
  else setQueue s n q1

/-- Can the Serai take the next entry of a queue? -/
def entryReady (s : State) (n : Nat) : Bool :=
  let q := getQueue s n
  q.held && q.en != 0 && !q.stop && untaken q && !storeFull s

/-- A queue past one entry; it is idle from the cycle in which its last entry is taken. -/
def advanceQueue (s : State) (n : Nat) : State :=
  let q := getQueue s n
  setQueue s n { q with head := q.head + 1, idleSince := if q.head + 1 = q.tail then s.now else q.idleSince }

/-- MANIFEST_QUEUE_TAKE (R303, R305). Word 0 of an entry of queue 63 carries the process of its message in [63:48]. -/
def takeEntry (s : State) (n : Nat) : State :=
  if !entryReady s n then s
  else
    let q := getQueue s n
    let a := ringEntry q.base 16 q.head.toNat
    let w0 := s.mem.readN a 8
    let hseq := BitVec.ofNat 32 (s.mem.readN (a + 8) 8)
    match seqTest q.hseq hseq with
    | .next =>
      let l : Launch := ⟨if n = 63 then w0 / 2 ^ 48 else q.pid, w0 % 2 ^ 48, q.en, 0, 0, none, 0, 0, false, none, n == 63⟩
      let s1 := advanceQueue (setQueue s n { q with hseq := hseq }) n
      later (setSerai s1 fun r => { r with launches := r.launches ++ [l] }) .manifestEntry
    | .old => advanceQueue s n
    | .gap =>
      report (setQueue s n { q with stop := true }) 0x13 (BitVec.ofNat 64 n) ((q.hseq + 1).setWidth 64) (hseq.setWidth 64)

/-- Has a held queue had no untaken entry for 256 master cycles? -/
def idle (s : State) (n : Nat) : Bool :=
  let q := getQueue s n
  q.held && !untaken q && decide (q.idleSince + 256 ≤ s.now)

/-- The held queue that has been idle longest, the lowest on ties. -/
def longestIdle (s : State) : Option Nat := fewest (fun n => (getQueue s n).idleSince) (queueNos.filter (idle s))

/-- QUEUE_SWITCH (R306). -/
def switchQueues (s : State) (qin qout : Nat) : State :=
  if waitsOut (getQueue s qin) && longestIdle s == some qout then
    let s1 := setQueue s qout { getQueue s qout with held := false }
    setQueue s1 qin { getQueue s1 qin with held := true, idleSince := s.now }
  else s

/-- The switch that is due. -/
def switchDue (s : State) : Option (Nat × Nat) :=
  match queueNos.find? fun n => waitsOut (getQueue s n), longestIdle s with
  | some i, some o => some (i, o)
  | _, _ => none

/-! ### The residency service (R308 to R310) -/

/-- The number of tiles of a tensor, if it has a record. -/
def tensorTiles (s : State) (pid tid : Nat) : Option Nat := (layoutOf s pid tid).map (·.ntile)

/-- The element index of the first element of a tile (R239, R241). -/
def tileCoords (dims tiles : List Nat) (tile : Nat) : List Nat × Nat :=
  match dims, tiles with
  | d :: ds, t :: ts =>
    let r := tileCoords ds ts tile
    let n := (d + t - 1) / t
    ((r.2 % n) * t :: r.1, r.2 / n)
  | _, _ => ([], tile)
def firstIndex : List Nat → List Nat → Nat → Nat
  | d :: ds, c :: cs, acc => firstIndex ds cs (acc * d + c)
  | _, _, acc => acc
def firstElement (tid : Nat) (l : Layout) (tile : Nat) : Nat :=
  if tid = 0 then tile * 65536 else firstIndex l.dims (tileCoords l.dims l.tiles tile).1 0

/-- The tile of a page request. -/
def reqTile (s : State) (p : PageReq) : Option Nat :=
  (locate s (procCtx p.pid) p.ref).map fun q => tileKey (refTid p.ref) q.1

/-- TILE of a reply: the reference of the tile's first element; free where the reference names no tile. -/
def replyRef (s : State) (p : PageReq) : Word :=
  match locate s (procCtx p.pid) p.ref, layoutOf s p.pid (refTid p.ref) with
  | some (tile, _), some l => mkRef (refTid p.ref) (firstElement (refTid p.ref) l tile)
  | _, _ => Config.freeInfo s.fresh

/-- A reply (R195, R333): its record is written, bytes 0 to 7 and then 8 to 15, and the context has one request less outstanding. A task
that has ended gets none. -/
def postReply (s : State) (p : PageReq) (status : Nat) : State :=
  if p.task.isNone then s
  else
    let a := refIdx p.cmpla + 16 * (p.seq.toNat % 256)
    let s1 := (seraiWrite s p.pid a (replyRef s p).toNat 8).1
    let s2 := (seraiWrite s1 p.pid (a + 8) (p.seq.toNat * 2 ^ 32 + status * 2 ^ 24) 8).1
    match standsAt s2 p.task p.core p.x with
    | some (c, x) =>
      let s3 := if x < 4 then carry s2 16 (coreEnd c) (.page (getAny s2 c x).run p.seq) else s2
      if decide (x < 4) && underReplay s2 (coreEnd c) then s3 else setAny s3 c x (removeReq p.seq (getAny s3 c x))
    | none => s2

def postReplies (s : State) (status : Nat) : List PageReq → State
  | [] => s
  | p :: r => postReplies (postReply s p status) status r

/-- Every pending request for a tile of a process is answered, in order of arrival. -/
def answerTile (s : State) (pid key status : Nat) : State :=
  let hit := fun (p : PageReq) => p.pid == pid && reqTile s p == some key
  postReplies (setSerai s fun r => { r with pending := r.pending.filter fun p => !hit p }) status (s.serai.pending.filter hit)

/-- The tile that a command names in word 1. -/
def namedTile (w1 : Word) : Nat := w1.toNat
def cmdPid (w0 : Word) : Nat := w0.toNat / 2 ^ 16 % 2 ^ 16
def cmdOp (w0 : Word) : Nat := w0.toNat / 2 ^ 8 % 2 ^ 8

/-- Is an eviction of the tile, or a deletion of its tensor, in progress? -/
def beingEvicted (s : State) (pid key : Nat) : Bool :=
  s.serai.evicting.any fun c => cmdPid c.1 == pid &&
    (if cmdOp c.1 = 4 then c.2.toNat % 2 ^ 16 == key / 2 ^ 48 else namedTile c.2 == key)

/-- Is a MAP of the tile in progress? -/
def beingMapped (s : State) (pid key : Nat) : Bool := s.serai.mapping.any fun m => cmdPid m.w0 == pid && namedTile m.w1 == key

/-- Is a request to be settled now: it and its reply can pass, and its tile is not between the steps of R243? -/
def settles (s : State) (p : PageReq) : Bool :=
  mayPass s (coreEnd p.core) 16 && answersPass s p.task p.core p.x &&
  match reqTile s p with | some k => !beingEvicted s p.pid k && !beingMapped s p.pid k | none => true

/-- Report 0x02 to the driver (Table 17.7). -/
def requestReport (s : State) (p : PageReq) (key : Nat) : State :=
  report s 2 (BitVec.ofNat 64 p.pid) (BitVec.ofNat 64 key)
    (BitVec.ofNat 64 ((ctxid p.core p.x).toNat * 2 ^ 32 + p.seq.toNat))

/-- One request is settled (R310). -/
def settle (s : State) (p : PageReq) : State :=
  match layoutOf s p.pid (refTid p.ref) with
  | none => postReply s p 3
  | some l =>
    match locate s (procCtx p.pid) p.ref with
    | none => postReply s p 1
    | some (tile, _) =>
      let tid := refTid p.ref
      let key := tileKey tid tile
      let s1 := if entryAt s l tile / 2 ^ 62 = 0 then placeTile s p.core (procCtx p.pid) tid tile else s
      if entryAt s1 l tile / 2 ^ 62 = 1 then postReply s1 p 0
      else
        let known := s1.serai.pending.any fun q => q.pid == p.pid && reqTile s1 q == some key
        let s2 := setSerai s1 fun r => { r with pending := r.pending ++ [p] }
        if known then s2 else requestReport s2 p key

def removeFirst (f : PageReq → Bool) : List PageReq → List PageReq
  | [] => []
  | p :: r => if f p then r else p :: removeFirst f r

/-- PAGE_REQUEST_SERVICE (R310): the first request that can be settled; while others wait, the row comes again. -/
def servePages (s : State) : State :=
  let s1 := match s.serai.pageReqs.find? (settles s) with
    | some p => settle (setSerai (carry s (coreEnd p.core) 16 .plain) fun r => { r with pageReqs := removeFirst (settles s) r.pageReqs }) p
    | none => s
  if s1.serai.pageReqs.isEmpty ∨ s1.timers.any (fun t => t.2 == .pageRequestService) then s1 else after s1 1 .pageRequestService

/-- Every context of the package, saved ones included. -/
def allCtxs (s : State) : List Ctx :=
  (s.cores.cells.flatMap fun c => c.2.ctxs.cells.map (·.2)) ++ s.serai.images.cells.map fun i => i.2.ctx

/-- Does a storage address belong to one of the tiles, through its frame or renamed? -/
def inTiles (s : State) (pid : Nat) (keys frames : List Nat) (a : Nat) : Bool :=
  if a < shadowTop then frames.any fun f => decide (f ≤ a) && decide (a < f + 65536)
  else
    let q := (a - shadowTop) / 65536
    keys.contains (q % 2 ^ 64) && (match getTask s (q / 2 ^ 64) with | some t => t.pid == pid | none => false)

/-- Step 1 of R243: does a withheld store, an outstanding atomic or an incomplete copy of the context reach one of the tiles? -/
def reachesTiles (s : State) (pid : Nat) (keys frames : List Nat) (k : Ctx) : Bool :=
  (k.wbuf.any fun e => e.cells.any fun w => inTiles s pid keys frames w.1)
  || (k.acts.any fun a => match a with | .stl e => e.cells.any fun w => inTiles s pid keys frames w.1 | .copy _ => true | _ => false)
  || (k.loads.any fun l => l.atomic.isSome && l.parts.any fun p => p.addrs.any (inTiles s pid keys frames))
  || (k.pid == pid && k.copyq.any fun c => !c.done && c.frames.any fun f => keys.contains f.1)

/-- Step 4 of R243 for a MAP: does a load that found a tile of the tensor non-resident wait for its return? -/
def stillMisses (pid tid : Nat) (k : Ctx) : Bool :=
  k.pid == pid && k.loads.any fun l => refTid l.ref == tid && l.parts.any fun p => p.addrs.isEmpty

/-- Step 4 of R243: does a load that looked up the old entry wait for its data? -/
def stillReads (s : State) (pid : Nat) (keys frames : List Nat) (k : Ctx) : Bool :=
  k.loads.any fun l => l.parts.any fun p => p.addrs.any (inTiles s pid keys frames)

/-- The resident tiles among `n` tiles of a tensor, from `first` on, with their frames. -/
def residents (s : State) (pid tid first n : Nat) : List (Nat × Nat) :=
  match layoutOf s pid tid with
  | none => []
  | some l => (List.range n).filterMap fun i =>
      let e := entryAt s l (first + i)
      if e / 2 ^ 62 = 1 then some (tileKey tid (first + i), frameOf s e) else none

/-- The tiles that an EVICT or DELETE makes non-resident. -/
def evictSet (s : State) (w0 w1 : Word) : List (Nat × Nat) :=
  let pid := cmdPid w0
  if cmdOp w0 = 4 then
    (let tid := w1.toNat % 2 ^ 16
     residents s pid tid 0 ((tensorTiles s pid tid).getD 0))
  else residents s pid (namedTile w1 / 2 ^ 48) (namedTile w1 % 2 ^ 48) 1

/-- Report 0x01 (R307). -/
def cmdDone (s : State) (w0 : Word) (status : Nat) : State := report s 1 (w0 >>> 32) (BitVec.ofNat 64 status) 0

/-- Steps 2 and 3 of R243 for a resident tile: its dirty lines are written back, no cached copy stays, its entry is non-resident, and
monitors armed on its bytes stand on the evicted tile. -/
def writeAbsent (s : State) (pid : Nat) (f : Nat × Nat) : State :=
  match layoutOf s pid (f.1 / 2 ^ 48) with
  | none => s
  | some l =>
    let s1 := moveMonitors (dropCopies (flushRange s f.2 65536) f.2 65536) f.2 (absentByte pid f.1 0)
    { s1 with mem := Memory.writeN s1.mem (l.ttab + 8 * (f.1 % 2 ^ 48)) (2 * 2 ^ 62) 8 }

def writeAbsents (s : State) (pid : Nat) : List (Nat × Nat) → State
  | [] => s
  | f :: r => writeAbsents (writeAbsent s pid f) pid r

/-- Step 5 of R243: no cached copy of the frame stays, and report 0x03 hands it to the driver (R308). -/
def handFrame (s : State) (f : Nat × Nat × Nat) : State :=
  report (dropCopies s f.2.1 65536) 3 (BitVec.ofNat 64 f.1)
    (BitVec.ofNat 64 (f.2.2 % 2 ^ 56 / 2 ^ 48 * 2 ^ 48 + f.2.2 % 2 ^ 40 / 2 ^ 16 * 2 ^ 16)) 0

def handFrames (s : State) : List (Nat × Nat × Nat) → State
  | [] => s
  | f :: r => handFrames (handFrame s f) r

/-- A deleted tensor: pending requests are answered with status 3, and the record goes (R307). -/
def removeTensor (s : State) (pid tid : Nat) : State :=
  let hit := fun (p : PageReq) => p.pid == pid && refTid p.ref == tid
  let s1 := postReplies (setSerai s fun r => { r with pending := r.pending.filter fun p => !hit p }) 3 (s.serai.pending.filter hit)
  let k := getProc s1 pid
  setProc s1 pid { k with tensors := k.tensors.erase tid }

/-- An eviction or deletion starts. -/
def startEvict (s : State) (w0 w1 : Word) : State :=
  later (setSerai s fun r => { r with evicting := r.evicting ++ [(w0, w1)] }) (.evictionDone w0 w1)

/-- A live task of a process? -/
def procBusy (s : State) (pid : Nat) : Bool := s.serai.tasks.cells.any fun e => e.2.pid == pid

/-- Does the tile lie in the request pool of a process with a live task (R309)? -/
def inPool (s : State) (pid key : Nat) : Bool :=
  procBusy s pid && (match (getProc s pid).pool with
    | some b => decide (refIdx b / 65536 ≤ key) && decide (key ≤ (refIdx b + 2 ^ 26 - 1) / 65536)
    | none => false)

/-- Is a context in the way of a step of R243 for some tiles? -/
def anyCtx (s : State) (f : Ctx → Bool) : Bool := (allCtxs s).any f

/-- The entry of a tile of a tensor of a process. -/
def entryOf (s : State) (pid key : Nat) : Nat :=
  match layoutOf s pid (key / 2 ^ 48) with | some l => entryAt s l (key % 2 ^ 48) | none => 0

/-- An EVICT or DELETE ends: no access reads the old frames any more, and they are the driver's. -/
def evictEnd (s : State) (v : Leaving) : State :=
  let s1 := setSerai s fun r => { r with
    evicting := r.evicting.filter fun c => c != (v.w0, v.w1), leaving := r.leaving.filter fun q => q != v }
  let s2 := handFrames s1 v.tiles
  cmdDone (if cmdOp v.w0 = 4 then removeTensor s2 (cmdPid v.w0) (v.w1.toNat % 2 ^ 16) else s2) v.w0 0

/-- Step 4 of R243: every access that looked up an old entry has been performed, or the row comes again. -/
def evictWait (s : State) (v : Leaving) : State :=
  if anyCtx s (stillReads s (cmdPid v.w0) (v.tiles.map (·.1)) (v.tiles.map (·.2.1))) then after s 1 (.evictionDone v.w0 v.w1)
  else evictEnd s v

/-- Steps 2 and 3 of R243; a tile that has come to lie in a live request pool is not evicted (R309). -/
def evictWrite (s : State) (w0 w1 : Word) (fs : List (Nat × Nat)) : State :=
  let pid := cmdPid w0
  if fs.any (fun f => inPool s pid f.1) then
    cmdDone (setSerai s fun r => { r with evicting := r.evicting.filter fun c => c != (w0, w1) }) w0 1
  else
    let v : Leaving := ⟨w0, w1, fs.map fun f => (f.1, f.2, entryOf s pid f.1)⟩
    evictWait (setSerai (writeAbsents s pid fs) fun r => { r with leaving := r.leaving ++ [v] }) v

/-- EVICTION_DONE (R243, R308): the steps of an EVICT or DELETE, in order; a step that must wait lets the row come again. -/
def evictionDone (s : State) (w0 w1 : Word) : State :=
  if !s.serai.evicting.contains (w0, w1) then s
  else match s.serai.leaving.find? fun v => v.w0 == w0 && v.w1 == w1 with
    | some v => evictWait s v
    | none =>
      let fs := evictSet s w0 w1
      if anyCtx s (reachesTiles s (cmdPid w0) (fs.map (·.1)) (fs.map (·.2))) then after s 1 (.evictionDone w0 w1)
      else evictWrite s w0 w1 fs

/-! ### Commands (Table 17.6) -/

/-- A layout record as words 0 to 7 give it, and whether it keeps the rules of Table 10.2 and R239 (of R241 for tensor 0). -/
def readLayout (s : State) (a : Nat) : Layout × Nat :=
  let w := fun i => s.mem.readN (a + 8 * i) 8
  let rank := bitsOf (w 0) 39 38
  let dims := [w 1 % 2 ^ 32, w 1 / 2 ^ 32, w 2 % 2 ^ 32, w 2 / 2 ^ 32]
  let tiles := (List.range 4).map fun i => bitsOf (w 3) (16 * i + 15) (16 * i)
  ({ scale := bitsOf (w 0) 63 48, ro := bitsOf (w 0) 44 44 == 1, elem := bitsOf (w 0) 43 40, rank := rank,
     dims := dims.take (rank + 1), tiles := (tiles.take (rank + 1)).map (· + 1), ttab := w 4 % 2 ^ 48, ntile := w 5 % 2 ^ 48 },
   b2n (bitsOf (w 0) 47 45 == 0 && bitsOf (w 0) 37 0 == 0 && w 4 / 2 ^ 48 == 0 && w 5 / 2 ^ 48 == 0 && w 6 == 0 && w 7 == 0
     && ((dims.drop (rank + 1)).all (· == 1)) && ((tiles.drop (rank + 1)).all (· == 0))))

/-- Number of tiles of a layout. -/
def tileCount (l : Layout) : Nat := (List.zipWith (fun d t => (d + t - 1) / t) l.dims l.tiles).foldl (· * ·) 1

/-- Does a record keep the rules (R238, R239)? -/
def layoutOk (s : State) (a : Nat) : Bool :=
  let r := readLayout s a
  let l := r.1
  let bx := decide (4 ≤ l.elem) && decide (l.elem ≤ 6)
  let last := fun (q : List Nat) => q.getLastD 1
  r.2 == 1 && decide (l.elem ≤ 8) && (if bx then l.scale != 0 else l.scale == 0) && l.dims.all (· != 0)
  && l.ttab % 64 == 0 && decide (l.tiles.foldl (· * ·) 1 * elemHalf l.elem ≤ 131072) && l.ntile == tileCount l
  && (!bx || (last l.dims % 32 == 0 && last l.tiles % 32 == 0))

/-- A record of tensor 0 holds only TTAB, NTILE and RO (R241). -/
def layoutZeroOk (s : State) (a : Nat) : Bool :=
  let w := fun i => s.mem.readN (a + 8 * i) 8
  w 0 / 2 ^ 45 == 0 && w 0 % 2 ^ 44 == 0 && w 1 == 0 && w 2 == 0 && w 3 == 0 && w 4 / 2 ^ 48 == 0 && w 4 % 64 == 0
    && w 5 / 2 ^ 48 == 0 && w 6 == 0 && w 7 == 0

/-- TENSOR (R307): refused for an id in use, an on-chip id, or a record that breaks a rule. -/
def cmdTensor (s : State) (w0 w1 w2 : Word) : State :=
  let pid := cmdPid w0
  let tid := w1.toNat % 2 ^ 16
  let a := w2.toNat % 2 ^ 48
  let k := getProc s pid
  if (k.tensors.find tid).isSome || decide (0xFFF0 ≤ tid) || !(if tid = 0 then layoutZeroOk s a else layoutOk s a) then cmdDone s w0 1
  else cmdDone (setProc s pid { k with tensors := k.tensors.set tid (readLayout s a).1 }) w0 0

/-- A frame of this package that a MAP names leaves the allocator. -/
def takeFrame (s : State) (home f : Nat) : State :=
  if home ≠ pkgNo s then s
  else
    let m := f / 2 ^ 20
    setSerai s fun r => { r with
      taken := if r.taken.contains f then r.taken else r.taken ++ [f]
      freed := r.freed.set m ((r.freed.get [] m).filter (· != f)) }

/-- Steps 2 and 3 of R243 for a MAP: the entry names the frame, and monitors on the evicted tile stand on it. -/
def mapWrite (s : State) (m : Mapping) : State :=
  let key := namedTile m.w1
  match layoutOf s (cmdPid m.w0) (key / 2 ^ 48) with
  | none => s
  | some l =>
    let home := m.w2.toNat / 2 ^ 48 % 2 ^ 8
    let f := m.w2.toNat / 2 ^ 16 % 2 ^ 24
    let ent := 2 ^ 62 + home * 2 ^ 48 + f * 2 ^ 16
    let s1 := moveMonitors (takeFrame s home f) (absentByte (cmdPid m.w0) key 0) (frameOf s ent)
    { s1 with mem := Memory.writeN s1.mem (l.ttab + 8 * (key % 2 ^ 48)) ent 8 }

/-- Step 4 of R243 for a MAP: every access that found the tile non-resident has returned; then the replies are posted (R310). -/
def mapEnd (s : State) (m : Mapping) : State :=
  let pid := cmdPid m.w0
  if anyCtx s (stillMisses pid (namedTile m.w1 / 2 ^ 48)) then setSerai s fun r => { r with mapping := some m }
  else cmdDone (answerTile (setSerai s fun r => { r with mapping := none }) pid (namedTile m.w1) 0) m.w0 0

/-- Does a copy that looked the tile up, or a store or atomic of a shadow of it, hold up step 1 of R243? -/
def mapBlocked (s : State) (m : Mapping) : Bool := anyCtx s (reachesTiles s (cmdPid m.w0) [namedTile m.w1] [])

/-- Has the tile of a MAP become resident while the MAP waited? -/
def mapLate (s : State) (m : Mapping) : Bool := decide (entryOf s (cmdPid m.w0) (namedTile m.w1) / 2 ^ 62 = 1)

/-- A MAP goes through the steps of R243 as far as it can; one whose tile is resident before its step 2 changes nothing (R308). -/
def mapStep (s : State) (m : Mapping) : State :=
  if m.written then mapEnd s m
  else if mapLate s m then cmdDone (setSerai s fun r => { r with mapping := none }) m.w0 2
  else if mapBlocked s m then setSerai s fun r => { r with mapping := some m }
  else mapEnd (mapWrite s m) { m with written := true }

/-- Does a MAP name a frame of a checkpoint area, which only management contexts and the Drover write (R341; log entry 40)? -/
def areaFrame (s : State) (w2 : Word) : Bool :=
  w2.toNat / 2 ^ 48 % 2 ^ 8 == pkgNo s && inArea (w2.toNat / 2 ^ 16 % 2 ^ 24 * 65536)

/-- MAP (R308). -/
def cmdMap (s : State) (w0 w1 w2 : Word) : State :=
  let pid := cmdPid w0
  let key := namedTile w1
  if beingEvicted s pid key || s.serai.mapping.isSome then s
  else match layoutOf s pid (key / 2 ^ 48) with
  | none => cmdDone s w0 1
  | some l =>
    if l.ntile ≤ key % 2 ^ 48 ∨ areaFrame s w2 = true then cmdDone s w0 1
    else if entryAt s l (key % 2 ^ 48) / 2 ^ 62 = 1 then cmdDone s w0 2
    else mapStep s ⟨w0, w1, w2, false⟩

/-- EVICT (R308). -/
def cmdEvict (s : State) (w0 w1 : Word) : State :=
  let pid := cmdPid w0
  let key := namedTile w1
  if beingEvicted s pid key || beingMapped s pid key then s
  else match layoutOf s pid (key / 2 ^ 48) with
  | none => cmdDone s w0 1
  | some l =>
    if l.ntile ≤ key % 2 ^ 48 ∨ inPool s pid key then cmdDone s w0 1
    else if entryAt s l (key % 2 ^ 48) / 2 ^ 62 ≠ 1 then cmdDone s w0 2
    else startEvict s w0 w1

/-- DELETE (R307). -/
def cmdDelete (s : State) (w0 w1 : Word) : State :=
  let pid := cmdPid w0
  let tid := w1.toNat % 2 ^ 16
  if s.serai.evicting.any fun c => cmdPid c.1 == pid && (if cmdOp c.1 = 4 then c.2.toNat % 2 ^ 16 else namedTile c.2 / 2 ^ 48) == tid then s
  else if (layoutOf s pid tid).isNone ∨ (tid = 0 ∧ procBusy s pid ∧ (getProc s pid).pool.isSome) then cmdDone s w0 1
  else startEvict s w0 w1

/-- REFUSE (R310). -/
def cmdRefuse (s : State) (w0 w1 w2 : Word) : State :=
  let pid := cmdPid w0
  let key := namedTile w1
  let st := w2.toNat % 2 ^ 8
  match tensorTiles s pid (key / 2 ^ 48) with
  | none => cmdDone s w0 1
  | some n =>
    if n ≤ key % 2 ^ 48 ∨ st = 0 ∨ 3 < st then cmdDone s w0 1
    else cmdDone (answerTile s pid key st) w0 0

/-- EVACK (R311, R286): an open event is acknowledged; one that was never raised is refused. -/
def cmdEvack (s : State) (w0 w1 : Word) : State :=
  let n : BitVec 32 := w1.setWidth 32
  match s.host.openEvents.find? fun e => e.2 == n with
  | some (src, _) =>
    let s1 := setHost s fun h => { h with openEvents := h.openEvents.filter fun e => e.2 != n }
    let s2 := if src = 0x0C then setSerai s1 fun r => { r with watch := { r.watch with opened := false } } else s1
    cmdDone s2 w0 0
  | none => cmdDone s w0 (if n ≠ 0 ∧ n.toNat < s.serai.evseq.toNat then 2 else 1)

/-- Tiles of the request pool at byte `a` of tensor 0 that are not resident, by key. -/
def poolMissing (s : State) (pid a : Nat) : List Nat :=
  (poolTiles a).filter fun t => entryOf s pid t / 2 ^ 62 != 1

/-- Steps 1 and 4 of R243 for the tiles that a RQPOOL makes resident: does a context hold them up? -/
def poolBlocked (s : State) (m : Mapping) : Bool :=
  if m.written then anyCtx s (stillMisses (cmdPid m.w0) 0)
  else anyCtx s (reachesTiles s (cmdPid m.w0) (poolMissing s (cmdPid m.w0) m.w2.toNat) [])

/-- A RQPOOL goes through the steps of R243 as far as it can (R309). -/
def poolStep (s : State) (m : Mapping) : State :=
  let s1 := if m.written || poolBlocked s m then s else placePool s (cmdPid m.w0) (poolTiles m.w2.toNat)
  let m1 := { m with written := m.written || !poolBlocked s m }
  if poolBlocked s1 m1 then setSerai s1 fun r => { r with mapping := some m1 }
  else cmdDone (setSerai s1 fun r => { r with mapping := none }) m.w0 0

/-- Can a MAP or RQPOOL that waits go on? -/
def mapMoves (s : State) : Bool :=
  s.serai.mapping.any fun m =>
    if cmdOp m.w0 = 7 then !poolBlocked s m
    else if m.written then !anyCtx s (stillMisses (cmdPid m.w0) (namedTile m.w1 / 2 ^ 48)) else mapLate s m || !mapBlocked s m
def mapGoes (s : State) : State :=
  match s.serai.mapping with | some m => if cmdOp m.w0 = 7 then poolStep s m else mapStep s m | none => s

/-- RQPOOL (R309). It is not taken while a tile of tensor 0 of the process is between the steps of R243. -/
def cmdRqpool (s : State) (w0 w2 : Word) : State :=
  let pid := cmdPid w0
  let a := w2.toNat
  let k := getProc s pid
  let fits := match k.tensors.find 0 with | some l => decide (a + 2 ^ 26 ≤ l.ntile * 65536) | none => false
  if s.serai.mapping.isSome || (poolTiles a).any (beingEvicted s pid) then s
  else if a % 4096 ≠ 0 ∨ !fits ∨ (k.pool.isSome ∧ procBusy s pid) then cmdDone s w0 1
  else poolStep (setProc s pid { k with pool := some (mkRef 0 a) }) ⟨w0, 0, w2, false⟩

/-- A command by its OP; one that Table 17.6 does not list is refused. -/
def runCommand (s : State) (w0 w1 w2 : Word) : State :=
  let op := cmdOp w0
  if op = 1 then cmdTensor s w0 w1 w2 else if op = 2 then cmdMap s w0 w1 w2 else if op = 3 then cmdEvict s w0 w1
  else if op = 4 then cmdDelete s w0 w1 else if op = 5 then cmdRefuse s w0 w1 w2 else if op = 6 then cmdEvack s w0 w1
  else if op = 7 then cmdRqpool s w0 w2 else cmdDone s w0 1

/-- The entry at the head of the command ring: words 0 to 2. -/
def headCommand (s : State) : Word × Word × Word :=
  let a := ringEntry s.host.cmdbase 32 s.host.cmdhead.toNat
  let w := fun i => BitVec.ofNat 64 (s.mem.readN (a + 8 * i) 8)
  (w 0, w 1, w 2)

/-- Can the next command be taken? One that acts on tiles waits for the eviction before it (R308). -/
def commandReady (s : State) : Bool :=
  !s.host.cmdstop && s.host.cmdhead != s.host.cmdtail && !storeFull s
    && ((s.serai.evicting.isEmpty && s.serai.mapping.isNone) || decide (6 ≤ cmdOp (headCommand s).1 ∧ cmdOp (headCommand s).1 ≠ 7))

/-- COMMAND_RING_TAKE (R305, R307). -/
def takeCommand (s : State) : State :=
  if !commandReady s then s
  else
    let c := headCommand s
    let hseq : BitVec 32 := c.1.extractLsb' 32 32
    match seqTest s.host.cmdseq hseq with
    | .next => runCommand (setHost s fun h => { h with cmdseq := hseq, cmdhead := h.cmdhead + 1 }) c.1 c.2.1 c.2.2
    | .old => setHost s fun h => { h with cmdhead := h.cmdhead + 1 }
    | .gap =>
      report (setHost s fun h => { h with cmdstop := true }) 0x13 64 ((s.host.cmdseq + 1).setWidth 64) (hseq.setWidth 64)

/-- A write to CMDTAIL (R305). -/
def cmdtailWrite (s : State) (v : Word) : State := setHost s fun h => { h with cmdtail := v.setWidth 32, cmdstop := false }

/-! ### Host transactions (R301, R302, Table 17.1) -/

/-- The register window follows physical memory in the numbering of host addresses. -/
def windowBase : Nat := 2 ^ 40

/-- Queue and register of a window offset. -/
def queueReg (off : Nat) : Option (Nat × Nat) :=
  if 0x1000 ≤ off ∧ off < 0x2000 then some ((off - 0x1000) / 0x40, (off - 0x1000) % 0x40 / 8) else none

/-- A register as a host read returns it; offsets not listed read 0. -/
def windowRead (s : State) (off : Nat) : Word :=
  match queueReg off with
  | some (n, r) =>
    let q := getQueue s n
    if r = 0 then q.base
    else if r = 1 then BitVec.ofNat 64 (q.pid % 2 ^ 16 * 2 ^ 48 + b2n q.held * 128 + b2n q.stop * 8 + q.en % 8)
    else if r = 3 then BitVec.ofNat 64 (b2n (q.en != 0 && !q.held) * 2 ^ 63 + q.head.toNat)
    else if r = 4 then BitVec.ofNat 64 (q.tseq.toNat * 2 ^ 32 + q.hseq.toNat)
    else 0
  | none =>
    let h := s.host
    if off / 8 = 0 then h.cmdbase else if off / 8 = 1 then h.cmdtail.setWidth 64
    else if off / 8 = 2 then BitVec.ofNat 64 (b2n h.cmdstop * 2 ^ 63 + h.cmdseq.toNat)
    else if off / 8 = 3 then h.rpbase.getD 0 else if off / 8 = 4 then h.rphead.setWidth 64
    else if off / 8 = 5 then h.rpack.setWidth 64 else 0

/-- A write to a register; offsets not listed, and read-only registers, ignore it. -/
def windowWrite (s : State) (off : Nat) (v : Word) : State :=
  match queueReg off with
  | some (n, r) => if r = 0 then baseWrite s n v else if r = 1 then ctlWrite s n v else if r = 2 then tailWrite s n v else s
  | none =>
    if off / 8 = 0 then baseWrite s 64 v else if off / 8 = 1 then cmdtailWrite s v
    else if off / 8 = 3 then baseWrite s 65 v else if off / 8 = 5 then rpackWrite s v else s

/-- The old value of a register with `sz` bytes from byte `o` replaced. -/
def mergeBytes (old v : Word) (o sz : Nat) : Word :=
  let m : Word := BitVec.ofNat 64 ((2 ^ (8 * sz) - 1) * 2 ^ (8 * o))
  (old &&& ~~~ m) ||| ((v <<< (8 * o)) &&& m)

/-- What a narrow write leaves in the other bytes: the register as it stands, MQTAIL its accepted TSEQ and its tail. -/
def standing (s : State) (off : Nat) : Word :=
  match queueReg off with
  | some (n, 2) => BitVec.ofNat 64 ((getQueue s n).tseq.toNat * 2 ^ 32 + (getQueue s n).tail.toNat)
  | _ => windowRead s off

/-- A host write of `sz` naturally aligned bytes, performed at its depot or register; a checkpoint area is not the host's to write
(R341). -/
def hostWrite (s : State) (ad sz : Nat) (v : Word) : State :=
  if ad < windowBase ∧ inArea ad then s
  else if ad < windowBase then writeDepots s (cellsOf ad v.toNat sz)
  else windowWrite s (ad - windowBase) (mergeBytes (standing s (ad - windowBase)) v (ad % 8) sz)

/-- A host read: the register, or the depot (R302). -/
def hostRead (s : State) (ad sz : Nat) : State :=
  let v := if ad < windowBase then s.mem.readN ad sz
    else (windowRead s (ad - windowBase)).toNat / 2 ^ (8 * (ad % 8)) % 2 ^ (8 * sz)
  setHost s fun h => { h with readVal := BitVec.ofNat 64 v }

/-- The link carries aligned transactions of 1, 2, 4 or 8 bytes (R301). -/
def carried (ad sz : Nat) : Bool := (sz == 1 || sz == 2 || sz == 4 || sz == 8) && ad % sz == 0

/-! ### The scheduler node (R313) -/

/-- Where an image for entry `i` of queue 63 stands in the queue's ring region: above its entries, 64 KiB for each. -/
def imageAt (q : MQueue) (i : Nat) : Nat := (ringBase q.base + 16 * ringSize q.base + 65535) / 65536 * 65536 + 65536 * (i % ringSize q.base)

def byteCells (a : Nat) : List (BitVec 8) → List (Nat × Byte)
  | [] => []
  | b :: r => (a, b) :: byteCells (a + 1) r

/-- FABRIC_MANIFEST: the image and its entry are written, and the Serai advances the tail; an image above 64 KiB, or one for a full
ring, is not taken. -/
def fabricManifest (s : State) (pid : Nat) (hs : BitVec 32) (img : List (BitVec 8)) : State :=
  let q := getQueue s 63
  if 65536 < img.length ∨ ringSize q.base ≤ (q.tail - q.head).toNat then s
  else
    let a := imageAt q q.tail.toNat
    let e := ringEntry q.base 16 q.tail.toNat
    let s1 := writeDepots s (cellsOf a 0 65536 ++ byteCells a img)
    let s2 := writeDepots s1 (cellsOf e (pid % 2 ^ 16 * 2 ^ 48 + a % 2 ^ 48) 8 ++ cellsOf (e + 8) hs.toNat 8)
    fillHeld (setQueue s2 63 { q with tail := q.tail + 1 })

/-- Free frames of a memory stack: those that the allocator may still hand out. -/
def freeCount (s : State) (m : Nat) : Nat :=
  let n := s.serai.nextFrame.get (if m = 0 then 1 else 0) m
  let top := Config.framesPerStack - Config.areaFrames
  let ahead := s.serai.taken.countP fun f => f / 2 ^ 20 == m && decide (n ≤ f % 2 ^ 20) && decide (f % 2 ^ 20 < top)
  let lo := Nat.max (m * Config.framesPerStack + n) (s.serai.poolBase / 65536)
  let hi := Nat.min (m * Config.framesPerStack + top) (s.serai.poolBase / 65536 + 32 * s.serai.slots)
  top - n - ahead - (hi - lo) + (s.serai.freed.get [] m).length

/-- Tiles of a tensor in an entry state. -/
def countState (s : State) (pid tid st : Nat) : Nat :=
  match layoutOf s pid tid with
  | some l => (List.range l.ntile).countP fun t => entryAt s l t / 2 ^ 62 == st
  | none => 0

/-- A residency report to the node: free frames of each memory stack, then resident, non-resident and unplaced tiles of up to 32
tensors. -/
def residencyReport (s : State) (pid : Nat) (tids : List Nat) : State :=
  let w := (List.range 16).map (freeCount s) ++
    (tids.take 32).flatMap fun t => [countState s pid t 1, countState s pid t 2, countState s pid t 0]
  setHost s fun h => { h with nodeOut := h.nodeOut ++ [w.map (BitVec.ofNat 64)] }

/-- Master cycles of 1 ms at 1,100 MHz. -/
def nodePeriod : Nat := 1100000

/-- RESIDENCY_REPORT_TIMER. -/
def nodeTimer (s : State) : State := setSerai (residencyReport s 0 []) fun r => { r with nodeAt := s.now }

/-- Is the 1 ms timer due, with a port that serves the node (R371)? -/
def nodeDue (s : State) : Bool := s.pkg.fabMode.toNat % 256 != 0 && decide (s.serai.nodeAt + nodePeriod ≤ s.now)

/-! ### Meanings -/

/-- PAGE_REQUEST_SERVICE (R310) -/
def execPageRequestService (s : State) : Host.Outcome State Fault Refusal := .next (servePages s)

/-- HOST_MEMORY_WRITE (R302) -/
def execHostMemoryWrite (ad sz : Nat) (v : Word) (s : State) : Host.Outcome State Fault Refusal :=
  .next (if carried ad sz then hostWrite s ad sz v else s)

/-- HOST_MEMORY_READ (R302) -/
def execHostMemoryRead (ad sz : Nat) (s : State) : Host.Outcome State Fault Refusal :=
  .next (if carried ad sz then hostRead s ad sz else s)

/-- MQTAIL_WRITE (R304) -/
def execMqtailWrite (n : Nat) (v : Word) (s : State) : Host.Outcome State Fault Refusal := .next (tailWrite s n v)

/-- MQCTL_WRITE (R303) -/
def execMqctlWrite (n : Nat) (v : Word) (s : State) : Host.Outcome State Fault Refusal := .next (ctlWrite s n v)

/-- CMDTAIL_WRITE (R305) -/
def execCmdtailWrite (v : Word) (s : State) : Host.Outcome State Fault Refusal := .next (cmdtailWrite s v)

/-- RING_BASE_WRITE (R302) -/
def execRingBaseWrite (rg : Nat) (v : Word) (s : State) : Host.Outcome State Fault Refusal := .next (baseWrite s rg v)

/-- RPACK_WRITE (R311) -/
def execRpackWrite (v : Word) (s : State) : Host.Outcome State Fault Refusal := .next (rpackWrite s v)

/-- MANIFEST_QUEUE_TAKE (R303) -/
def execManifestQueueTake (n : Nat) (s : State) : Host.Outcome State Fault Refusal := .next (takeEntry s n)

/-- QUEUE_SWITCH (R306) -/
def execQueueSwitch (qin qout : Nat) (s : State) : Host.Outcome State Fault Refusal := .next (switchQueues s qin qout)

/-- TENSOR (R307) -/
def execTensor (w0 w1 w2 : Word) (s : State) : Host.Outcome State Fault Refusal := .next (cmdTensor s w0 w1 w2)

/-- MAP (R308) -/
def execMap (w0 w1 w2 : Word) (s : State) : Host.Outcome State Fault Refusal := .next (cmdMap s w0 w1 w2)

/-- EVICT (R308) -/
def execEvict (w0 w1 _w2 : Word) (s : State) : Host.Outcome State Fault Refusal := .next (cmdEvict s w0 w1)

/-- EVICTION_DONE (R308) -/
def execEvictionDone (w0 w1 : Word) (s : State) : Host.Outcome State Fault Refusal := .next (evictionDone s w0 w1)

/-- DELETE (R307) -/
def execDelete (w0 w1 _w2 : Word) (s : State) : Host.Outcome State Fault Refusal := .next (cmdDelete s w0 w1)

/-- REFUSE (R307) -/
def execRefuse (w0 w1 w2 : Word) (s : State) : Host.Outcome State Fault Refusal := .next (cmdRefuse s w0 w1 w2)

/-- EVACK (R307) -/
def execEvack (w0 w1 _w2 : Word) (s : State) : Host.Outcome State Fault Refusal := .next (cmdEvack s w0 w1)

/-- RQPOOL (R309) -/
def execRqpool (w0 _w1 w2 : Word) (s : State) : Host.Outcome State Fault Refusal := .next (cmdRqpool s w0 w2)

/-- REPORT_WRITE (R311) -/
def execReportWrite (s : State) : Host.Outcome State Fault Refusal := .next (writeReport s)

/-- COMMAND_RING_TAKE (R305) -/
def execCommandRingTake (s : State) : Host.Outcome State Fault Refusal := .next (takeCommand s)

/-- FABRIC_MANIFEST (R313) -/
def execFabricManifest (pid : Nat) (hs : BitVec 32) (img : List (BitVec 8)) (s : State) : Host.Outcome State Fault Refusal :=
  .next (fabricManifest s pid hs img)

/-- RESQUERY (R313) -/
def execResquery (pid : Nat) (tids : List Nat) (s : State) : Host.Outcome State Fault Refusal := .next (residencyReport s pid tids)

/-- RESIDENCY_REPORT_TIMER (R313) -/
def execResidencyReportTimer (s : State) : Host.Outcome State Fault Refusal := .next (nodeTimer s)

end Sys2Proof.Machine
end

