-- ==== Sys2Proof/Machine/Mailbox.lean ====
section
/-! DEFINITION. The firmware mailbox and its requests (R318, R321, R322, R330, R331, R346, R364, Table 18.4). -/

namespace Sys2Proof.Machine

/-! ### Taking an entry and ending a request (R321) -/

/-- Firmware has taken the entry of MSEQ `ms`: the progress word names it. -/
def takenMail (s : State) (ms : Nat) : State :=
  let q := BitVec.ofNat 32 ms
  writeDepots (setHost s fun h => { h with mseq := q }) (cellsOf 0x4000 q.toNat 8)

/-- A request ends with its source 0x03 event: status 0 done, 1 refused. -/
def mailDone (ms : Nat) (r : State × Bool) : State :=
  event r.1 0x03 [BitVec.ofNat 64 (ms % 2 ^ 32 * 2 ^ 32 + b2n (!r.2))]

/-! ### Requests on image slots -/

/-- The image that a request names, once its save is over. -/
def savedAt (s : State) (w1 : Word) : Option (Nat × Image) :=
  let sl := w1.toNat % 2 ^ 16
  match s.serai.images.find sl with
  | some i => if i.saving then none else some (sl, i)
  | none => none

/-- Does a pool of `n` slots at `b` reach into a checkpoint area, which only management contexts and the Drover write (R341)? -/
def poolInArea (b n : Nat) : Bool :=
  (List.range 16).any fun d => decide (b < areaBase d + Config.areaFrames * 65536) && decide (areaBase d < b + n * 2 ^ 21)

/-- POOL: accepted once, with a 2 MiB aligned base. -/
def reqPool (s : State) (w1 w2 : Word) : State × Bool :=
  if 0 < s.serai.slots ∨ w1.toNat % 2 ^ 21 ≠ 0 ∨ poolInArea w1.toNat (w2.toNat % 2 ^ 16 + 1) then (s, false)
  else (setSerai s fun r => { r with poolBase := w1.toNat, slots := w2.toNat % 2 ^ 16 + 1 }, true)

/-- Is a context frozen, its save included: with a freezing cause pending? -/
def isFrozen (k : Ctx) : Bool := k.status == .frozen || k.pend.any freezes

/-- PREEMPT: refused on an empty or frozen context (Table 18.4), and before the pool is given (log entry 150). -/
def reqPreempt (s : State) (w1 : Word) : State × Bool :=
  let c := w1.toNat % 2 ^ 11
  let x := w1.toNat / 2 ^ 11 % 4
  let k := getCtx s c x
  if s.serai.slots = 0 ∨ k.status = .free ∨ isFrozen k then (s, false)
  else (askPreempt s c x, true)

/-- Was the claim fault of a fixed task taken at its placement, before any claim was set up (R218)? -/
def placementFault (m : Manifest) (t : Task) (i : Image) : Bool :=
  i.cause == 0x0E && i.ctx.live.claimb == 0 && i.ctx.live.slice == 0
    && (claimOf m.claimts (grainCells m t) != 0 || claimOf m.claimsl (grainCells m t) != 0)

/-- A resumed allowance fault reloads ALLOW from CLAIMCY (R318). -/
def reloadAllow (s : State) (i : Image) : Ctx :=
  if i.cause = 0x0F then
    match ctxTask s i.ctx with
    | some t => (match manifestOf s t.seq with
      | some m => { i.ctx with allow := Nat.min (claimOf m.claimcy (grainCells m t)) (2 ^ 32 - 1) }
      | none => i.ctx)
    | none => i.ctx
  else i.ctx

/-- The saved task is queued again, and sets the WAKEREQ bit of a cluster that is not in STATE 0 (R361); one that faulted at its placement
is placed anew. -/
def resumeImage (s : State) (sl : Nat) (i : Image) : State :=
  let s1 := putImage s sl { i with trapped := false, frozen := false, cause := 0, ctx := { reloadAllow s i with pend := none } }
  match i.task with
  | none => s1
  | some e => match getTask s e with
    | none => s1
    | some t => match manifestOf s t.seq with
      | none => s1
      | some m =>
        if placementFault m t i then
          let s2 := nodesOut (setSerai s1 fun r => { r with images := r.images.erase sl }) m t.core m.levels.length
          queueTask (putTask s2 e { t with st := .waiting, requeues := 0, inNode := false }) e
        else
          let s2 := requeueSaved s1 e sl
          if isMgmt t.core || clusterUp s2 t.cluster then s2 else setWake s2 t.cluster

/-- RESUME: of a TRAPPED image (R318), or of one frozen by cause 0x20 (R330). -/
def reqResume (s : State) (w1 : Word) : State × Bool :=
  match savedAt s w1 with
  | some (sl, i) =>
    if i.trapped || (i.frozen && i.cause == 0x20) then (resumeImage s sl i, true) else (s, false)
  | none => (s, false)

/-- END: the task is aborted and its index fails with cause 2; a saved management context is given up. -/
def reqEnd (s : State) (w1 : Word) : State × Bool :=
  match savedAt s w1 with
  | some (sl, i) =>
    (match i.task with
      | some e => endFixed s e
      | none =>
        let s1 := freeParkedLicence (dropParked s i.core (4 + sl)) i.core (4 + sl)
        setSerai s1 fun r => { r with images := r.images.erase sl }, true)
  | none => (s, false)

/-- A copy engine frozen by a held relay drops the held deliveries, and goes on (R330). -/
def thawEngine (s : State) (c : Nat) : State × Bool :=
  if !(getCore s c).engineFrozen then (s, false)
  else
    let s1 := setCore s c { getCore s c with engineFrozen := false }
    match heldRelay s c with
    | none => (s1, true)
    | some (x, id) => match findCmd (getAny s1 c x) id with
      | none => (s1, true)
      | some q =>
        let out := (q.held.filter fun h => decide (h.2 + 2 ^ 20 ≤ cyclesOf s c)).map (·.1)
        let served := q.served ++ out
        let all := ((List.range 8).filter fun n => (dMask q.desc).testBit n).all fun n => served.contains (c / 8 * 8 + n)
        let s2 := putCmd s1 c x { q with served := served, held := q.held.filter fun h => !out.contains h.1, done := all }
        (if all then later s2 (.copyComplete c x id) else s2, true)

/-- THAW: of a copy engine, named by 0x8000 + its core, or of an image, as END. -/
def reqThaw (s : State) (w1 : Word) : State × Bool :=
  let n := w1.toNat % 2 ^ 16
  if 0x8000 ≤ n ∧ n < 0x8800 then thawEngine s (n - 0x8000) else reqEnd s w1

/-- MOVE: under the rules of R331. -/
def reqMove (s : State) (w1 w2 : Word) : State × Bool :=
  let c := w2.toNat % 2 ^ 11
  match savedAt s w1 with
  | some (sl, i) => if canMove s sl c i (w2.getLsbD 16) then (moveTo s sl c i, true) else (s, false)
  | none => (s, false)

/-- DIERESET (R346). -/
def reqDieReset (s : State) (w1 : Word) : State × Bool :=
  let d := w1.toNat % 2 ^ 4
  if resetRefused s d then (s, false) else (startReset s d, true)

/-! ### Registers (R364) -/

def setRegs : List Nat := [0x140, 0x141, 0x192, 0x193, 0x194, 0x1C0, 0x1C1, 0x1C2, 0x1C4, 0x1C5]
def getRegs : List Nat := setRegs ++ [0x18B, 0x18C, 0x191, 0x1C8, 0x1C9, 0x1CA, 0x1CB, 0x1CC, 0x1CD, 0x1CE, 0x1CF, 0x1D0]

/-- SETREG. -/
def reqSetreg (s : State) (w1 w2 : Word) : State × Bool :=
  let ix := w1.toNat % 2 ^ 10
  if setRegs.contains ix && valueOk ix w2 then (writeReg s ix w2 0 0, true) else (s, false)

/-- The value that GETREG returns; word 3 names the sensor or the die. -/
def getregValue (s : State) (ix : Nat) (w3 : Word) : Option Word :=
  if !getRegs.contains ix then none
  else if ix = 0x191 then
    (if w3.toNat % 2 ^ 9 < 320 then some (thvalWord (s.sensors.get Sensor.reset (w3.toNat % 2 ^ 9))) else none)
  else if ix = 0x18B then some (BitVec.ofNat 64 (boostcap s (w3.toNat % 16)))
  else if ix = 0x18C then some (BitVec.ofNat 64 (getDie s (w3.toNat % 16)).wear)
  else some (crdValue s 2048 0 ix)

/-- GETREG: the value is written into word 2 of the entry before the done event. -/
def reqGetreg (s : State) (ms : Nat) (w1 w3 : Word) : State × Bool :=
  match getregValue s (w1.toNat % 2 ^ 10) w3 with
  | some v => (writeDepots s (cellsOf (ms % 256 * 64 + 16) v.toNat 8), true)
  | none => (s, false)

/-! ### The mailbox (R321) -/

/-- The OP and words 1 to 3 of the entry that firmware looks at. -/
def mailWord (s : State) (i : Nat) : Word := BitVec.ofNat 64 (s.mem.readN (mailEntry s + 8 * i) 8)

/-- A request by its OP; any other is refused (R322). -/
def runMail (s : State) (ms op : Nat) (w1 w2 w3 : Word) : State × Bool :=
  if op = 1 then reqPool s w1 w2 else if op = 2 then reqPreempt s w1 else if op = 3 then reqResume s w1
  else if op = 4 then reqEnd s w1 else if op = 5 then reqThaw s w1 else if op = 6 then reqMove s w1 w2
  else if op = 7 then reqDieReset s w1 else if op = 8 then reqSetreg s w1 w2 else if op = 9 then reqGetreg s ms w1 w3
  else (s, false)

/-- The waiting entry is taken and its request performed. -/
def takeMail (s : State) : State :=
  let ms := (mailSeq s).toNat
  mailDone ms (runMail (takenMail s ms) ms ((mailWord s 0).toNat / 2 ^ 8 % 2 ^ 8) (mailWord s 1) (mailWord s 2) (mailWord s 3))

/-- Is a gap to be reported: an MSEQ that is neither the next nor an older one, and not reported yet? -/
def mailGap (s : State) : Bool := seqTest s.host.mseq (mailSeq s) == .gap && s.host.mgap != some (mailSeq s)

/-- The gap is reported once for its value, with ring number 65. -/
def reportGap (s : State) : State :=
  report (setHost s fun h => { h with mgap := some (mailSeq s) }) 0x13 65 ((s.host.mseq + 1).setWidth 64) ((mailSeq s).setWidth 64)

/-! ### Meanings -/

/-- POOL (R322) -/
def execPool (ms : Nat) (w1 w2 : Word) (s : State) : Host.Outcome State Fault Refusal :=
  .next (mailDone ms (reqPool (takenMail s ms) w1 w2))

/-- PREEMPT (R323) -/
def execPreempt (ms : Nat) (w1 _w2 : Word) (s : State) : Host.Outcome State Fault Refusal :=
  .next (mailDone ms (reqPreempt (takenMail s ms) w1))

/-- RESUME (R318, R330) -/
def execMailboxResume (ms : Nat) (w1 _w2 : Word) (s : State) : Host.Outcome State Fault Refusal :=
  .next (mailDone ms (reqResume (takenMail s ms) w1))

/-- END (R318, R330) -/
def execMailboxEnd (ms : Nat) (w1 _w2 : Word) (s : State) : Host.Outcome State Fault Refusal :=
  .next (mailDone ms (reqEnd (takenMail s ms) w1))

/-- THAW (R330) -/
def execThaw (ms : Nat) (w1 _w2 : Word) (s : State) : Host.Outcome State Fault Refusal :=
  .next (mailDone ms (reqThaw (takenMail s ms) w1))

/-- MOVE (R331) -/
def execMove (ms : Nat) (w1 w2 : Word) (s : State) : Host.Outcome State Fault Refusal :=
  .next (mailDone ms (reqMove (takenMail s ms) w1 w2))

/-- DIERESET (R346) -/
def execDiereset (ms : Nat) (w1 _w2 : Word) (s : State) : Host.Outcome State Fault Refusal :=
  .next (mailDone ms (reqDieReset (takenMail s ms) w1))

/-- SETREG (R364) -/
def execSetreg (ms : Nat) (w1 w2 : Word) (s : State) : Host.Outcome State Fault Refusal :=
  .next (mailDone ms (reqSetreg (takenMail s ms) w1 w2))

/-- GETREG (R364) -/
def execGetreg (ms : Nat) (w1 w3 : Word) (s : State) : Host.Outcome State Fault Refusal :=
  .next (mailDone ms (reqGetreg (takenMail s ms) ms w1 w3))

end Sys2Proof.Machine
end

