-- ==== Sys2Proof/Machine/Thermal.lean ====
section
/-! DEFINITION. The thermal poll: sensor faults, levels, actions, shutdown, wear (R355 to R359). -/

namespace Sys2Proof.Machine

def getSensor (s : State) (n : Nat) : Sensor := s.sensors.get Sensor.reset n
def sensorNos : List Nat := List.range 320

/-! ### Faults (R358) -/

/-- The neighbours of a sensor: the adjacent logical clusters and the twin cluster, or the other regions of a base die. -/
def neighbours (n : Nat) : List Nat :=
  if n < 256 then
    let d := n / 16
    let x := n % 4
    let y := n / 4 % 4
    (if x = 0 then [] else [n - 1]) ++ (if x = 3 then [] else [n + 1]) ++ (if y = 0 then [] else [n - 4])
      ++ (if y = 3 then [] else [n + 4]) ++ [if d % 2 = 0 then n + 16 else n - 16]
  else ((List.range 4).map fun r => n / 4 * 4 + r).filter (· != n)

/-- The largest and the smallest of some values. -/
def top : List Int → Option Int
  | [] => none
  | a :: r => match top r with | some b => some (if b < a then a else b) | none => some a
def bottom : List Int → Option Int
  | [] => none
  | a :: r => match bottom r with | some b => some (if a < b then a else b) | none => some a

/-- By how much a list of readings has changed. -/
def spread (l : List Int) : Int := match top l, bottom l with | some a, some b => a - b | _, _ => 0

/-- FAULT of a sensor, once every sensor holds this poll's reading: 1 stuck, 2 out of range, 3 disagreeing. -/
def faultOf (s : State) (n : Nat) : Nat :=
  let t := getSensor s n
  let k := wf s.pkg.thpol 15 10
  let dis := wf s.pkg.thpol 23 16
  let stuck := k != 0 && (t.hist.take k).length == k && spread (t.hist.take k) == 0
    && (neighbours n).any fun m => decide (16 ≤ spread ((getSensor s m).hist.take k))
  let far := match top ((neighbours n).map fun m => (getSensor s m).raw) with
    | some q => decide ((16 * dis : Int) < (t.raw - q).natAbs)
    | none => false
  if stuck then 1 else if t.raw < -640 ∨ 2400 < t.raw then 2 else if dis != 0 && far then 3 else 0

/-- A sensor's reading is taken. -/
def readSensor (raw : List (BitVec 16)) (t : Sensor) (n : Nat) : Sensor :=
  let r := (raw.getD n 0).toInt
  { t with valid := true, raw := r, hist := (r :: t.hist).take 63 }

/-- A step over sensors in ascending number. -/
def eachSensor (f : State → Nat → Sensor) (s : State) : List Nat → State
  | [] => s
  | n :: r => eachSensor f { s with sensors := s.sensors.set n (f s n) } r

/-- The thresholds of a sensor's kind. -/
def thrOf (s : State) (n : Nat) : Word := if n < 256 then s.pkg.thd else s.pkg.thm

/-- TEMP, SUSPECT and PERSIST, once every FAULT of this poll stands: a faulty sensor takes its hottest sound neighbour and GUARD, or
the TRIP threshold. -/
def settleSensor (s : State) (n : Nat) : Sensor :=
  let t := getSensor s n
  if t.fault = 0 then { t with temp := t.raw, persist := 0 }
  else
    let sound := ((neighbours n).filter fun m => (getSensor s m).fault == 0).map fun m => (getSensor s m).raw
    let v := match top sound with
      | some q => q + 16 * (wf s.pkg.thpol 31 24 : Int)
      | none => 16 * (wf (thrOf s n) 15 8 : Int)
    { t with suspect := true, persist := Nat.min (t.persist + 1) 1023, temp := v }

/-! ### Levels (R356) -/

/-- Threshold and hysteresis of level 1 WARM, 2 HOT, 3 TRIP, in 1/16 °C. -/
def thrPair (w : Word) (k : Nat) : Int × Int :=
  (16 * (wf w (47 - 16 * (k - 1)) (40 - 16 * (k - 1)) : Int), 16 * (wf w (39 - 16 * (k - 1)) (32 - 16 * (k - 1)) : Int))

/-- A level falls while TEMP is below its hysteresis. -/
def fall (w : Word) (t : Int) (up : Nat) : Nat → Nat
  | 0 => 0
  | k + 1 => if up < k + 1 ∧ t ≤ (thrPair w (k + 1)).1 - (thrPair w (k + 1)).2 then fall w t up k else k + 1

/-- The new LEVEL. -/
def newLevel (w : Word) (t : Int) (old : Nat) : Nat :=
  let up := if (thrPair w 3).1 ≤ t then 3 else if (thrPair w 2).1 ≤ t then 2 else if (thrPair w 1).1 ≤ t then 1 else 0
  if old ≤ up then up else fall w t up old

/-- LEVEL of a sensor, and for how many polls it has stood at TRIP. -/
def levelSensor (s : State) (n : Nat) : Sensor :=
  let t := getSensor s n
  let l := newLevel (thrOf s n) t.temp t.level
  { t with level := l, tripPolls := if l = 3 then t.tripPolls + 1 else 0 }

/-! ### Events and actions (R357, R358) -/

def sixteen (t : Int) : Nat := (BitVec.ofInt 16 t).toNat

/-- The payload of a change of level. -/
def levelPayload (n : Nat) (old new : Sensor) : Word :=
  BitVec.ofNat 64 (n * 2 ^ 55 + old.level * 2 ^ 53 + new.level * 2 ^ 51 + sixteen new.temp)

def raiseAll (s : State) (src : Nat) : List Word → State
  | [] => s
  | w :: r => raiseAll (event s src [w]) src r

/-- Management contexts learn of a source 0x08 or 0x09 event (R362). -/
def markTherm (s : State) : State :=
  { s with cores := s.cores.map fun c k => if isMgmt c then { k with ctxs := k.ctxs.map fun _ t => { t with therm := true } } else k }

/-- The events of a poll in the order of their sources (R365): `old` is the state before it. -/
def pollEvents (old s : State) : State :=
  let lv := (sensorNos.filter fun n => (getSensor old n).level != (getSensor s n).level).map fun n =>
    levelPayload n (getSensor old n) (getSensor s n)
  let p := wf s.pkg.thpol 9 0
  let pf := (sensorNos.filter fun n => decide ((getSensor old n).persist < p) && decide (p ≤ (getSensor s n).persist)).map fun n =>
    BitVec.ofNat 64 (n * 2 ^ 55 + (getSensor s n).fault)
  let s1 := raiseAll (raiseAll s 0x08 lv) 0x09 pf
  let s2 := if pf.isEmpty then s1 else raiseReason s1 1 0
  if lv.isEmpty && pf.isEmpty then s2 else markTherm s2

/-! ### Wear (R359) -/

def wearV (mv : Nat) : Nat := if mv ≤ 900 then 0 else if mv ≤ 950 then 1 else if mv ≤ 1000 then 2 else if mv ≤ 1050 then 4 else 8
def wearU (t : Int) : Nat := if t ≤ 960 then 0 else if t ≤ 1200 then 1 else if t ≤ 1440 then 2 else 4

/-- WEAR of a die after a poll. -/
def newWear (s : State) (d : Nat) : Nat :=
  let t := (top ((List.range 16).map fun c => (getSensor s (16 * d + c)).temp)).getD 0
  Nat.min ((getDie s d).wear + wearV (getDie s d).vdie * wearU t) (2 ^ 48 - 1)

/-- The wear step of one die: a fall of BOOSTCAP raises its event, and may lower the clock. -/
def wearDie (s : State) (d : Nat) : State :=
  let s1 := if newWear s d = (getDie s d).wear then s else setDie s d { getDie s d with wear := newWear s d }
  if boostcap s1 d < boostcap s d then
    let s2 := event s1 0x12 [BitVec.ofNat 64 (d * 2 ^ 56 + boostcap s1 d)]
    askClock (if boostcap s1 d = 1100 then raiseReason s2 3 0 else s2) (d / 2)
  else s1

def wearAll (s : State) : List Nat → State
  | [] => s
  | d :: r => wearAll (wearDie s d) r

/-- THERMAL_POLL (R355): faults, then levels, then actions, then wear, each in ascending sensor number; patterns follow the
levels (R352); ten polls at TRIP shut the package down. -/
def poll (s : State) (raw : List (BitVec 16)) : State :=
  let s1 := eachSensor (fun t n => readSensor raw (getSensor t n) n) s sensorNos
  let fs := sensorNos.map fun n => (n, faultOf s1 n)
  let s2 := eachSensor (fun t n => { getSensor t n with fault := (findCell n fs).getD 0 }) s1 sensorNos
  let s3 := eachSensor levelSensor (eachSensor settleSensor s2 sensorNos) sensorNos
  let s4 := patternTick (wearAll (pollEvents s s3) (List.range 16))
  if sensorNos.any fun n => decide (10 ≤ (getSensor s4 n).tripPolls) then { s4 with off := true } else s4

/-- THERMAL_POLL (R355) -/
def execThermalPoll (raw : List (BitVec 16)) (s : State) : Host.Outcome State Fault Refusal := .next (poll s raw)

end Sys2Proof.Machine
end

