-- ==== Sys2Proof/Machine/Fetch.lean ====
section
/-! DEFINITION. The core cycle of one core: fetching, checking and presenting the next bundle, switching contexts, global stalls and the
energy bucket (R9 to R11, R18 to R22, R26, R30, R85 to R89, R207, R208, R374). -/

namespace Sys2Proof.Machine

/-! ### Fetching (R374, R207) -/

/-- The number of a fetched 64-byte line of tensor 0 of a process. -/
def codeLine (k : Ctx) (a : Nat) : Nat := k.pid * 2 ^ 42 + a / 64

/-- A byte of tensor 0 as a fetch reads it: from a line fetched before, else at die scope; none where the tile is not resident. -/
def fetchByte (s : State) (k : Ctx) (a : Nat) : Option Byte :=
  match locate s k (mkRef 0 a) with
  | none => none
  | some (tile, off) => match lookTile s k 0 tile with
    | .resident b => match (myCore s).icache.find (codeLine k a) with
      | some l => some (l.extractLsb' (8 * (a % 64)) 8)
      | none => some (readAt s s.focus 2 (b + off))
    | _ => none

/-- The word at an address of tensor 0. -/
def fetchWord (s : State) (k : Ctx) (a : BitVec 48) : Option Nat :=
  match fetchByte s k a.toNat, fetchByte s k (a + 1).toNat, fetchByte s k (a + 2).toNat, fetchByte s k (a + 3).toNat with
  | some b0, some b1, some b2, some b3 => some (wordOfBytes b0 b1 b2 b3)
  | _, _, _, _ => none

/-- The 64 bytes of a line as a fetch reads them. -/
def readLine (s : State) (k : Ctx) (a : Nat) : BitVec 512 :=
  BitVec.ofNat 512 ((List.range 64).foldl (fun n i => n + ((fetchByte s k (a + i)).getD 0).toNat * 2 ^ (8 * i)) 0)

/-- The base die that a fetched line is asked of, where no cache of the die holds it (R337). -/
def fetchHomes (s : State) (k : Ctx) (a : Nat) : List Nat :=
  match locate s k (mkRef 0 a) with
  | none => []
  | some (tile, off) => match lookTile s k 0 tile with
    | .resident b => farHomes s s.focus 2 [b + off]
    | _ => []

/-- The line of an address joins the instruction cache. -/
def fillLine (s : State) (k : Ctx) (a : Nat) : State :=
  let q := myCore s
  if (q.icache.find (codeLine k a)).isSome || (fetchByte s k a).isNone then s
  else setMyCore (askHomes s (coreEnd s.focus) (.code s.focus (codeLine k a) (readLine s k (a / 64 * 64))) (fetchHomes s k a)) { q with icache := q.icache.set (codeLine k a) (readLine s k (a / 64 * 64)) }

/-- The lines of the words from `a` on. -/
def fillLines (s : State) (k : Ctx) (a : BitVec 48) : Nat → State
  | 0 => s
  | n + 1 => fillLine (fillLines s k a n) k (a + BitVec.ofNat 48 (4 * n)).toNat

/-! ### Stage 1: the shape of a bundle (R9, R10, Table 4.8) -/

/-- The words of a bundle so far: all of them, the operation slots among them, and the LX slots after the last of these. -/
structure Shape where
  words : List Nat
  heads : List Nat
  lx : Nat
  deriving DecidableEq, Repr

/-- Why a bundle is not gathered. -/
inductive BadShape where
  /-- the word at this address cannot be fetched -/
  | unfetched (a : BitVec 48)
  /-- reason, reported slot and its word -/
  | reason (r slot word : Nat)
  deriving DecidableEq, Repr

/-- Slots of a class that a bundle may hold (Table 1.1). -/
def classMax (cls : Nat) : Nat := [2, 1, 2, 1, 1, 2, 2].getD cls 0

/-- The first shape check that the next word fails: reason, slot and word. -/
def shapeFault (g : Shape) (w : Nat) : Option (Nat × Nat × Nat) :=
  let n := g.heads.length
  let prev := g.heads.getLastD 0
  if classOf w = 7 then
    if n = 0 then some (0x06, 0, w)
    else if g.lx = 2 then some (0x07, n - 1, prev)
    else if lastOf w = true ∧ n < 4 then some (0x02, n - 1, prev)
    else none
  else if lastOf w = true ∧ n + 1 < 4 then some (0x02, n, w)
  else if n = 8 then some (0x03, 7, prev)
  else if n ≠ 0 ∧ classOf w < classOf prev then some (0x04, n, w)
  else if classMax (classOf w) ≤ g.heads.countP (fun h => classOf h == classOf w) then some (0x05, n, w)
  else none

def addWord (g : Shape) (w : Nat) : Shape :=
  if classOf w = 7 then { g with words := g.words ++ [w], lx := g.lx + 1 }
  else ⟨g.words ++ [w], g.heads ++ [w], 0⟩

/-- The words of the bundle at `a`, up to the one whose S bit is set; no bundle that passes stage 1 has more than 24. -/
def gather (s : State) (k : Ctx) (a : BitVec 48) : Nat → Shape → Except BadShape (List Nat)
  | 0, g => .ok g.words
  | n + 1, g =>
    match fetchWord s k a with
    | none => .error (.unfetched a)
    | some w => match shapeFault g w with
      | some f => .error (.reason f.1 f.2.1 f.2.2)
      | none => if lastOf w then .ok (addWord g w).words else gather s k (a + 4) n (addWord g w)

/-! ### Stages 2 to 4 (R86, R88, R89) -/

/-- A slot of a bundle: the words from its own on, its position, its instruction. -/
structure Slot where
  words : List Nat
  pos : Nat
  i : Instr
  deriving DecidableEq, Repr

/-- The words from each operation slot on. -/
def suffixes : Nat → List Nat → List (List Nat)
  | 0, _ => []
  | _ + 1, [] => []
  | n + 1, w :: r => (w :: r) :: suffixes n (r.drop (lxWords r))

/-- A state in which a slot is the one in issue. -/
def atSlot (s : State) (ws : List Nat) (pos : Nat) : State := { s with latch := { s.latch with words := ws, slot := pos } }
def Slot.seen (p : Slot) (s : State) : State := atSlot s p.words p.pos

/-- TRAPINFO of Table 4.9. -/
def bundleInfo (reason word : Nat) : Word := BitVec.ofNat 64 (reason % 256 * 2 ^ 32 + word % 2 ^ 32)

/-- The trap of a slot that decodes to nothing: illegal-encoding with its reason, illegal-bundle for an LX with no slot to extend. -/
def undecodedTrap (s : State) (reason : Nat) (pc : BitVec 48) : TrapReq :=
  ⟨if reason = 0x06 then 0x01 else 0x02, s.latch.slot, false, reasonInfo s reason, pc⟩

/-- Stage 2: each slot is decoded and checked in its context's mode. -/
def stage2 (s : State) (pc : BitVec 48) : Nat → List (List Nat) → Except TrapReq (List Slot)
  | _, [] => .ok []
  | n, ws :: r =>
    match decodeWords (me s).vregs ws with
    | .error e => .error (undecodedTrap (atSlot s ws n) e pc)
    | .ok (i, _) => match modeFault (atSlot s ws n) i with
      | some f => .error ⟨f.1, n, false, f.2, pc⟩
      | none => match stage2 s pc (n + 1) r with
        | .ok ps => .ok (⟨ws, n, i⟩ :: ps)
        | .error t => .error t

/-- Destinations that two slots of a bundle may not both name (R11); p15 is one of a slot that writes it for residency (R149). -/
def named (i : Instr) : List Dest :=
  ((slotInfo i).writes ++ if (slotInfo i).p15 then [Dest.p 15] else []).filter fun d => d != Dest.g 0

/-- Stage 3 for one slot, after the slots before it. -/
def stage3Fault (all before : List Slot) (p : Slot) : Option Nat :=
  let f := slotInfo p.i
  let is := before.map (·.i)
  if f.dir ≠ 0 ∧ is.any (fun o => (slotInfo o).dir == f.dir) then some 0x05
  else if f.cls = 6 ∧ is.any (fun o => (slotInfo o).cls == 6 && (slotInfo o).isWaypt == f.isWaypt) then some 0x05
  else if is.any (fun o => (named o).any (named p.i).contains) then some 0x08
  else if f.nonUndo = true ∧ !(all.any fun o => (slotInfo o.i).isWaypt) then some 0x09
  else none

def stage3 (pc : BitVec 48) (all before : List Slot) : List Slot → Option TrapReq
  | [] => none
  | p :: r => match stage3Fault all before p with
    | some e => some ⟨0x01, p.pos, false, bundleInfo e (p.words.headD 0), pc⟩
    | none => stage3 pc all (before ++ [p]) r

/-- Does a scalar store slot of the bundle take an entry of the withheld store buffer? -/
def takesEntry (s : State) (i : Instr) : Bool :=
  isStore i && !guardPending s i && !checksPending s i && lanesOf s i != 0 &&
    match i with
    | .stb _ _ a x | .sth _ _ a x | .stw _ _ a x | .std _ _ a x => reaches s (me s) (scalarRef s a x)
    | _ => true

/-- Stage 4 (R88): the conditions of the slots' own instructions. -/
def stage4 (s : State) (pc : BitVec 48) (extra : Nat) : List Slot → Option TrapReq
  | [] => none
  | p :: r => match ownScan (p.seen s) extra p.i with
    | some f => some ⟨f.1, p.pos, false, f.2, pc⟩
    | none => stage4 s pc (extra + b2n (takesEntry (p.seen s) p.i)) r

/-! ### Presenting a bundle -/

/-- What the bundle of a context meets in a core cycle. -/
inductive Shown where
  /-- the context issues nothing -/
  | nothing
  | fault (t : TrapReq)
  | block (b : Block)
  | wait
  | ready (words : List Nat) (slots : List Slot) (next : BitVec 48)
  deriving DecidableEq, Repr

/-- The test of R85 for a target of a transfer of control: a multiple of 4 after a word whose bit 31 is set.
TRAPCAUSE.SLOT is 0 (log entry 118). -/
def startFault (s : State) (k : Ctx) : Option TrapReq :=
  let x := k.pc
  let address := fun (a : BitVec 48) => some (⟨0x04, 0, false, mkRef 0 a.toNat, x⟩ : TrapReq)
  let illegal := match fetchWord s k x with
    | some w => some (⟨0x01, 0, false, bundleInfo 0x01 w, x⟩ : TrapReq)
    | none => address x
  if x.toNat % 4 ≠ 0 ∨ x.toNat < 4 then illegal
  else match fetchWord s k (x - 4) with
    | none => address (x - 4)
    | some w => if lastOf w then none else illegal

/-- Long loads of the bundle that would exceed the 16 of a context (R17). -/
def loadsFull (s : State) (ps : List Slot) : Bool :=
  let n := ps.countP fun p => longSlot (p.seen s) p.i
  decide (0 < n) && decide (Config.longLoads < (oldLoads s).length + n)

/-- Stores of the bundle that find the buffer full of entries of committed intervals (R23). -/
def storesWait (s : State) (ps : List Slot) : Bool :=
  let n := ps.countP fun p => takesEntry (p.seen s) p.i
  decide (0 < n) && bufferFull s (n - 1) && !(committedEntries (me s)).isEmpty

/-- A bundle that passes every check: what it blocks on, what it waits for, or that it is ready. -/
def settleShown (s : State) (ws : List Nat) (ps : List Slot) : Shown :=
  match ps.findSome? fun p => issueBlock (p.seen s) p.i with
  | some b => .block b
  | none =>
    if loadsFull s ps then .block .load
    else if ps.any (fun p => issueWait (p.seen s) p.i) || storesWait s ps then .wait
    else .ready ws ps ((me s).pc + BitVec.ofNat 48 (4 * ws.length))

/-- The bundle at the pc of the current context. -/
def showBundle (s : State) : Shown :=
  let k := me s
  match (if k.jumped then startFault s k else none) with
  | some t => .fault t
  | none => match gather s k k.pc 25 ⟨[], [], 0⟩ with
    | .error (.unfetched a) => .fault ⟨0x04, 0, false, mkRef 0 a.toNat, k.pc⟩
    | .error (.reason r n w) => .fault ⟨0x01, n, false, bundleInfo r w, k.pc⟩
    | .ok ws => match stage2 s k.pc 0 (suffixes 8 ws) with
      | .error t => .fault t
      | .ok ps => match stage3 k.pc ps [] ps with
        | some t => .fault t
        | none => match stage4 s k.pc 0 ps with
          | some t => .fault t
          | none => settleShown s ws ps

/-- Does a context hold issue: it runs, and no trap of it is to be delivered? -/
def holdsIssue (k : Ctx) : Bool := k.status == .running && k.pend.isNone

/-- What the current context presents: nothing if it does not run; a commit in progress waits, or blocks on a long load (R24); a sleeping
MNAP blocks; so does a restored holder until it has its licence and its matrix state (R278, R299). -/
def present (s : State) : Shown :=
  let k := me s
  if !holdsIssue k then .nothing
  else if k.committing then
    (if !k.handedOver && k.loads.any (fun l => !l.committed && l.handed) then .block .commit else .wait)
  else if k.nap.isSome then .block .nap
  else if k.restoring || (k.licWait && !mine s) then .block .licence
  else showBundle s

/-! ### Choosing a context (R20, R21) -/

/-- A context that was found blocked is asked again; one that yielded is not blocked. -/
def refreshBlock (s : State) (y : Nat) : State :=
  let k := getCtx s s.focus y
  if k.block = .no ∨ !holdsIssue k then s
  else
    let b := match present (seenFrom s s.focus y) with
      | .block .yield => Block.no
      | .block b => b
      | _ => .no
    setCtx s s.focus y { k with block := b }

def refreshBlocks (s : State) : List Nat → State
  | [] => s
  | y :: r => refreshBlocks (if y = curX s then s else refreshBlock s y) r

/-- Does context `a` come before context `b`: priority, then the one that issued least recently? On a tie neither does, and the
lowest number is taken (log entry 114). -/
def ctxBefore (a b : Ctx) : Bool :=
  decide (b.prio < a.prio) || (a.prio == b.prio && decide (a.lastIssue < b.lastIssue))

/-- The context that takes the core, among those that are not blocked. -/
def nextCtx (s : State) : List Nat → Option Nat
  | [] => none
  | y :: r =>
    let k := getCtx s s.focus y
    if y ≠ curX s ∧ holdsIssue k = true ∧ k.block = .no then
      match nextCtx s r with
      | some z => if ctxBefore (getCtx s s.focus z) k then some z else some y
      | none => some y
    else nextCtx s r

def switchTo (s : State) (y : Option Nat) : State :=
  match y with
  | some y => setMyCore s { myCore s with cur := Fin.ofNat 4 y }
  | none => s

/-- A core whose current context has left takes another at once. -/
def takeCurrent (s : State) : State := if holdsIssue (me s) then s else switchTo s (nextCtx s [0, 1, 2, 3])

/-! ### Global stalls (R22) -/

/-- The banks of the v registers that a bundle names (R208). -/
def namedBanks (s : State) (ps : List Slot) : List Nat :=
  let k := me s
  [0, 1, 2, 3].filter fun b => ps.any fun p =>
    let f := slotInfo p.i
    (f.reads ++ f.writes).any fun d => match d with | .v n => (k.vbase + n) / 32 == b | _ => false

/-! ### Settling the core cycle (R30) -/

/-- What busy engines are charged in this core cycle. -/
def engineCharge (s : State) (c : Nat) : Nat :=
  let k := getCore s c
  (match k.mma with | some j => if beatWindow s c then weightOf (profileOf s c) j.e.toNat else 0 | none => 0)
  + (match k.drain with | some j => weightOf (profileOf s c) j.e.toNat | none => 0)

/-- Counts that every core cycle takes: SQLDs in progress (R169), PREDRAIN and saves (R31, R325). -/
def countCycle (s : State) (c : Nat) : State :=
  let k := getCore s c
  setCore s c { k with
    laid := false, cycledAt := s.now
    rbwake := k.rbwake.map fun _ n => n - 1
    sqa := agePend k.sqa, sqb := agePend k.sqb
    ctxs := k.ctxs.map fun _ t => { t with count := t.count - 1 } }

/-- Windows and beats count (R14, R18). -/
def countWindows (s : State) (c : Nat) : State :=
  let k := getCore s c
  let s1 := setCore s c { k with
    ctxs := k.ctxs.map fun _ t => { t with flight := t.flight.map fun f => { f with left := f.left - 1 } }
    mma := k.mma.map fun j => { j with due := beatWindow s c } }
  drainBeat s1 c

/-- The current context's task pays one cycle of its allowance (R225). -/
def countAllow (s : State) : State :=
  let k := me s
  if k.task.isSome && holdsIssue k then setMe s { k with allow := k.allow - 1 } else s

/-- A layover (R30 step 4). -/
def layover (s : State) : State := setMyCore s { myCore s with laycnt := (myCore s).laycnt + 1, laid := true }

/-- A core cycle that issues nothing: engines pay and advance, or the core lays over. -/
def idleCycle (s : State) : State × Bool :=
  let d := engineCharge s s.focus
  if d ≤ (myCore s).ebal then
    (countWindows (countAllow (setMyCore s { myCore s with ebal := (myCore s).ebal - d })) s.focus, true)
  else (layover s, false)

/-- The register that a CRD of the bundle reads, as the cycle begins (R11, R189). -/
def crdOf (s : State) (ps : List Slot) : Option Word :=
  ps.findSome? fun p => match p.i with | .crd _ _ n => some (crdValue s s.focus (curX s) n.toNat) | _ => none

/-- The bundle issues: its slots stand in the issue buffer, in order. -/
def issueBundle (s : State) (crd : Option Word) (ws : List Nat) (next : BitVec 48) : State :=
  let k := me s
  setMe { s with latch := ⟨ws, 0, true, crd, false, next⟩ }
    { k with bpc := k.pc, pc := next, bnext := next, jumped := false, yielded := false, lastIssue := s.now, block := .no }

/-- A ready bundle: a bank in RETAIN is woken first, a stall of at most 40 core cycles; then the bundle and the engines are paid for, or
the core lays over. The slots pay their own weights as they issue. -/
def readyCycle (s : State) (ws : List Nat) (ps : List Slot) (next : BitVec 48) : State :=
  let d := touchBanks s s.focus (namedBanks s ps)
  let s1 := d.1
  if d.2 ≠ 0 then setMyCore s1 { myCore s1 with stall := d.2 - 1 }
  else if engineCharge s1 s.focus + (ps.map fun p => slotWeight s1 s.focus p.i).sum ≤ (myCore s1).ebal then
    issueBundle (idleCycle s1).1 (crdOf s1 ps) ws next
  else layover s1

/-- A trap found at presentation: the bundle at the pc is the one that traps. -/
def faultCycle (s : State) (t : TrapReq) : State :=
  let s1 := (idleCycle s).1
  takeTrap (setMe s1 { me s1 with bpc := (me s1).pc }) s.focus (curX s) t

/-- A blocked bundle: its context stays current if no other is ready, else the core switches; the cycle is lost (R21),
be it a layover too (log entry 115). -/
def blockCycle (s : State) (b : Block) : State :=
  let s1 := (idleCycle (blockEffect s b)).1
  switchTo s1 (nextCtx s1 [0, 1, 2, 3])

/-- Are the cores of a die kept from issuing: from the drain of its warm reset until it replays (Table 19.4)? -/
def issueHeld (s : State) (c : Nat) : Bool :=
  !isMgmt c && decide (2 ≤ (getDie s (dieOf c)).rphase) && decide ((getDie s (dieOf c)).rphase ≤ 4)

/-- A presented bundle leaves its lines in the instruction cache, and its YIELD has no effect from now on (R200); a restored holder's wait
is over once it has its licence. -/
def afterShown (s : State) : State :=
  let k := me s
  if !holdsIssue k || k.committing || k.nap.isSome || k.restoring then s
  else
    let s1 := if k.licWait && mine s then setMe s { k with licWait := false } else s
    if (me s1).licWait then s1
    else
      let s2 := setMe s1 { me s1 with yielded := true }
      match gather s1 k k.pc 25 ⟨[], [], 0⟩ with
      | .ok ws => fillLines s2 k k.pc ws.length
      | .error _ => s2

/-- The core cycle of the core in focus. -/
def coreCycle (s : State) : State :=
  let c := s.focus
  let s0 := countCycle (settleBal s c) c
  if (myCore s0).stall ≠ 0 then setMyCore s0 { myCore s0 with stall := (myCore s0).stall - 1 }
  else if scaleStall s0 c then s0
  else if issueHeld s0 c then (idleCycle s0).1
  else
    let s1 := takeCurrent (refreshBlocks s0 [0, 1, 2, 3])
    let s2 := afterShown s1
    match present s1 with
    | .nothing => (idleCycle s2).1
    | .fault t => faultCycle s2 t
    | .block b => blockCycle s2 b
    | .wait => (idleCycle s2).1
    | .ready ws ps next => readyCycle s2 ws ps next

/-! ### Meanings -/

/-- BUNDLE_FETCH (R374, R21, R30, R86) -/
def execBundleFetch (s : State) : Host.Outcome State Fault Refusal := .next (coreCycle s)

end Sys2Proof.Machine
end

