-- ==== Sys2Proof/Machine/Agenda.lean ====
section
/-! DEFINITION. The rows that the package starts by itself: the row of each due event, and the conditions under which one starts (R17,
R23, R24, R31, R171, R193, R201, R224, R266, R275, R303 to R323, R360, R365). -/

namespace Sys2Proof.Machine

/-- A due event runs as the row of its name. -/
def runDue (d : Due) (s : State) : Host.Outcome State Fault Refusal :=
  match d with
  | .bundleFetch => execBundleFetch s
  | .contextPreemption c x => execContextPreemption c x s
  | .waypointCommit c x => execWaypointCommit c x s
  | .resultLanding c x => execResultLanding c x s
  | .longLoadReturn c x n => execLongLoadReturn c x n s
  | .storePerformed c x => execStorePerformed c x s
  | .monitorArmEstablished c x => execMonitorArmEstablished c x s
  | .mnapWake c x => execMnapWake c x s
  | .mnapTimeout c x => execMnapTimeout c x s
  | .trapDelivery c x => execTrapDelivery c x s
  | .scaleEntryWrite c q => execScaleEntryWrite c q s
  | .matrixBeat c => execMatrixBeat c s
  | .drainComplete c => execDrainComplete c s
  | .copyDelivery c x n => execCopyDelivery c x n s
  | .copyComplete c x n => execCopyComplete c x n s
  | .relayDelivery c x n k => execRelayDelivery c x n k s
  | .relayHoldTimeout c x n => execRelayHoldTimeout c x n s
  | .publSwap c x => execPublSwap c x s
  | .passingGapEnd pr => execPassingGapEnd pr s
  | .zxtMoveDone c x => execZxtMoveDone c x s
  | .parkedRestoreDone c x => execParkedRestoreDone c x s
  | .licmodeTakesEffect pr => execLicmodeTakesEffect pr s
  | .predrainExpiry c x => execPredrainExpiry c x s
  | .prewaitExpiry cl => execPrewaitExpiry cl s
  | .contextSaveDone sl => execContextSaveDone sl s
  | .contextRestore sl => execContextRestore sl s
  | .taskPlacement t c x => execTaskPlacement t c x s
  | .dieClearDone d => execDieClearDone d s
  | .allowExpiry c x => execAllowExpiry c x s
  | .taskRetirement c x => execTaskRetirement c x s
  | .tilePublication t => execTilePublication t s
  | .manifestEntry => execManifestEntry s
  | .dsigApply => execDsigApply s
  | .caravanDecode sq q => execCaravanDecode sq q s
  | .deadlineExpiry sq q => execDeadlineExpiry sq q s
  | .pageRequestService => execPageRequestService s
  | .manifestQueueTake n => execManifestQueueTake n s
  | .queueSwitch i o => execQueueSwitch i o s
  | .reportWrite => execReportWrite s
  | .residencyReportTimer => execResidencyReportTimer s
  | .messageArrival a b sq m => execMessageArrival a b sq m s
  | .gapTimeout a b => execGapTimeout a b s
  | .resendRequest a b sq => execResendRequest a b sq s
  | .cumulativeAck a b sq => execCumulativeAck a b sq s
  | .pairBroken a b => execPairBroken a b s
  | .transitDrainTimeout d => execTransitDrainTimeout d s
  | .dieResetPhase d => execDieResetPhase d s
  | .checkpointCapture d => execCheckpointCapture d s
  | .droverBlockCopy d bk => execDroverBlockCopy d bk s
  | .checkpointCommit d => execCheckpointCommit d s
  | .bankTransitionDone c b => execBankTransitionDone c b s
  | .clockChange st => execClockChange st s
  | .clusterStepDone cl => execClusterStepDone cl s
  | .managementWake c x => execManagementWake c x s
  | .locatedWindowReset => execLocatedWindowReset s
  | .fabricModeChange => execFabricModeChange s
  | .commandRingTake => execCommandRingTake s
  | .evictionDone w0 w1 => execEvictionDone w0 w1 s

/-- What the package does next by itself: a row, or a step of an agent that no row names. -/
inductive Todo where
  | row (d : Due)
  | work (s : State)

def rowIf (b : Bool) (d : Due) : Option Todo := if b then some (.row d) else none
def workIf (b : Bool) (s : State) : Option Todo := if b then some (.work s) else none

/-! ### Contexts -/

/-- Hardware contexts that stand in the tables: core and context. -/
def heldCtxs (s : State) : List (Nat × Nat) := s.cores.cells.flatMap fun c => c.2.ctxs.cells.map fun x => (c.1, x.1)

/-- What a context has to do, one thing at a time: results land, a commit goes on, a trap is delivered, a late fault, a sleeping MNAP,
the allowance, retirement, and the stages of a save. -/
def ctxTodo (s : State) (c x : Nat) : Option Todo :=
  let k := getCtx s c x
  rowIf (k.flight.any fun f => f.left == 0) (.resultLanding c x)
  <|> rowIf (commitMoves s c x) (.waypointCommit c x)
  <|> workIf (k.ghost && k.pend.isSome && !inFlight s c x) (endGhost s c x)
  <|> rowIf (k.stopping && k.pend.isSome && !inFlight s c x) (.trapDelivery c x)
  <|> rowIf ((k.status == .trapped || k.status == .frozen) && k.pend.isSome && (freeSlot s).isSome) (.trapDelivery c x)
  <|> workIf (lateDue s c x) (deliverLate s c x)
  <|> rowIf (preemptDue s c x) (.contextPreemption c x)
  <|> rowIf (k.nap.isSome && k.mon.st != .armed) (.mnapWake c x)
  <|> rowIf (k.nap.isSome && k.mon.st == .armed && decide (k.napEnd ≤ s.now)) (.mnapTimeout c x)
  <|> rowIf (allowOut s c x && (ctxTask s k).isSome) (.allowExpiry c x)
  <|> rowIf (retires s c x) (.taskRetirement c x)
  <|> rowIf (duePub k).isSome (.publSwap c x)
  <|> rowIf (predrainDue k) (.predrainExpiry c x)
  <|> workIf (saveMoves s c x) (advanceSave s c x)

/-! ### Cores, pairs, clusters, dies -/

/-- Does a context that stands on a core, or whose image is tied to it, have a copy command? -/
def relayRuns (s : State) (c : Nat) (k : Core) : Bool :=
  (k.ctxs.cells.any fun x => !x.2.copyq.isEmpty) || (slotsOn s c).any fun e => !e.2.ctx.copyq.isEmpty

/-- What the engines of a core have to do. -/
def coreTodo (s : State) (c : Nat) (k : Core) : Option Todo :=
  let ready := fun (q : ScaleQ) => match q.pend with | e :: _ => e.1 == 0 | [] => false
  ((k.rbwake.cells.find? fun e => e.2 == 0).map fun e => .row (.bankTransitionDone c e.1))
  <|> rowIf (ready k.sqa) (.scaleEntryWrite c false)
  <|> rowIf (ready k.sqb) (.scaleEntryWrite c true)
  <|> rowIf (match k.mma with | some j => j.due | none => false) (.matrixBeat c)
  <|> rowIf (match k.drain with | some j => decide (j.beats ≤ j.u) | none => false) (.drainComplete c)
  <|> (if k.engineFrozen || !relayRuns s c k then none
    else ((heldRelay s c).map fun q => .row (.relayHoldTimeout c q.1 q.2)) <|> workIf (nextStart s c).isSome (startNext s c))

def pairTodo (s : State) (pr : Nat) : Option Todo :=
  let p := getPair s pr
  rowIf (p.st == .passing && p.grantee.isSome && decide (p.gapEnd ≤ s.now)) (.passingGapEnd pr)
  <|> rowIf (modeDue s pr) (.licmodeTakesEffect pr)

/-- Clusters in which a context stands or to whose queues a task belongs. -/
def busyClusters (s : State) : List Nat :=
  (s.serai.tasks.cells.map fun e => e.2.cluster).eraseDups

def clusterTodo (s : State) (k : Nat) : Option Todo :=
  workIf (quiesceHas s k) (quiesceWork s k) <|> rowIf (stepOver s k) (.clusterStepDone k)

/-! ### Image slots and the queues of tasks -/

/-- Can the banks of a run be used, or be asked to turn on? -/
def banksMove (s : State) (c n : Nat) : Bool :=
  match findRegs s c n with
  | none => false
  | some b =>
    let k := getCore s c
    banksOn s c b n || (banksOf b n).any fun i => !((bankSt k i == 0 && !bankMoves k i) || bankWakes k i)

/-- Would a step toward standing on core `c` change anything now: the clearing of its die, or the banks of the run? -/
def coreMoves (s : State) (c pid n : Nat) : Bool :=
  if !mayPass s 16 (coreEnd c) then false
  else if isMgmt c || dieReady s (dieOf c) pid then banksMove s c n else (getDie s (dieOf c)).clearing.isNone

/-- Would a restore change anything now? -/
def restoreMoves (s : State) (sl : Nat) (i : Image) : Bool :=
  let t := match i.task with | some e => getTask s e | none => none
  restorable i && match i.target with
  | some c => !canMove s sl c i true || coreMoves s c i.ctx.pid i.ctx.vregs
  | none => match restoreTarget s sl i with
    | some (c, x) => (match t with | some t => decide (t.notBefore ≤ s.now) && firstInLine s t c x | none => true) && coreMoves s c i.ctx.pid i.ctx.vregs
    | none => allRefuse s sl i &&
        match t with | some t => decide (t.notBefore ≤ s.now) && (!t.fixed || t.refusals == 0) | none => false

def slotTodo (s : State) (sl : Nat) (i : Image) : Option Todo :=
  rowIf (saveEnds s sl) (.contextSaveDone sl)
  <|> rowIf (!i.saving && (duePub i.ctx).isSome) (.publSwap i.core (4 + sl))
  <|> rowIf (restoreMoves s sl i) (.contextRestore sl)

/-- Where a ready task can be placed now: the lowest core and context that it is first in line for. -/
def placeAt (s : State) (t : Task) : Option (Nat × Nat) :=
  match t.st, manifestOf s t.seq with
  | .ready, some m =>
    ((coresOfCluster t.cluster).flatMap fun c => [0, 1, 2, 3].map fun x => (c, x)).find? fun q =>
      placeable s t m q.1 q.2 && firstInLine s t q.1 q.2 &&
        coreMoves s q.1 t.pid m.vregs
  | _, _ => none

/-- Can a task that the Serai holds, or one that waits on a stack excluded since (R368), join a queue now? -/
def heldMoves (s : State) (e : Nat) (t : Task) : Bool :=
  (t.st == .held || (t.st == .ready && excluded s t.stack)) && decide (e < Config.depEntries) && match manifestOf s t.seq with
    | some m => (match chooseStack s m t e with | some k => !excluded s k && (chooseCluster s m k).isSome | none => false)
    | none => false

def taskTodo (s : State) (e : Nat) (t : Task) : Option Todo :=
  workIf (heldMoves s e t) (queueTask s e)
  <|> (placeAt s t).map fun q => .row (.taskPlacement e q.1 q.2)

/-! ### The host link and firmware -/

def hostTodo (s : State) : Option Todo :=
  ((queueNos.find? (entryReady s)).map fun n => .row (.manifestQueueTake n))
  <|> ((switchDue s).map fun q => .row (.queueSwitch q.1 q.2))
  <|> workIf (mapMoves s) (mapGoes s)
  <|> rowIf (commandReady s) .commandRingTake
  <|> rowIf (canWriteReport s) .reportWrite
  <|> workIf (mailGap s) (reportGap s)
  <|> rowIf (nodeDue s) .residencyReportTimer

/-! ### The agenda -/

/-- The first thing to do in this master cycle before the core cycles. -/
def agenda (s : State) : Option Todo :=
  ((heldCtxs s).findSome? fun q => ctxTodo s q.1 q.2)
  <|> (s.cores.cells.findSome? fun c => coreTodo s c.1 c.2)
  <|> (s.pairs.cells.findSome? fun p => pairTodo s p.1)
  <|> (s.clusters.cells.findSome? fun k => clusterTodo s k.1)
  <|> rowIf (windowDue s) .locatedWindowReset
  <|> ((List.range 16).findSome? fun d => rowIf (captureDue s d) (.checkpointCapture d))
  <|> ((List.range 16).findSome? fun d => (replayNext s d).map Todo.work)
  <|> (s.links.cells.findSome? fun e => (ackDue s (e.1 % 65536) e.2).map fun n =>
        .row (.cumulativeAck (e.1 / 65536) (e.1 % 65536) n))
  <|> (s.serai.tasks.cells.findSome? fun e => taskTodo s e.1 e.2)
  <|> (s.serai.images.cells.findSome? fun e => slotTodo s e.1 e.2)
  <|> ((busyClusters s).findSome? fun k => rowIf (prewaitVictim s k).isSome (.prewaitExpiry k))
  <|> hostTodo s

/-- A licence released in this master cycle, whose next grantee is chosen now that the cycle's requests are in (R276). -/
def choiceTodo (s : State) : Option Todo :=
  s.pairs.cells.findSome? fun p => workIf p.2.choose.isSome (licDecide s p.1)

/-- A management context that sleeps and has something to wake it (R362). -/
def wakeTodo (s : State) : Option Todo :=
  (heldCtxs s).findSome? fun q => rowIf ((getCtx s q.1 q.2).status == .asleep && wakeHolds s q.1 q.2) (.managementWake q.1 q.2)

/-- Of the retired tasks that can publish or finish now, the one on the lowest core (R224). -/
def lowestCore : List (Nat × Task) → Option (Nat × Task)
  | [] => none
  | e :: r => match lowestCore r with
    | some o => if o.2.core < e.2.core then some o else some e
    | none => some e

/-- Completions of a master cycle are processed as it ends, in ascending global core number (R38, R224). -/
def doneTodo (s : State) : Option Todo :=
  (lowestCore (s.serai.tasks.cells.filter fun e => pubMoves s e.1)).map fun e => .row (.tilePublication e.1)

/-- A norm-jump report that has still to reach the record (R285). -/
def reportTodo (s : State) : Option Todo := workIf (!s.serai.normq.isEmpty) (takeReport s)

/-- A caravan whose decoder acts at the end of this master cycle (R265). -/
def caravanTodo (s : State) : Option Todo :=
  workIf (!s.serai.groupsIn.isEmpty) (takeGroup s)
  <|> workIf (waitingDecodes s != s.serai.decq) (setSerai s fun r => { r with decq := waitingDecodes s })
  <|> s.serai.caravans.cells.findSome? fun e =>
    match manifestOf s e.2.seq with
    | some m => let v := e.1 % 2 ^ 32
      rowIf (caravanDue s m v e.2) (.caravanDecode m.seq.toNat v)
    | none => none

/-! ### Stamping (R365, R202) -/

/-- An event of the Serai with the replace requests that follow it directly. -/
abbrev RaisedRun := Nat × List (Nat × Bool × List Word)

/-- A replace request joins the frozen-master event or the wear step that caused it (R366, R367); any other event stands alone. -/
def joinRaised (l : List RaisedRun) (e : Nat × Bool × List Word) : List RaisedRun :=
  match l.getLast? with
  | some g => if e.1 = 0x10 ∧ (g.1 = 0x02 ∨ g.1 = 0x12) then l.dropLast ++ [(g.1, g.2 ++ [e])] else l ++ [(e.1, [e])]
  | none => [(e.1, [e])]

/-- Runs in stable ascending order of their source. -/
def insertRaised (e : RaisedRun) : List RaisedRun → List RaisedRun
  | [] => [e]
  | f :: r => if f.1 ≤ e.1 then f :: insertRaised e r else e :: f :: r

/-- The Serai's events in ascending source code, each replace request after the event that caused it (R365, R367). -/
def sortRaised (l : List (Nat × Bool × List Word)) : List (Nat × Bool × List Word) :=
  ((l.foldl joinRaised []).foldl (fun a e => insertRaised e a) []).flatMap (·.2)

def stampAll (s : State) : List (Nat × Bool × List Word) → State
  | [] => s
  | e :: r => stampAll (stampEvent s e.1 e.2.1 e.2.2) r

/-- Does event `f` come from the context of `e`, and before it in program order? -/
def evBefore (f e : EvItem) : Bool := senderOf f.task f.core f.x == senderOf e.task e.core e.x && decide (f.place < e.place)

/-- Can a program event be stamped: the stores before it are performed, and no earlier one of its context waits in any die's queue? -/
def evReady (s : State) (all : List EvItem) (e : EvItem) : Bool :=
  storesDone s e.task e.core e.x e.place && mayPass s (coreEnd e.core) 16 && !all.any fun f => evBefore f e

/-- The event of the lowest core. -/
def lowestEv : List EvItem → Option EvItem
  | [] => none
  | e :: r => match lowestEv r with
    | some f => if f.core < e.core then some f else some e
    | none => some e

def removeEv (e : EvItem) : List EvItem → List EvItem
  | [] => []
  | f :: r => if f = e then r else f :: removeEv e r

/-- Up to `n` of these events in the order in which they are stamped: ascending core number, those of one context in program order. -/
def evOrder (s : State) (all : List EvItem) : Nat → List EvItem
  | 0 => []
  | n + 1 => match lowestEv (all.filter (evReady s all)) with
    | some e => e :: evOrder s (removeEv e all) n
    | none => []

/-- The program events to stamp now. -/
def evsDue (s : State) : List EvItem :=
  let all := s.dies.cells.flatMap fun d => d.2.evq
  evOrder s all all.length

/-- One program event is stamped, its context's writes at package scope first. -/
def stampEv (s : State) (e : EvItem) : State :=
  let s1 := carry (toPackage s e.core) (coreEnd e.core) 16 .plain
  let d := getDie s1 (dieOf e.core)
  stampEvent (setDie s1 (dieOf e.core) { d with evq := removeEv e d.evq }) 0x0E false e.words

def stampEvs (s : State) : List EvItem → State
  | [] => s
  | e :: r => stampEvs (stampEv s e) r

/-- The end of a master cycle: what it raised is stamped, the Serai's events first, then those of the cores. -/
def stampCycle (s : State) : State :=
  let s1 := stampAll (setSerai s fun r => { r with raised := [] }) (sortRaised s.serai.raised)
  stampEvs s1 (evsDue s1)

/-- Firmware takes a mailbox entry once the contexts that it wakes have seen it (R321, R362). -/
def mailTodo (s : State) : Option Todo := workIf (mailWaiting s) (takeMail s)

end Sys2Proof.Machine
end

