-- ==== Sys2Proof/Machine/Clock.lean ====
section
/-! DEFINITION. What a step does: the slots of the bundle in issue, inputs, due events, the agenda, the core cycles of the master cycle,
and the passing of the master cycle (R8, R30, R352). -/

namespace Sys2Proof.Machine

/-- What a step does. -/
inductive Turn where
  /-- an operation slot, or an event from outside -/
  | row (i : Instr) (s : State)
  /-- a row that the package starts itself -/
  | due (d : Due) (s : State)
  /-- a step of an agent that no row names, or the passing of a master cycle -/
  | work (s : State)
  | stopped (f : Fault)

/-- The first event that is due, and the others. -/
def dueTimer (now : Nat) : List (Nat × Due) → Option (Due × List (Nat × Due))
  | [] => none
  | t :: r =>
    if t.1 ≤ now then some (t.2, r)
    else match dueTimer now r with
      | some q => some (q.1, t :: q.2)
      | none => none

/-- Is a slot of a bundle to issue in this step? -/
def slotDue (s : State) : Bool := !s.latch.words.isEmpty && !s.latch.hold

/-- The slot at the head of the issue buffer. One that decodes to nothing traps. -/
def slotTurn (s : State) : Turn :=
  match decodeWords (me s).vregs s.latch.words with
  | .ok (i, _) => .row i s
  | .error r => .work (takeTrap s s.focus (curX s) (undecodedTrap s r (me s).bpc))

/-- An event of the input script; only events come from outside. -/
def inputTurn (s : State) (i : Instr) (rest : List (Nat × Instr)) : Turn :=
  if (slotInfo i).cls = 8 then .row i { s with inputs := rest } else .work { s with inputs := rest }

/-- With every clock off, nothing but a package reset acts (R357). -/
def offTurn (s : State) : Turn :=
  match s.inputs with
  | (_, .packageReset) :: rest => .row .packageReset { s with inputs := rest }
  | _ :: rest => .work { s with inputs := rest }
  | [] => .stopped .packageOff

/-- A thing of the agenda as a turn. -/
def todoTurn (t : Todo) (s : State) : Turn := match t with | .row d => .due d s | .work u => .work u

/-- One master cycle passes (R8): a slot that waited is presented again, clock patterns change at multiples of sixteen, and each core
with a pulse settles its core cycle. -/
def tick (s : State) : State :=
  let s1 := patternTick { s with
    now := s.now + 1
    latch := { s.latch with hold := false }
    inputs := match s.inputs with | (n, i) :: r => (n - 1, i) :: r | [] => [] }
  { s1 with turns := if s1.latch.words.isEmpty then (s1.cores.cells.filter fun c => coreActive c.2 && pulse s1 c.1).map (·.1) else [] }

/-- The turns of a master cycle after its inputs and due events; what it raised is stamped as it ends, once (R365). -/
def cycleTurn (s : State) : Turn :=
  match agenda s with
  | some t => todoTurn t s
  | none => match s.turns with
    | c :: r => .due .bundleFetch { s with focus := c, turns := r }
    | [] => match choiceTodo s <|> doneTodo s <|> reportTodo s <|> caravanTodo s <|> wakeTodo s <|> mailTodo s with
      | some t => todoTurn t s
      | none => .work (tick (stampCycle s))

/-- The model's step counter goes on, but for the slots of a bundle that was checked as one. -/
def stepCount (s : State) : State := if slotDue s && s.latch.checked then s else { s with fresh := s.fresh + 1 }

/-- The turn after this state. -/
def nextTurn (s0 : State) : Turn :=
  let s := stepCount s0
  if slotDue s then slotTurn s
  else if s.off then offTurn s
  else match s.inputs with
    | (0, i) :: r => inputTurn s i r
    | _ => match dueTimer s.now s.timers with
      | some (d, r) => .due d { s with timers := r }
      | none => cycleTurn s

end Sys2Proof.Machine
end

