-- ==== Sys2Proof/Machine/Control.lean ====
section
/-! DEFINITION. Branches and loops (R124 to R127). -/

namespace Sys2Proof.Machine

/-- Control goes to `target`: the next bundle of the context is presented there, after the test of R85. -/
def jumpTo (s : State) (target : BitVec 48) : State := setMe s { me s with pc := target, jumped := true }

/-- The address `n` words from the first slot of the bundle in issue (R48). -/
def relTarget (s : State) (n : Word) : BitVec 48 := (me s).bpc + (n.setWidth 48) * 4

/-- The link: the address of the bundle after this one. -/
def linkVal (s : State) : Word := s.latch.next.setWidth 64

/-- BR (R124) -/
def execBr (h : TH) (x : BitVec 15) (s : State) : Host.Outcome State Fault Refusal :=
  runSlot (.br h x) (fun s => jumpTo s (relTarget s (x.signExtend 64))) s

/-- BRL (R124) -/
def execBrl (h : TH) (x : BitVec 15) (s : State) : Host.Outcome State Fault Refusal :=
  runSlot (.brl h x) (fun s => putG (jumpTo s (relTarget s (x.signExtend 64))) 1 (linkVal s) 1) s

/-- JR (R125) -/
def execJr (h : TH) (a : Reg) (s : State) : Host.Outcome State Fault Refusal :=
  runSlot (.jr h a) (fun s => jumpTo s ((readG s a).setWidth 48)) s

/-- JRL (R125) -/
def execJrl (h : TH) (a : Reg) (s : State) : Host.Outcome State Fault Refusal :=
  runSlot (.jrl h a) (fun s => putG (jumpTo s ((readG s a).setWidth 48)) 1 (linkVal s) 1) s

/-- One turn of LOOP (R126): the count is written back, and a positive count goes back. -/
def loopTurn (s : State) (d : Reg) (i : Imm) : State :=
  let n := readG s d - 1
  let s1 := putG s d n 1
  if (0 : Word).slt n then jumpTo s1 (relTarget s i.sval) else s1

/-- LOOP (R126) -/
def execLoop (h : TH) (d : Reg) (i : Imm) (s : State) : Host.Outcome State Fault Refusal :=
  runSlot (.loop h d i) (fun s => loopTurn s d i) s

end Sys2Proof.Machine
end

