-- ==== Sys2Proof/Machine/Scalar.lean ====
section
/-! DEFINITION. The scalar ALU instructions (R95 to R106): each result is decided by its source registers at issue. -/

namespace Sys2Proof.Machine

/-! ### Values -/

/-- Bits 127:64 of the signed product (R95). -/
def mulHigh (a b : Word) : Word := (a.signExtend 128 * b.signExtend 128).extractLsb' 64 64
/-- Bits 127:64 of the unsigned product (R95). -/
def mulHighU (a b : Word) : Word := (a.setWidth 128 * b.setWidth 128).extractLsb' 64 64

/-- The signed quotient, toward zero; all ones for a zero divisor (R56, Table 3.1). -/
def divS (a b : Word) : Word := if b = 0 then BitVec.allOnes 64 else a.sdiv b
/-- The unsigned quotient; all ones for a zero divisor. -/
def divU (a b : Word) : Word := if b = 0 then BitVec.allOnes 64 else a / b
/-- The signed remainder, of the dividend's sign; the dividend for a zero divisor. -/
def remS (a b : Word) : Word := if b = 0 then a else a.srem b
/-- The unsigned remainder; the dividend for a zero divisor. -/
def remU (a b : Word) : Word := if b = 0 then a else a % b

/-- A shift count: bits 5:0 (R98). -/
def cnt6 (b : Word) : Nat := b.toNat % 64

/-- Leading zero bits among the lowest `n` bits (R99). -/
def leadZeros (a : Word) : Nat → Nat
  | 0 => 0
  | n + 1 => if a.getLsbD n then 0 else 1 + leadZeros a n

/-- Trailing zero bits among the `n` bits from bit `i` on (R99). -/
def trailZeros (a : Word) (i : Nat) : Nat → Nat
  | 0 => 0
  | n + 1 => if a.getLsbD i then 0 else 1 + trailZeros a (i + 1) n

/-- One bits among the lowest `n` bits (R99, R105). -/
def countOnes {w : Nat} (a : BitVec w) : Nat → Nat
  | 0 => 0
  | n + 1 => countOnes a n + b2n (a.getLsbD n)

/-- WID of a bit-field immediate: 0 and 65 to 127 mean 64 (Table 5.3). -/
def fieldWidth (i : Word) : Nat :=
  let w := i.toNat / 64 % 128
  if w = 0 ∨ 64 < w then 64 else w

/-- `w` ones. -/
def onesMask (w : Nat) : Word := BitVec.ofNat 64 (2 ^ w - 1)

/-- The bits of the field `[POS, POS + WID)`, cut at bit 63. -/
def fieldMask (i : Word) : Word := onesMask (fieldWidth i) <<< cnt6 i

def bextVal (a i : Word) : Word := (a >>> cnt6 i) &&& onesMask (fieldWidth i)
def binsVal (d a i : Word) : Word := (d &&& ~~~ fieldMask i) ||| ((a <<< cnt6 i) &&& fieldMask i)

/-- The width of SEXT and ZEXT: 0 and above 64 mean 64 (R101). -/
def extWidth (i : Word) : Nat :=
  let w := i.toNat % 128
  if w = 0 ∨ 64 < w then 64 else w

def zextVal (a i : Word) : Word := a &&& onesMask (extWidth i)
def sextVal (a i : Word) : Word :=
  if a.getLsbD (extWidth i - 1) then a ||| ~~~ onesMask (extWidth i) else a &&& onesMask (extWidth i)

/-- What a compare writes: all ones or all zeros, in every lane (R33, R104). -/
def boolPred (b : Bool) : Pred := if b then allLanes else 0

/-- The predicate a SEL chooses by (R102). -/
def selBit (s : State) (h : TH) : Bool := (readP s h.pg).getLsbD 0 != h.pn

/-! ### Meanings -/

/-- ADD (R95) -/
def execAdd (h : TH) (d a b : Reg) (s : State) : Host.Outcome State Fault Refusal :=
  runSlot (.add h d a b) (fun s => putG s d (readG s a + readG s b) 1) s

/-- SUB (R95) -/
def execSub (h : TH) (d a b : Reg) (s : State) : Host.Outcome State Fault Refusal :=
  runSlot (.sub h d a b) (fun s => putG s d (readG s a - readG s b) 1) s

/-- ADDI (R95) -/
def execAddi (h : TH) (d a : Reg) (i : Imm) (s : State) : Host.Outcome State Fault Refusal :=
  runSlot (.addi h d a i) (fun s => putG s d (readG s a + i.sval) 1) s

/-- MUL (R95) -/
def execMul (h : TH) (d a b : Reg) (s : State) : Host.Outcome State Fault Refusal :=
  runSlot (.mul h d a b) (fun s => putG s d (readG s a * readG s b) 3) s

/-- MULH (R95) -/
def execMulh (h : TH) (d a b : Reg) (s : State) : Host.Outcome State Fault Refusal :=
  runSlot (.mulh h d a b) (fun s => putG s d (mulHigh (readG s a) (readG s b)) 3) s

/-- MULHN (R95) -/
def execMulhn (h : TH) (d a b : Reg) (s : State) : Host.Outcome State Fault Refusal :=
  runSlot (.mulhn h d a b) (fun s => putG s d (mulHighU (readG s a) (readG s b)) 3) s

/-- DIV (R96) -/
def execDiv (h : TH) (d a b : Reg) (s : State) : Host.Outcome State Fault Refusal :=
  runSlot (.div h d a b) (fun s => putG s d (divS (readG s a) (readG s b)) 20) s

/-- DIVN (R96) -/
def execDivn (h : TH) (d a b : Reg) (s : State) : Host.Outcome State Fault Refusal :=
  runSlot (.divn h d a b) (fun s => putG s d (divU (readG s a) (readG s b)) 20) s

/-- REM (R96) -/
def execRem (h : TH) (d a b : Reg) (s : State) : Host.Outcome State Fault Refusal :=
  runSlot (.rem h d a b) (fun s => putG s d (remS (readG s a) (readG s b)) 20) s

/-- REMN (R96) -/
def execRemn (h : TH) (d a b : Reg) (s : State) : Host.Outcome State Fault Refusal :=
  runSlot (.remn h d a b) (fun s => putG s d (remU (readG s a) (readG s b)) 20) s

/-- AND (R97) -/
def execAnd (h : TH) (d a b : Reg) (s : State) : Host.Outcome State Fault Refusal :=
  runSlot (.and h d a b) (fun s => putG s d (readG s a &&& readG s b) 1) s

/-- OR (R97) -/
def execOr (h : TH) (d a b : Reg) (s : State) : Host.Outcome State Fault Refusal :=
  runSlot (.or h d a b) (fun s => putG s d (readG s a ||| readG s b) 1) s

/-- XOR (R97) -/
def execXor (h : TH) (d a b : Reg) (s : State) : Host.Outcome State Fault Refusal :=
  runSlot (.xor h d a b) (fun s => putG s d (readG s a ^^^ readG s b) 1) s

/-- ANDN (R97) -/
def execAndn (h : TH) (d a b : Reg) (s : State) : Host.Outcome State Fault Refusal :=
  runSlot (.andn h d a b) (fun s => putG s d (readG s a &&& ~~~ readG s b) 1) s

/-- ANDI (R97) -/
def execAndi (h : TH) (d a : Reg) (i : Imm) (s : State) : Host.Outcome State Fault Refusal :=
  runSlot (.andi h d a i) (fun s => putG s d (readG s a &&& i.zval) 1) s

/-- ORI (R97) -/
def execOri (h : TH) (d a : Reg) (i : Imm) (s : State) : Host.Outcome State Fault Refusal :=
  runSlot (.ori h d a i) (fun s => putG s d (readG s a ||| i.zval) 1) s

/-- XORI (R97) -/
def execXori (h : TH) (d a : Reg) (i : Imm) (s : State) : Host.Outcome State Fault Refusal :=
  runSlot (.xori h d a i) (fun s => putG s d (readG s a ^^^ i.zval) 1) s

/-- SHL (R98) -/
def execShl (h : TH) (d a b : Reg) (s : State) : Host.Outcome State Fault Refusal :=
  runSlot (.shl h d a b) (fun s => putG s d (readG s a <<< cnt6 (readG s b)) 1) s

/-- SHR (R98) -/
def execShr (h : TH) (d a b : Reg) (s : State) : Host.Outcome State Fault Refusal :=
  runSlot (.shr h d a b) (fun s => putG s d (readG s a >>> cnt6 (readG s b)) 1) s

/-- SHA (R98) -/
def execSha (h : TH) (d a b : Reg) (s : State) : Host.Outcome State Fault Refusal :=
  runSlot (.sha h d a b) (fun s => putG s d ((readG s a).sshiftRight (cnt6 (readG s b))) 1) s

/-- SHLI (R98) -/
def execShli (h : TH) (d a : Reg) (i : Imm) (s : State) : Host.Outcome State Fault Refusal :=
  runSlot (.shli h d a i) (fun s => putG s d (readG s a <<< cnt6 i.zval) 1) s

/-- SHRI (R98) -/
def execShri (h : TH) (d a : Reg) (i : Imm) (s : State) : Host.Outcome State Fault Refusal :=
  runSlot (.shri h d a i) (fun s => putG s d (readG s a >>> cnt6 i.zval) 1) s

/-- SHAI (R98) -/
def execShai (h : TH) (d a : Reg) (i : Imm) (s : State) : Host.Outcome State Fault Refusal :=
  runSlot (.shai h d a i) (fun s => putG s d ((readG s a).sshiftRight (cnt6 i.zval)) 1) s

/-- ROT (R98) -/
def execRot (h : TH) (d a b : Reg) (s : State) : Host.Outcome State Fault Refusal :=
  runSlot (.rot h d a b) (fun s => putG s d ((readG s a).rotateLeft (cnt6 (readG s b))) 1) s

/-- MIN (R99) -/
def execMin (h : TH) (d a b : Reg) (s : State) : Host.Outcome State Fault Refusal :=
  runSlot (.min h d a b) (fun s => putG s d (if (readG s b).slt (readG s a) then readG s b else readG s a) 1) s

/-- MAX (R99) -/
def execMax (h : TH) (d a b : Reg) (s : State) : Host.Outcome State Fault Refusal :=
  runSlot (.max h d a b) (fun s => putG s d (if (readG s a).slt (readG s b) then readG s b else readG s a) 1) s

/-- MINN (R99) -/
def execMinn (h : TH) (d a b : Reg) (s : State) : Host.Outcome State Fault Refusal :=
  runSlot (.minn h d a b) (fun s => putG s d (if (readG s b).ult (readG s a) then readG s b else readG s a) 1) s

/-- MAXN (R99) -/
def execMaxn (h : TH) (d a b : Reg) (s : State) : Host.Outcome State Fault Refusal :=
  runSlot (.maxn h d a b) (fun s => putG s d (if (readG s a).ult (readG s b) then readG s b else readG s a) 1) s

/-- ABS (R99) -/
def execAbs (h : TH) (d a : Reg) (s : State) : Host.Outcome State Fault Refusal :=
  runSlot (.abs h d a) (fun s => putG s d (if (readG s a).slt 0 then -(readG s a) else readG s a) 1) s

/-- CLZ (R99) -/
def execClz (h : TH) (d a : Reg) (s : State) : Host.Outcome State Fault Refusal :=
  runSlot (.clz h d a) (fun s => putG s d (BitVec.ofNat 64 (leadZeros (readG s a) 64)) 1) s

/-- CTZ (R99) -/
def execCtz (h : TH) (d a : Reg) (s : State) : Host.Outcome State Fault Refusal :=
  runSlot (.ctz h d a) (fun s => putG s d (BitVec.ofNat 64 (trailZeros (readG s a) 0 64)) 1) s

/-- POPC (R99) -/
def execPopc (h : TH) (d a : Reg) (s : State) : Host.Outcome State Fault Refusal :=
  runSlot (.popc h d a) (fun s => putG s d (BitVec.ofNat 64 (countOnes (readG s a) 64)) 1) s

/-- BEXT (R100) -/
def execBext (h : TH) (d a : Reg) (i : Imm) (s : State) : Host.Outcome State Fault Refusal :=
  runSlot (.bext h d a i) (fun s => putG s d (bextVal (readG s a) i.zval) 1) s

/-- BINS (R100): the destination is a third source -/
def execBins (h : TH) (d a : Reg) (i : Imm) (s : State) : Host.Outcome State Fault Refusal :=
  runSlot (.bins h d a i) (fun s => putG s d (binsVal (readG s d) (readG s a) i.zval) 1) s

/-- SEXT (R101) -/
def execSext (h : TH) (d a : Reg) (i : Imm) (s : State) : Host.Outcome State Fault Refusal :=
  runSlot (.sext h d a i) (fun s => putG s d (sextVal (readG s a) i.zval) 1) s

/-- ZEXT (R101) -/
def execZext (h : TH) (d a : Reg) (i : Imm) (s : State) : Host.Outcome State Fault Refusal :=
  runSlot (.zext h d a i) (fun s => putG s d (zextVal (readG s a) i.zval) 1) s

/-- SEL (R102): no guard, always writes -/
def execSel (h : TH) (d a b : Reg) (s : State) : Host.Outcome State Fault Refusal :=
  runSlot (.sel h d a b) (fun s => putG s d (if selBit s h then readG s a else readG s b) 1) s

/-- MOVI (R103) -/
def execMovi (h : TH) (d : Reg) (i : MovImm) (s : State) : Host.Outcome State Fault Refusal :=
  runSlot (.movi h d i) (fun s => putG s d i.val 1) s

/-- CMPEQ (R104) -/
def execCmpeq (h : TH) (d : PReg) (a b : Reg) (s : State) : Host.Outcome State Fault Refusal :=
  runSlot (.cmpeq h d a b) (fun s => putP s d (boolPred (readG s a == readG s b)) allLanes 1 0) s

/-- CMPNE (R104) -/
def execCmpne (h : TH) (d : PReg) (a b : Reg) (s : State) : Host.Outcome State Fault Refusal :=
  runSlot (.cmpne h d a b) (fun s => putP s d (boolPred (readG s a != readG s b)) allLanes 1 0) s

/-- CMPLT (R104) -/
def execCmplt (h : TH) (d : PReg) (a b : Reg) (s : State) : Host.Outcome State Fault Refusal :=
  runSlot (.cmplt h d a b) (fun s => putP s d (boolPred ((readG s a).slt (readG s b))) allLanes 1 0) s

/-- CMPLE (R104) -/
def execCmple (h : TH) (d : PReg) (a b : Reg) (s : State) : Host.Outcome State Fault Refusal :=
  runSlot (.cmple h d a b) (fun s => putP s d (boolPred ((readG s a).sle (readG s b))) allLanes 1 0) s

/-- CMPLTN (R104) -/
def execCmpltn (h : TH) (d : PReg) (a b : Reg) (s : State) : Host.Outcome State Fault Refusal :=
  runSlot (.cmpltn h d a b) (fun s => putP s d (boolPred ((readG s a).ult (readG s b))) allLanes 1 0) s

/-- CMPLEN (R104) -/
def execCmplen (h : TH) (d : PReg) (a b : Reg) (s : State) : Host.Outcome State Fault Refusal :=
  runSlot (.cmplen h d a b) (fun s => putP s d (boolPred ((readG s a).ule (readG s b))) allLanes 1 0) s

/-- CMPEQI (R104) -/
def execCmpeqi (h : TH) (d : PReg) (a : Reg) (i : Imm) (s : State) : Host.Outcome State Fault Refusal :=
  runSlot (.cmpeqi h d a i) (fun s => putP s d (boolPred (readG s a == i.sval)) allLanes 1 0) s

/-- CMPLTI (R104) -/
def execCmplti (h : TH) (d : PReg) (a : Reg) (i : Imm) (s : State) : Host.Outcome State Fault Refusal :=
  runSlot (.cmplti h d a i) (fun s => putP s d (boolPred ((readG s a).slt i.sval)) allLanes 1 0) s

/-- PAND (R105) -/
def execPand (h : TH) (d a b : PReg) (s : State) : Host.Outcome State Fault Refusal :=
  runSlot (.pand h d a b) (fun s => putP s d (readP s a &&& readP s b) allLanes 1 0) s

/-- POR (R105) -/
def execPor (h : TH) (d a b : PReg) (s : State) : Host.Outcome State Fault Refusal :=
  runSlot (.por h d a b) (fun s => putP s d (readP s a ||| readP s b) allLanes 1 0) s

/-- PXOR (R105) -/
def execPxor (h : TH) (d a b : PReg) (s : State) : Host.Outcome State Fault Refusal :=
  runSlot (.pxor h d a b) (fun s => putP s d (readP s a ^^^ readP s b) allLanes 1 0) s

/-- PANDN (R105) -/
def execPandn (h : TH) (d a b : PReg) (s : State) : Host.Outcome State Fault Refusal :=
  runSlot (.pandn h d a b) (fun s => putP s d (readP s a &&& ~~~ readP s b) allLanes 1 0) s

/-- PANY (R105) -/
def execPany (h : TH) (d a : PReg) (s : State) : Host.Outcome State Fault Refusal :=
  runSlot (.pany h d a) (fun s => putP s d (boolPred (readP s a != 0)) allLanes 1 0) s

/-- PALL (R105) -/
def execPall (h : TH) (d a : PReg) (s : State) : Host.Outcome State Fault Refusal :=
  runSlot (.pall h d a) (fun s => putP s d (boolPred (readP s a == allLanes)) allLanes 1 0) s

/-- PSET (R105) -/
def execPset (h : TH) (d : PReg) (a : Reg) (s : State) : Host.Outcome State Fault Refusal :=
  runSlot (.pset h d a) (fun s => putP s d ((readG s a).setWidth 32) allLanes 1 0) s

/-- PGET (R105) -/
def execPget (h : TH) (d : Reg) (a : PReg) (s : State) : Host.Outcome State Fault Refusal :=
  runSlot (.pget h d a) (fun s => putG s d ((readP s a).setWidth 64) 1) s

/-- PCNT (R105) -/
def execPcnt (h : TH) (d : Reg) (a : PReg) (s : State) : Host.Outcome State Fault Refusal :=
  runSlot (.pcnt h d a) (fun s => putG s d (BitVec.ofNat 64 (countOnes (readP s a) 32)) 1) s

end Sys2Proof.Machine
end

