-- ==== Sys2Proof/Machine/ScalarMem.lean ====
section
/-! DEFINITION. The scalar memory instructions, the fence and the prefetch (R107 to R123). -/

namespace Sys2Proof.Machine

/-- LDB (R112) -/
def execLdb (h : MH) (d a : Reg) (x : Idx) (s : State) : Host.Outcome State Fault Refusal :=
  runSlot (.ldb h d a x) (fun s => loadScalar s d (scalarRef s a x) 1 true false h.oc) s

/-- LDBN (R112) -/
def execLdbn (h : MH) (d a : Reg) (x : Idx) (s : State) : Host.Outcome State Fault Refusal :=
  runSlot (.ldbn h d a x) (fun s => loadScalar s d (scalarRef s a x) 1 false false h.oc) s

/-- LDH (R112) -/
def execLdh (h : MH) (d a : Reg) (x : Idx) (s : State) : Host.Outcome State Fault Refusal :=
  runSlot (.ldh h d a x) (fun s => loadScalar s d (scalarRef s a x) 2 true false h.oc) s

/-- LDHN (R112) -/
def execLdhn (h : MH) (d a : Reg) (x : Idx) (s : State) : Host.Outcome State Fault Refusal :=
  runSlot (.ldhn h d a x) (fun s => loadScalar s d (scalarRef s a x) 2 false false h.oc) s

/-- LDW (R112) -/
def execLdw (h : MH) (d a : Reg) (x : Idx) (s : State) : Host.Outcome State Fault Refusal :=
  runSlot (.ldw h d a x) (fun s => loadScalar s d (scalarRef s a x) 4 true false h.oc) s

/-- LDWN (R112) -/
def execLdwn (h : MH) (d a : Reg) (x : Idx) (s : State) : Host.Outcome State Fault Refusal :=
  runSlot (.ldwn h d a x) (fun s => loadScalar s d (scalarRef s a x) 4 false false h.oc) s

/-- LDD (R112) -/
def execLdd (h : MH) (d a : Reg) (x : Idx) (s : State) : Host.Outcome State Fault Refusal :=
  runSlot (.ldd h d a x) (fun s => loadScalar s d (scalarRef s a x) 8 false false h.oc) s

/-- STB (R112, R113) -/
def execStb (h : MH) (d a : Reg) (x : Idx) (s : State) : Host.Outcome State Fault Refusal :=
  runSlot (.stb h d a x) (fun s => storeScalar s (scalarRef s a x) 1 (readG s d) h.oc) s

/-- STH (R112, R113) -/
def execSth (h : MH) (d a : Reg) (x : Idx) (s : State) : Host.Outcome State Fault Refusal :=
  runSlot (.sth h d a x) (fun s => storeScalar s (scalarRef s a x) 2 (readG s d) h.oc) s

/-- STW (R112, R113) -/
def execStw (h : MH) (d a : Reg) (x : Idx) (s : State) : Host.Outcome State Fault Refusal :=
  runSlot (.stw h d a x) (fun s => storeScalar s (scalarRef s a x) 4 (readG s d) h.oc) s

/-- STD (R112, R113) -/
def execStd (h : MH) (d a : Reg) (x : Idx) (s : State) : Host.Outcome State Fault Refusal :=
  runSlot (.std h d a x) (fun s => storeScalar s (scalarRef s a x) 8 (readG s d) h.oc) s

/-- LDA (R116) -/
def execLda (h : MH) (d a : Reg) (x : Idx) (s : State) : Host.Outcome State Fault Refusal :=
  runSlot (.lda h d a x) (fun s => loadScalar s d (scalarRef s a x) 8 false true h.oc) s

/-- STL (R117) -/
def execStl (h : MH) (d a : Reg) (x : Idx) (s : State) : Host.Outcome State Fault Refusal :=
  runSlot (.stl h d a x) (fun s => storeRelease s (scalarRef s a x) (readG s d) h.oc) s

/-- AADD (R119) -/
def execAadd (h : MH) (d a : Reg) (x : Idx) (s : State) : Host.Outcome State Fault Refusal :=
  runSlot (.aadd h d a x) (fun s => atomicScalar s .add d (scalarRef s a x) (readG s d) 0 h.oc) s

/-- AAND (R119) -/
def execAand (h : MH) (d a : Reg) (x : Idx) (s : State) : Host.Outcome State Fault Refusal :=
  runSlot (.aand h d a x) (fun s => atomicScalar s .and d (scalarRef s a x) (readG s d) 0 h.oc) s

/-- AOR (R119) -/
def execAor (h : MH) (d a : Reg) (x : Idx) (s : State) : Host.Outcome State Fault Refusal :=
  runSlot (.aor h d a x) (fun s => atomicScalar s .or d (scalarRef s a x) (readG s d) 0 h.oc) s

/-- AXOR (R119) -/
def execAxor (h : MH) (d a : Reg) (x : Idx) (s : State) : Host.Outcome State Fault Refusal :=
  runSlot (.axor h d a x) (fun s => atomicScalar s .xor d (scalarRef s a x) (readG s d) 0 h.oc) s

/-- AMIN (R119) -/
def execAmin (h : MH) (d a : Reg) (x : Idx) (s : State) : Host.Outcome State Fault Refusal :=
  runSlot (.amin h d a x) (fun s => atomicScalar s .min d (scalarRef s a x) (readG s d) 0 h.oc) s

/-- AMAX (R119) -/
def execAmax (h : MH) (d a : Reg) (x : Idx) (s : State) : Host.Outcome State Fault Refusal :=
  runSlot (.amax h d a x) (fun s => atomicScalar s .max d (scalarRef s a x) (readG s d) 0 h.oc) s

/-- ASWP (R119) -/
def execAswp (h : MH) (d a : Reg) (x : Idx) (s : State) : Host.Outcome State Fault Refusal :=
  runSlot (.aswp h d a x) (fun s => atomicScalar s .swp d (scalarRef s a x) (readG s d) 0 h.oc) s

/-- ACAS (R120): the D field names an even register, the expected value, and the one after it the new value -/
def execAcas (h : MH) (d : BitVec 4) (a : Reg) (x : Idx) (s : State) : Host.Outcome State Fault Refusal :=
  runSlot (.acas h d a x) (fun s => atomicScalar s .cas (BitVec.ofNat 5 (2 * d.toNat)) (scalarRef s a x)
    (readG s (BitVec.ofNat 5 (2 * d.toNat))) (readG s (BitVec.ofNat 5 (2 * d.toNat + 1))) h.oc) s

/-- The widest scope among the classes of a mask (R122). -/
def maskScope (r : Regs) (m : BitVec 16) : Nat :=
  ((List.range 16).filter fun i => m.getLsbD i).foldl (fun w i => Nat.max w (scopeOf r (BitVec.ofNat 4 i))) 0

/-- FNC (R122): the fence takes a place in program order; at stack scope or wider the lines that are dirty in the die's L2 are
written back (R250). A mask of 0 has no effect. -/
def fence (s : State) (m : BitVec 16) : State :=
  if m = 0 then s
  else
    let k := me s
    let sc := maskScope k.live m
    let s1 := newPlace (setMe s { k with fences := k.fences ++ [(m, sc, k.nload)] })
    if 4 ≤ sc ∧ !isMgmt s.focus then writeBackAll s1 (dieOf s.focus) else s1

/-- FNC (R122) -/
def execFnc (pg : BitVec 3) (i : Imm) (s : State) : Host.Outcome State Fault Refusal :=
  runSlot (.fnc pg i) (fun s => fence s (i.zval.setWidth 16)) s

/-- A prefetched line: it comes from its base die, and the die's log keeps it (R337, R344); while the die replays, lines come from the log
(R348). -/
def bringLine (s : State) (scope a : Nat) : State :=
  let e := coreEnd s.focus
  if underReplay s e then s
  else
    (missingLines s s.focus scope [a]).foldl (fun t ln => askHomes t e (.line ln (lineData s ln)) (homesOf [64 * ln])) (fillFor s s.focus scope a)

/-- The line of a resident tile that a reference names is brought into the core's L1 (level 0) or its die's L2 (level 1); the depot holds
every line of its stack. An on-chip id and a tile that is not resident leave everything as it is (R123). -/
def prefetch (s : State) (lvl : Nat) (r : Word) : State :=
  match (if onChip (refTid r) then none else locate s (me s) r) with
  | none => s
  | some (tile, off) => match lookTile s (me s) (refTid r) tile with
    | .resident b => if lvl = 0 then bringLine s 1 (b + off) else if lvl = 1 then bringLine s 3 (b + off) else s
    | _ => s

/-- PFL (R123) -/
def execPfl (pg : BitVec 3) (l : BitVec 2) (a : Reg) (x : Idx) (s : State) : Host.Outcome State Fault Refusal :=
  runSlot (.pfl pg l a x) (fun s => prefetch s l.toNat (scalarRef s a x)) s

end Sys2Proof.Machine
end

