-- ==== Sys2Proof/Machine/System.lean ====
section
/-! DEFINITION. The system slots (R182 to R209): what they do at issue; the non-undoable ones record an act for step 4 of R24. -/

namespace Sys2Proof.Machine

/-! ### Waypoint, trap, return, control registers -/

/-- WAYPT (R186): its bundle commits once it has issued (R24). -/
def execWaypt (e : BitVec 2) (s : State) : Host.Outcome State Fault Refusal :=
  runSlot (.waypt e) (fun s => setMe s { me s with committing := true }) s

/-- TRAP (R187) -/
def execTrap (h : TH) (i : Imm) (s : State) : Host.Outcome State Fault Refusal :=
  runSlot (.trap h i) (fun s => record s (.trap (BitVec.ofNat 64 (i.sval.toNat % 65536)) s.latch.slot)) s

/-- RESUME (R188) -/
def execResume (h : TH) (a : Reg) (s : State) : Host.Outcome State Fault Refusal :=
  runSlot (.resume h a) (fun s => record s (.resume ((readG s a).setWidth 48))) s

/-- CRD (R189): the register as it stands at the start of the issue cycle. -/
def execCrd (h : TH) (d : Reg) (n : BitVec 10) (s : State) : Host.Outcome State Fault Refusal :=
  runSlot (.crd h d n) (fun s => putG s d (s.latch.crd.getD (crdValue s s.focus (curX s) n.toNat)) 1) s

/-- CWR (R190): a register of the context changes at issue, any other at step 4 of R24, selected by PWRSEL and THSEL as they are at
issue (R349). -/
def writeControl (s : State) (n : BitVec 10) (v : Word) : State :=
  if ctxHeld n.toNat then setMe s (writeCtxReg (me s) n.toNat v)
  else record s (.cwr n v (me s).live.pwrsel (me s).live.thsel)

/-- CWR (R190) -/
def execCwr (h : TH) (d : Reg) (n : BitVec 10) (s : State) : Host.Outcome State Fault Refusal :=
  runSlot (.cwr h d n) (fun s => writeControl s n (readG s d)) s

/-! ### Monitors (R191 to R193) -/

/-- The storage bytes of the 64-byte line that holds byte `b` of a level or a tile (R191). -/
def monitorLine (s : State) (r : Word) (tile off : Nat) : List Nat :=
  let k := me s
  let tid := refTid r
  let b := tile * 65536 + off
  if tid = 0xFFF2 then (List.range 64).map fun i => chipByte k s.focus 0 0xFFF2 (b / 64 * 64 + i)
  else if tid = 0xFFF6 then (List.range 64).map fun i => chipByte k s.focus 0 0xFFF2 (swizzled b / 64 * 64 + i)
  else if onChip tid then (List.range 64).map fun i => chipByte k s.focus 0 tid (b / 64 * 64 + i)
  else match lookTile s k tid tile with
    | .resident base => (List.range 64).map fun i => base + off / 64 * 64 + i
    | _ => []

/-- MONA arms the monitor (R191): a non-resident tile leaves it disarmed with NR set; an arm of an on-chip level is established at
once, any other when it reaches the depot. -/
def armMonitor (s : State) (r : Word) : State :=
  match locate s (me s) r with
  | none => s
  | some (tile, off) =>
    let s1 := if onChip (refTid r) then s else placeRead s s.focus (me s) (refTid r) tile
    let as := monitorLine s1 r tile off
    if as.isEmpty then setMe (setFlags s1 flNR) { me (setFlags s1 flNR) with mon := ⟨[], .disarmed, false⟩ }
    else if onChip (refTid r) then setMe s1 { me s1 with mon := ⟨as, .armed, true⟩ }
    else later (setMe (carryTo s1 (coreEnd s.focus) .plain (homesOf (as.filterMap (resolve s1)))) { me s1 with mon := ⟨as, .armed, false⟩ })
      (.monitorArmEstablished s.focus (curX s))

/-- MONA (R191) -/
def execMona (h : TH) (a b : Reg) (s : State) : Host.Outcome State Fault Refusal :=
  runSlot (.mona h a b) (fun s => armMonitor s (refAdd (readG s a) (readG s b))) s

/-- MNAP (R193): the limit is g[A][47:0] master cycles from step 4. -/
def execMnap (h : TH) (d a : Reg) (s : State) : Host.Outcome State Fault Refusal :=
  runSlot (.mnap h d a) (fun s => record s (.mnap d.toNat ((readG s a).toNat % 2 ^ 48))) s

/-! ### Page requests and tasks (R194 to R201) -/

/-- RQPG posts a request with the next RQSEQ (R194). -/
def requestPage (s : State) (d : Reg) (r : Word) : State :=
  let k := me s
  let s1 := putG s d (k.rqseq.setWidth 64) 1
  let s2 := setMe s1 { me s1 with rqseq := k.rqseq + 1, rqout := k.rqout ++ [k.rqseq], nload := k.nload + 1 }
  actOnce s2 s.focus (curX s) k.nload .rqpg fun t =>
    later (setSerai t fun q => { q with
      pageReqs := q.pageReqs ++ [⟨s.focus, curX s, k.task, k.pid, k.rqseq, r, k.cmpla⟩] }) .pageRequestService

/-- RQPG (R194) -/
def execRqpg (h : TH) (d a b : Reg) (s : State) : Host.Outcome State Fault Refusal :=
  runSlot (.rqpg h d a b) (fun s => requestPage s d (refAdd (readG s a) (readG s b))) s

/-- TASKL at issue (R196): the residency lookup of the manifest's tile has the outcomes of R108 and R109; where the tile is not resident
g[D] is 0, NR is set, and nothing is launched (log entry 65). -/
def launchTask (s : State) (d : Reg) (v : Word) : State :=
  let t := scalarPlace s (mkRef 0 (refIdx v)) 1
  if t.2 = [] then putG (setFlags t.1 flNR) d 0 1 else record t.1 (.taskl d.toNat (refIdx v))

/-- TASKL (R196) -/
def execTaskl (h : TH) (d a : Reg) (s : State) : Host.Outcome State Fault Refusal :=
  runSlot (.taskl h d a) (fun s => launchTask s d (readG s a)) s

/-- TASKR (R197) -/
def execTaskr (h : TH) (s : State) : Host.Outcome State Fault Refusal :=
  runSlot (.taskr h) (fun s => record s .taskr) s

/-- DSIG (R198) -/
def execDsig (h : TH) (a : Reg) (s : State) : Host.Outcome State Fault Refusal :=
  runSlot (.dsig h a) (fun s => record s (.dsig (readG s a) s.latch.slot)) s

/-- CLAIM (R199), settled at issue: kinds 0 tile store, 1 slice words per lane, 2 cycles of allowance. -/
def makeClaim (s : State) (kind : Nat) (w : Word) : State :=
  let k := me s
  if claimFails s kind w.toNat then claimFailure s
  else if kind = 0 then setMe s { k with live := { k.live with claimb := k.live.claimb + w.toNat } }
  else if kind = 1 then setMe s { k with live := { k.live with slice := k.live.slice + w.toNat } }
  else
    let a := Nat.min (k.allow + w.toNat % 2 ^ 32) (2 ^ 32 - 1)
    setMe s { k with allow := a, allowAdded := k.allowAdded + (a - k.allow) }

/-- CLAIM (R199) -/
def execClaim (h : TH) (k : BitVec 2) (a : Reg) (s : State) : Host.Outcome State Fault Refusal :=
  runSlot (.claim h k a) (fun s => makeClaim s k.toNat (readG s a)) s

/-- YIELD (R200): once it issues it has no further effect. -/
def execYield (h : TH) (s : State) : Host.Outcome State Fault Refusal :=
  runSlot (.yield h) (fun s => setMe s { me s with yielded := false }) s

/-- HALT (R201) -/
def execHalt (h : TH) (s : State) : Host.Outcome State Fault Refusal :=
  runSlot (.halt h) (fun s => record s .halt) s

/-! ### Events, seals, caches (R202 to R207) -/

/-- EVSIG (R202) -/
def execEvsig (h : TH) (a : Reg) (s : State) : Host.Outcome State Fault Refusal :=
  runSlot (.evsig h a) (fun s => record s (.evsig (readG s a))) s

/-- SEAL (R203) -/
def execSeal (h : TH) (a b : Reg) (s : State) : Host.Outcome State Fault Refusal :=
  runSlot (.seal h a b) (fun s => record s (.seal (readG s a) (readG s b))) s

/-- UNSEAL (R204) -/
def execUnseal (h : TH) (a b : Reg) (s : State) : Host.Outcome State Fault Refusal :=
  runSlot (.unseal h a b) (fun s => record s (.unseal (readG s a) (readG s b))) s

/-- VJOIN (R205): it has nothing to do once its wait is over. -/
def execVjoin (h : TH) (s : State) : Host.Outcome State Fault Refusal :=
  runSlot (.vjoin h) (fun s => s) s

/-- The storage byte that a reference to a line names, where its tile is resident. -/
def lineAddr (s : State) (r : Word) : Option Nat :=
  match locate s (me s) r with
  | some (tile, off) => match lookTile s (me s) (refTid r) tile with
    | .resident b => some (b + off)
    | _ => none
  | none => none

/-- DCFL of a line (R206): the dirty copy in the die's L2 is written back. -/
def flushLine (s : State) (r : Word) : State :=
  match lineAddr s r with
  | some a => match resolve s a with
    | some p => if isMgmt s.focus then s else writeBackLine s (dieOf s.focus) (p / 64)
    | none => s
  | none => s

/-- DCFL_LINE (R206) -/
def execDcflLine (h : TH) (a : Reg) (s : State) : Host.Outcome State Fault Refusal :=
  runSlot (.dcflLine h a) (fun s => flushLine s (readG s a)) s

/-- The die whose L2 the privileged forms act on: the one that PWRSEL selects, since no L2 stands beside a management core (log entry
107). -/
def l2Die (s : State) : Nat := selDie (me s).live.pwrsel

/-- DCFL_L2 (R206) -/
def execDcflL2 (h : TH) (s : State) : Host.Outcome State Fault Refusal :=
  runSlot (.dcflL2 h) (fun s => writeBackAll s (l2Die s)) s

/-- DCINV_LINE (R206) -/
def execDcinvLine (h : TH) (a : Reg) (s : State) : Host.Outcome State Fault Refusal :=
  runSlot (.dcinvLine h a) (fun s => match lineAddr s (readG s a) with | some p => record s (.dcinvLine p) | none => s) s

/-- DCINV_L2 (R206) -/
def execDcinvL2 (h : TH) (s : State) : Host.Outcome State Fault Refusal :=
  runSlot (.dcinvL2 h) (fun s => record s (.dcinvL2 (l2Die s))) s

/-- ICINV (R207) -/
def execIcinv (h : TH) (s : State) : Host.Outcome State Fault Refusal :=
  runSlot (.icinv h) (fun s => setMyCore s { myCore s with icache := .empty }) s

end Sys2Proof.Machine
end

