-- ==== Sys2Proof/Machine/Vector.lean ====
section
/-! DEFINITION. The vector ALU instructions (R128 to R145). -/

namespace Sys2Proof.Machine

/-! ### Shared forms -/

/-- A window that is longer in full mode (R130). -/
def fpWin (s : State) (a b : Nat) : Nat := if cstatFPM (me s).live.cstat then b else a

def rmOf (s : State) : BitVec 2 := cstatRM (me s).live.cstat
def fpmOf (s : State) : Bool := cstatFPM (me s).live.cstat

/-- The flags of the enabled lanes (R130). -/
def orFlags (m : Pred) (f : Nat → BitVec 16) : BitVec 16 := (lanesList m).foldl (fun a i => a ||| f i) 0

/-- A lane-wise integer result. -/
def laneResult (s : State) (d : Reg) (m : Pred) (f : Nat → BitVec 32) : State := putV s d (ofLanes f) m 2 0 false

/-- A lane-wise result with flags. -/
def flagResult (s : State) (d : Reg) (m : Pred) (win : Nat) (f : Nat → Nat × BitVec 16) : State :=
  putV s d (ofLanes fun i => BitVec.ofNat 32 (f i).1) m win (orFlags m fun i => (f i).2) false

/-- A compare: bit `i` of the predicate in each enabled lane (R131). -/
def laneCompare (s : State) (d : PReg) (m : Pred) (win : Nat) (f : Nat → Bool × BitVec 16) : State :=
  putP s d (ofBits fun i => (f i).1) m win (orFlags m fun i => (f i).2)

/-! ### Residue mode (R80 to R82) -/

/-- The main path's full-width result with the bits of a fault inside the adder flipped in its low 32 bits. -/
def mainPath (y : Int) (flt : BitVec 32) : Int :=
  y + ((BitVec.ofInt 32 y ^^^ flt).toNat : Int) - ((BitVec.ofInt 32 y).toNat : Int)

/-- A checked lane: the result, and whether its residue fails. `y` is the full-width result and `path` the residue path's value. -/
def checkedLane (flt : BitVec 32) (y path : Int) : BitVec 32 × Bool :=
  (BitVec.ofInt 32 (mainPath y flt), rho (mainPath y flt) != rho path)

/-- VADD, VSUB, VMUL and VMAD: with RES set every enabled lane is checked. -/
def checkedResult (s : State) (d : Reg) (m : Pred) (y path : Nat → Int) : State :=
  if cstatRES (me s).live.cstat then
    let k := myCore s
    let f := fun i => checkedLane k.aluFault (y i) (path i)
    putV (setMyCore s { k with aluFault := 0 }) d (ofLanes fun i => (f i).1) m 2 0
      ((lanesList m).any fun i => (f i).2)
  else laneResult s d m fun i => BitVec.ofInt 32 (y i)

/-- Lane `i` of a v register as a signed integer. -/
def sl (v : Vec) (i : Nat) : Int := (lane v i).toInt

/-! ### Floating-point lanes -/

/-- Lane `i` as binary32, after the subnormal rule (R62). -/
def fl32 (s : State) (v : Vec) (i : Nat) : FV := f32.read (fpmOf s) (lane v i).toNat

/-- Element `j` as binary64: lanes 2j and 2j + 1 (R58). -/
def fl64 (s : State) (v : Vec) (j : Nat) : FV :=
  f64.read (fpmOf s) ((lane v (2 * j)).toNat + (lane v (2 * j + 1)).toNat * 2 ^ 32)

/-- The lanes of the elements whose even guard bit is set (R136). -/
def pairMask (m : Pred) : Pred := ofBits fun i => m.getLsbD (i / 2 * 2)

/-- A binary64 result by element. -/
def dblResult (s : State) (d : Reg) (m : Pred) (win : Nat) (f : Nat → Nat × BitVec 16) : State :=
  putV s d (ofLanes fun i => BitVec.ofNat 32 ((f (i / 2)).1 / 2 ^ (32 * (i % 2)))) (pairMask m) win
    (orFlags (pairMask m) fun i => (f (i / 2)).2) false

/-! ### Blocks and packing (R139 to R142) -/

/-- The 32 values of a block: disabled lanes read as 0. -/
def blockIn (s : State) (v : Vec) (m : Pred) : List FV :=
  (List.range 32).map fun i => if m.getLsbD i then fl32 s v i else .num false 0 0

/-- VBEXP's count of a block into the task's counters (R69). -/
def countBlock (s : State) (b : BxBlock) : State :=
  setMe s { me s with live := { (me s).live with
    underzero := (me s).live.underzero + b.under, satblk := (me s).live.satblk + b.sat } }

/-- VBEXP (R139): the block's exponent in every enabled lane. -/
def vbexpOp (s : State) (d : Reg) (v : Vec) (k : Nat) (m : Pred) : State :=
  let b := quantise (blockIn s v m) (bxLimit k) 0
  putV (countBlock s b) d (ofLanes fun _ => BitVec.ofInt 32 b.e) m (fpWin s 4 8) (if b.nv then flNV else 0) false

/-- VQNT (R140): mantissas under the exponent in lane 0 of the destination. -/
def vqntOp (s : State) (d : Reg) (v : Vec) (k : Nat) (m : Pred) : State :=
  let e := ((lane (readV s d) 0).setWidth 8).toInt
  let xs := blockIn s v m
  let q := fun i => if e = -128 then (0 : BitVec 32) else BitVec.ofInt 32 (mantissa 0 (bxLimit k) e (xs.getD i (.num false 0 0)))
  putV s d (ofLanes q) m (fpWin s 4 8) (if xs.any FV.isNan then flNV else 0) false

/-- Bits of a packed value: 4, 8 or 16 (R141). -/
def packWidth (k : Nat) : Nat := 4 * 2 ^ k

/-- The packed string of 32 values. -/
def packString (v : Vec) (w : Nat) : Nat → Nat
  | 0 => 0
  | n + 1 => packString v w n + (lane v n).toNat % 2 ^ w * 2 ^ (w * n)

/-- VPACK (R141): lanes beyond the string receive 0. -/
def vpackVal (v : Vec) (k : Nat) : Vec := BitVec.ofNat 1024 (packString v (packWidth k) 32)

/-- VUNPK (R141): value `i` of the string, sign-extended. -/
def vunpkVal (v : Vec) (k : Nat) : Vec :=
  let w := packWidth k
  ofLanes fun i => (BitVec.ofNat w (v.toNat / 2 ^ (w * i))).signExtend 32

/-! ### Across lanes (R143 to R145) -/

/-- The signed extreme of the enabled lanes. -/
def extremeLane (v : Vec) (max : Bool) : List Nat → Int
  | [] => 0
  | [i] => sl v i
  | i :: r => let e := extremeLane v max r; if (if max then e < sl v i else sl v i < e) then sl v i else e

/-- The exact sum of squares of finite values as an integer times 2^-298. -/
def sumSquares : List FV → Nat
  | [] => 0
  | .num _ m e :: r => m * m * 2 ^ (2 * e + 298).toNat + sumSquares r
  | _ :: r => sumSquares r

def FV.isInf : FV → Bool | .inf _ => true | _ => false

/-- The value of VNRM (R145) and its flags. -/
def vnrmVal (rm : BitVec 2) (fpm : Bool) (xs : List FV) : Nat × BitVec 16 :=
  if xs.any FV.isNan then f32.nanOf (xs.any FV.isSnan)
  else if xs.any FV.isInf then (f32.infBits false, 0)
  else f32.sqrtPos rm fpm (sumSquares xs) (-298)

/-- VNRM: the result in every enabled lane, and a sample for the norm watch (R145, R284). -/
def vnrmOp (s : State) (d : Reg) (v : Vec) (m : Pred) : State :=
  let r := vnrmVal (rmOf s) (fpmOf s) ((lanesList m).map (fl32 s v))
  let s1 := if (me s).live.nwatch.getLsbD 0 then
      setMe s { me s with watch := (me s).watch ++ [.sample (BitVec.ofNat 32 r.1)] } else s
  putV s1 d (ofLanes fun _ => BitVec.ofNat 32 r.1) m (fpWin s 8 12) r.2 false

/-! ### Meanings -/

/-- VMOV (R132) -/
def execVmov (h : TH) (d a : Reg) (s : State) : Host.Outcome State Fault Refusal :=
  runSlot (.vmov h d a) (fun s => laneResult s d (lanesOf s (.vmov h d a)) fun i => lane (readV s a) i) s

/-- VADD (R132, R80) -/
def execVadd (h : TH) (d a b : Reg) (s : State) : Host.Outcome State Fault Refusal :=
  runSlot (.vadd h d a b) (fun s => checkedResult s d (lanesOf s (.vadd h d a b))
      (fun i => sl (readV s a) i + sl (readV s b) i) (fun i => rho (sl (readV s a) i) + rho (sl (readV s b) i))) s

/-- VSUB (R132, R80) -/
def execVsub (h : TH) (d a b : Reg) (s : State) : Host.Outcome State Fault Refusal :=
  runSlot (.vsub h d a b) (fun s => checkedResult s d (lanesOf s (.vsub h d a b))
      (fun i => sl (readV s a) i - sl (readV s b) i) (fun i => rho (sl (readV s a) i) - rho (sl (readV s b) i))) s

/-- VADDS (R132, R57) -/
def execVadds (h : TH) (d a b : Reg) (s : State) : Host.Outcome State Fault Refusal :=
  runSlot (.vadds h d a b) (fun s => flagResult s d (lanesOf s (.vadds h d a b)) 2 fun i =>
      let r := clamp32 (sl (readV s a) i + sl (readV s b) i); (r.1.toNat, r.2)) s

/-- VSUBS (R132, R57) -/
def execVsubs (h : TH) (d a b : Reg) (s : State) : Host.Outcome State Fault Refusal :=
  runSlot (.vsubs h d a b) (fun s => flagResult s d (lanesOf s (.vsubs h d a b)) 2 fun i =>
      let r := clamp32 (sl (readV s a) i - sl (readV s b) i); (r.1.toNat, r.2)) s

/-- VMUL (R132, R80) -/
def execVmul (h : TH) (d a b : Reg) (s : State) : Host.Outcome State Fault Refusal :=
  runSlot (.vmul h d a b) (fun s => checkedResult s d (lanesOf s (.vmul h d a b))
      (fun i => sl (readV s a) i * sl (readV s b) i) (fun i => rho (sl (readV s a) i) * rho (sl (readV s b) i))) s

/-- VMULH (R132) -/
def execVmulh (h : TH) (d a b : Reg) (s : State) : Host.Outcome State Fault Refusal :=
  runSlot (.vmulh h d a b) (fun s => laneResult s d (lanesOf s (.vmulh h d a b)) fun i => ((lane (readV s a) i).signExtend 64 * (lane (readV s b) i).signExtend 64).extractLsb' 32 32) s

/-- VMAD (R132, R80): the destination is a third source -/
def execVmad (h : TH) (d a b : Reg) (s : State) : Host.Outcome State Fault Refusal :=
  runSlot (.vmad h d a b) (fun s => checkedResult s d (lanesOf s (.vmad h d a b))
      (fun i => sl (readV s a) i * sl (readV s b) i + sl (readV s d) i) (fun i => rho (sl (readV s a) i) * rho (sl (readV s b) i) + rho (sl (readV s d) i))) s

/-- VAND (R132) -/
def execVand (h : TH) (d a b : Reg) (s : State) : Host.Outcome State Fault Refusal :=
  runSlot (.vand h d a b) (fun s => laneResult s d (lanesOf s (.vand h d a b)) fun i => lane (readV s a) i &&& lane (readV s b) i) s

/-- VOR (R132) -/
def execVor (h : TH) (d a b : Reg) (s : State) : Host.Outcome State Fault Refusal :=
  runSlot (.vor h d a b) (fun s => laneResult s d (lanesOf s (.vor h d a b)) fun i => lane (readV s a) i ||| lane (readV s b) i) s

/-- VXOR (R132) -/
def execVxor (h : TH) (d a b : Reg) (s : State) : Host.Outcome State Fault Refusal :=
  runSlot (.vxor h d a b) (fun s => laneResult s d (lanesOf s (.vxor h d a b)) fun i => lane (readV s a) i ^^^ lane (readV s b) i) s

/-- VANDN (R132) -/
def execVandn (h : TH) (d a b : Reg) (s : State) : Host.Outcome State Fault Refusal :=
  runSlot (.vandn h d a b) (fun s => laneResult s d (lanesOf s (.vandn h d a b)) fun i => lane (readV s a) i &&& ~~~ (lane (readV s b) i)) s

/-- VSHL (R132) -/
def execVshl (h : TH) (d a b : Reg) (s : State) : Host.Outcome State Fault Refusal :=
  runSlot (.vshl h d a b) (fun s => laneResult s d (lanesOf s (.vshl h d a b)) fun i => lane (readV s a) i <<< ((lane (readV s b) i).toNat % 32)) s

/-- VSHR (R132) -/
def execVshr (h : TH) (d a b : Reg) (s : State) : Host.Outcome State Fault Refusal :=
  runSlot (.vshr h d a b) (fun s => laneResult s d (lanesOf s (.vshr h d a b)) fun i => lane (readV s a) i >>> ((lane (readV s b) i).toNat % 32)) s

/-- VSHA (R132) -/
def execVsha (h : TH) (d a b : Reg) (s : State) : Host.Outcome State Fault Refusal :=
  runSlot (.vsha h d a b) (fun s => laneResult s d (lanesOf s (.vsha h d a b)) fun i => (lane (readV s a) i).sshiftRight ((lane (readV s b) i).toNat % 32)) s

/-- VMIN (R132) -/
def execVmin (h : TH) (d a b : Reg) (s : State) : Host.Outcome State Fault Refusal :=
  runSlot (.vmin h d a b) (fun s => laneResult s d (lanesOf s (.vmin h d a b)) fun i => if (lane (readV s b) i).slt (lane (readV s a) i) then lane (readV s b) i else lane (readV s a) i) s

/-- VMAX (R132) -/
def execVmax (h : TH) (d a b : Reg) (s : State) : Host.Outcome State Fault Refusal :=
  runSlot (.vmax h d a b) (fun s => laneResult s d (lanesOf s (.vmax h d a b)) fun i => if (lane (readV s a) i).slt (lane (readV s b) i) then lane (readV s b) i else lane (readV s a) i) s

/-- VMINN (R132) -/
def execVminn (h : TH) (d a b : Reg) (s : State) : Host.Outcome State Fault Refusal :=
  runSlot (.vminn h d a b) (fun s => laneResult s d (lanesOf s (.vminn h d a b)) fun i => if (lane (readV s b) i).ult (lane (readV s a) i) then lane (readV s b) i else lane (readV s a) i) s

/-- VMAXN (R132) -/
def execVmaxn (h : TH) (d a b : Reg) (s : State) : Host.Outcome State Fault Refusal :=
  runSlot (.vmaxn h d a b) (fun s => laneResult s d (lanesOf s (.vmaxn h d a b)) fun i => if (lane (readV s a) i).ult (lane (readV s b) i) then lane (readV s b) i else lane (readV s a) i) s

/-- VABS (R132) -/
def execVabs (h : TH) (d a : Reg) (s : State) : Host.Outcome State Fault Refusal :=
  runSlot (.vabs h d a) (fun s => laneResult s d (lanesOf s (.vabs h d a)) fun i => if (lane (readV s a) i).slt 0 then -(lane (readV s a) i) else lane (readV s a) i) s

/-- VCMPEQ (R133) -/
def execVcmpeq (h : TH) (d : PReg) (a b : Reg) (s : State) : Host.Outcome State Fault Refusal :=
  runSlot (.vcmpeq h d a b) (fun s => laneCompare s d (lanesOf s (.vcmpeq h d a b)) 2 fun i => (lane (readV s a) i == lane (readV s b) i, 0)) s

/-- VCMPLT (R133) -/
def execVcmplt (h : TH) (d : PReg) (a b : Reg) (s : State) : Host.Outcome State Fault Refusal :=
  runSlot (.vcmplt h d a b) (fun s => laneCompare s d (lanesOf s (.vcmplt h d a b)) 2 fun i => ((lane (readV s a) i).slt (lane (readV s b) i), 0)) s

/-- VCMPLE (R133) -/
def execVcmple (h : TH) (d : PReg) (a b : Reg) (s : State) : Host.Outcome State Fault Refusal :=
  runSlot (.vcmple h d a b) (fun s => laneCompare s d (lanesOf s (.vcmple h d a b)) 2 fun i => ((lane (readV s a) i).sle (lane (readV s b) i), 0)) s

/-- VCMPLTN (R133) -/
def execVcmpltn (h : TH) (d : PReg) (a b : Reg) (s : State) : Host.Outcome State Fault Refusal :=
  runSlot (.vcmpltn h d a b) (fun s => laneCompare s d (lanesOf s (.vcmpltn h d a b)) 2 fun i => ((lane (readV s a) i).ult (lane (readV s b) i), 0)) s

/-- VSEL (R134): no guard, every lane -/
def execVsel (h : TH) (d a b : Reg) (s : State) : Host.Outcome State Fault Refusal :=
  runSlot (.vsel h d a b) (fun s => laneResult s d allLanes fun i =>
      if (readP s h.pg).getLsbD i != h.pn then lane (readV s a) i else lane (readV s b) i) s

/-- VFADD (R135) -/
def execVfadd (h : TH) (d a b : Reg) (s : State) : Host.Outcome State Fault Refusal :=
  runSlot (.vfadd h d a b) (fun s => flagResult s d (lanesOf s (.vfadd h d a b)) (fpWin s 4 8) fun i =>
      f32.addV (rmOf s) (fpmOf s) (fl32 s (readV s a) i) (fl32 s (readV s b) i)) s

/-- VFSUB (R135) -/
def execVfsub (h : TH) (d a b : Reg) (s : State) : Host.Outcome State Fault Refusal :=
  runSlot (.vfsub h d a b) (fun s => flagResult s d (lanesOf s (.vfsub h d a b)) (fpWin s 4 8) fun i =>
      f32.addV (rmOf s) (fpmOf s) (fl32 s (readV s a) i) (fl32 s (readV s b) i).neg) s

/-- VFMUL (R135) -/
def execVfmul (h : TH) (d a b : Reg) (s : State) : Host.Outcome State Fault Refusal :=
  runSlot (.vfmul h d a b) (fun s => flagResult s d (lanesOf s (.vfmul h d a b)) (fpWin s 4 8) fun i =>
      f32.mulV (rmOf s) (fpmOf s) (fl32 s (readV s a) i) (fl32 s (readV s b) i)) s

/-- VFMA (R135) -/
def execVfma (h : TH) (d a b : Reg) (s : State) : Host.Outcome State Fault Refusal :=
  runSlot (.vfma h d a b) (fun s => flagResult s d (lanesOf s (.vfma h d a b)) (fpWin s 4 8) fun i =>
      f32.fmaV (rmOf s) (fpmOf s) (fl32 s (readV s a) i) (fl32 s (readV s b) i) (fl32 s (readV s d) i)) s

/-- VFNMA (R135) -/
def execVfnma (h : TH) (d a b : Reg) (s : State) : Host.Outcome State Fault Refusal :=
  runSlot (.vfnma h d a b) (fun s => flagResult s d (lanesOf s (.vfnma h d a b)) (fpWin s 4 8) fun i =>
      f32.fmaV (rmOf s) (fpmOf s) (fl32 s (readV s a) i).neg (fl32 s (readV s b) i) (fl32 s (readV s d) i)) s

/-- VFDIV (R135) -/
def execVfdiv (h : TH) (d a b : Reg) (s : State) : Host.Outcome State Fault Refusal :=
  runSlot (.vfdiv h d a b) (fun s => flagResult s d (lanesOf s (.vfdiv h d a b)) (fpWin s 16 20) fun i =>
      f32.divV (rmOf s) (fpmOf s) (fl32 s (readV s a) i) (fl32 s (readV s b) i)) s

/-- VFSQRT (R135) -/
def execVfsqrt (h : TH) (d a : Reg) (s : State) : Host.Outcome State Fault Refusal :=
  runSlot (.vfsqrt h d a) (fun s => flagResult s d (lanesOf s (.vfsqrt h d a)) (fpWin s 16 20) fun i =>
      f32.sqrtV (rmOf s) (fpmOf s) (fl32 s (readV s a) i)) s

/-- VFMIN (R135, R63) -/
def execVfmin (h : TH) (d a b : Reg) (s : State) : Host.Outcome State Fault Refusal :=
  runSlot (.vfmin h d a b) (fun s => flagResult s d (lanesOf s (.vfmin h d a b)) (fpWin s 4 8) fun i =>
      f32.minV false (fl32 s (readV s a) i) (fl32 s (readV s b) i)) s

/-- VFMAX (R135, R63) -/
def execVfmax (h : TH) (d a b : Reg) (s : State) : Host.Outcome State Fault Refusal :=
  runSlot (.vfmax h d a b) (fun s => flagResult s d (lanesOf s (.vfmax h d a b)) (fpWin s 4 8) fun i =>
      f32.minV true (fl32 s (readV s a) i) (fl32 s (readV s b) i)) s

/-- VFCMPEQ (R135, R63) -/
def execVfcmpeq (h : TH) (d : PReg) (a b : Reg) (s : State) : Host.Outcome State Fault Refusal :=
  runSlot (.vfcmpeq h d a b) (fun s => laneCompare s d (lanesOf s (.vfcmpeq h d a b)) (fpWin s 4 8) fun i => cmpEqV (fl32 s (readV s a) i) (fl32 s (readV s b) i)) s

/-- VFCMPLT (R135, R63) -/
def execVfcmplt (h : TH) (d : PReg) (a b : Reg) (s : State) : Host.Outcome State Fault Refusal :=
  runSlot (.vfcmplt h d a b) (fun s => laneCompare s d (lanesOf s (.vfcmplt h d a b)) (fpWin s 4 8) fun i => cmpLtV (fl32 s (readV s a) i) (fl32 s (readV s b) i)) s

/-- VFCMPLE (R135, R63) -/
def execVfcmple (h : TH) (d : PReg) (a b : Reg) (s : State) : Host.Outcome State Fault Refusal :=
  runSlot (.vfcmple h d a b) (fun s => laneCompare s d (lanesOf s (.vfcmple h d a b)) (fpWin s 4 8) fun i => cmpLeV (fl32 s (readV s a) i) (fl32 s (readV s b) i)) s

/-- VDADD (R136) -/
def execVdadd (h : TH) (d a b : Reg) (s : State) : Host.Outcome State Fault Refusal :=
  runSlot (.vdadd h d a b) (fun s => dblResult s d (lanesOf s (.vdadd h d a b)) (fpWin s 4 8) fun j =>
      f64.addV (rmOf s) (fpmOf s) (fl64 s (readV s a) j) (fl64 s (readV s b) j)) s

/-- VDMUL (R136) -/
def execVdmul (h : TH) (d a b : Reg) (s : State) : Host.Outcome State Fault Refusal :=
  runSlot (.vdmul h d a b) (fun s => dblResult s d (lanesOf s (.vdmul h d a b)) (fpWin s 4 8) fun j =>
      f64.mulV (rmOf s) (fpmOf s) (fl64 s (readV s a) j) (fl64 s (readV s b) j)) s

/-- VDFMA (R136) -/
def execVdfma (h : TH) (d a b : Reg) (s : State) : Host.Outcome State Fault Refusal :=
  runSlot (.vdfma h d a b) (fun s => dblResult s d (lanesOf s (.vdfma h d a b)) (fpWin s 4 8) fun j =>
      f64.fmaV (rmOf s) (fpmOf s) (fl64 s (readV s a) j) (fl64 s (readV s b) j) (fl64 s (readV s d) j)) s

/-- VDDIV (R136) -/
def execVddiv (h : TH) (d a b : Reg) (s : State) : Host.Outcome State Fault Refusal :=
  runSlot (.vddiv h d a b) (fun s => dblResult s d (lanesOf s (.vddiv h d a b)) (fpWin s 16 20) fun j =>
      f64.divV (rmOf s) (fpmOf s) (fl64 s (readV s a) j) (fl64 s (readV s b) j)) s

/-- VDCMPLT (R136) -/
def execVdcmplt (h : TH) (d : PReg) (a b : Reg) (s : State) : Host.Outcome State Fault Refusal :=
  runSlot (.vdcmplt h d a b) (fun s => laneCompare s d (pairMask (lanesOf s (.vdcmplt h d a b))) (fpWin s 4 8) fun i =>
      cmpLtV (fl64 s (readV s a) (i / 2)) (fl64 s (readV s b) (i / 2))) s

/-- One lane of VFCVT (R137): a binary16 half written beside the other, or read. -/
def vfcvtLane (rm : BitVec 2) (fpm : Bool) (k : Nat) (x old : BitVec 32) : Nat × BitVec 16 :=
  if k = 0 then
    let r := narrow16 rm fpm (f32.read fpm x.toNat)
    (old.toNat / 65536 * 65536 + r.1, r.2)
  else if k = 1 then
    let r := narrow16 rm fpm (f32.read fpm x.toNat)
    (r.1 * 65536 + old.toNat % 65536, r.2)
  else if k = 2 then widen16 (f16.read fpm (x.toNat % 65536))
  else widen16 (f16.read fpm (x.toNat / 65536))

/-- VFCVT (R137) -/
def execVfcvt (h : TH) (d a : Reg) (k : BitVec 5) (s : State) : Host.Outcome State Fault Refusal :=
  runSlot (.vfcvt h d a k) (fun s => flagResult s d (lanesOf s (.vfcvt h d a k)) (fpWin s 4 8) fun i =>
      vfcvtLane (rmOf s) (fpmOf s) k.toNat (lane (readV s a) i) (lane (readV s d) i)) s

/-- VFTOI (R138) -/
def execVftoi (h : TH) (d a : Reg) (s : State) : Host.Outcome State Fault Refusal :=
  runSlot (.vftoi h d a) (fun s => flagResult s d (lanesOf s (.vftoi h d a)) (fpWin s 4 8) fun i =>
      let r := toI32 (rmOf s) (fl32 s (readV s a) i); (r.1.toNat, r.2)) s

/-- VITOF (R138) -/
def execVitof (h : TH) (d a : Reg) (s : State) : Host.Outcome State Fault Refusal :=
  runSlot (.vitof h d a) (fun s => flagResult s d (lanesOf s (.vitof h d a)) (fpWin s 4 8) fun i =>
      fromI32 (rmOf s) (lane (readV s a) i)) s

/-- VQNT (R140) -/
def execVqnt (h : TH) (d a : Reg) (k : BitVec 5) (s : State) : Host.Outcome State Fault Refusal :=
  runSlot (.vqnt h d a k) (fun s => vqntOp s d (readV s a) k.toNat (lanesOf s (.vqnt h d a k))) s

/-- VBEXP (R139) -/
def execVbexp (h : TH) (d a : Reg) (k : BitVec 5) (s : State) : Host.Outcome State Fault Refusal :=
  runSlot (.vbexp h d a k) (fun s => vbexpOp s d (readV s a) k.toNat (lanesOf s (.vbexp h d a k))) s

/-- VPACK (R141) -/
def execVpack (h : TH) (d a : Reg) (k : BitVec 5) (s : State) : Host.Outcome State Fault Refusal :=
  runSlot (.vpack h d a k) (fun s => putV s d (vpackVal (readV s a) k.toNat) (lanesOf s (.vpack h d a k)) 2 0 false) s

/-- VUNPK (R141) -/
def execVunpk (h : TH) (d a : Reg) (k : BitVec 5) (s : State) : Host.Outcome State Fault Refusal :=
  runSlot (.vunpk h d a k) (fun s => putV s d (vunpkVal (readV s a) k.toNat) (lanesOf s (.vunpk h d a k)) 2 0 false) s

/-- VLGENC (R142) -/
def execVlgenc (h : TH) (d a : Reg) (s : State) : Host.Outcome State Fault Refusal :=
  runSlot (.vlgenc h d a) (fun s => flagResult s d (lanesOf s (.vlgenc h d a)) (fpWin s 4 8) fun i =>
      let r := lgEncode (fl32 s (readV s a) i); (r.1.toNat, r.2)) s

/-- VLGDEC (R142) -/
def execVlgdec (h : TH) (d a : Reg) (s : State) : Host.Outcome State Fault Refusal :=
  runSlot (.vlgdec h d a) (fun s => flagResult s d (lanesOf s (.vlgdec h d a)) (fpWin s 4 8) fun i =>
      (lgDecode ((lane (readV s a) i).setWidth 6), 0)) s

/-- VRADD (R143) -/
def execVradd (h : TH) (d a : Reg) (s : State) : Host.Outcome State Fault Refusal :=
  runSlot (.vradd h d a) (fun s => putV s d (ofLanes fun _ => BitVec.ofInt 32 ((lanesList (lanesOf s (.vradd h d a))).map (sl (readV s a))).sum)
      (lanesOf s (.vradd h d a)) 4 0 false) s

/-- VRMAX (R143) -/
def execVrmax (h : TH) (d a : Reg) (s : State) : Host.Outcome State Fault Refusal :=
  runSlot (.vrmax h d a) (fun s => putV s d (ofLanes fun _ => BitVec.ofInt 32 (extremeLane (readV s a) true (lanesList (lanesOf s (.vrmax h d a)))))
      (lanesOf s (.vrmax h d a)) 4 0 false) s

/-- VRMIN (R143) -/
def execVrmin (h : TH) (d a : Reg) (s : State) : Host.Outcome State Fault Refusal :=
  runSlot (.vrmin h d a) (fun s => putV s d (ofLanes fun _ => BitVec.ofInt 32 (extremeLane (readV s a) false (lanesList (lanesOf s (.vrmin h d a)))))
      (lanesOf s (.vrmin h d a)) 4 0 false) s

/-- VPERM (R144) -/
def execVperm (h : TH) (d a b : Reg) (s : State) : Host.Outcome State Fault Refusal :=
  runSlot (.vperm h d a b) (fun s => laneResult s d (lanesOf s (.vperm h d a b)) fun i => lane (readV s a) ((lane (readV s b) i).toNat % 32)) s

/-- VROTL (R144) -/
def execVrotl (h : TH) (d a : Reg) (k : BitVec 5) (s : State) : Host.Outcome State Fault Refusal :=
  runSlot (.vrotl h d a k) (fun s => laneResult s d (lanesOf s (.vrotl h d a k)) fun i => lane (readV s a) ((i + 32 - k.toNat) % 32)) s

/-- VIOTA (R144) -/
def execViota (h : TH) (d : Reg) (a : PReg) (s : State) : Host.Outcome State Fault Refusal :=
  runSlot (.viota h d a) (fun s => laneResult s d (lanesOf s (.viota h d a)) fun i =>
      BitVec.ofNat 32 ((List.range i).countP fun j => (readP s a).getLsbD j)) s

/-- VNRM (R145) -/
def execVnrm (h : TH) (d a : Reg) (s : State) : Host.Outcome State Fault Refusal :=
  runSlot (.vnrm h d a) (fun s => vnrmOp s d (readV s a) (lanesOf s (.vnrm h d a))) s

end Sys2Proof.Machine
end

