-- ==== Sys2Proof/Machine/VectorMem.lean ====
section
/-! DEFINITION. The vector memory instructions (R146 to R155). -/

namespace Sys2Proof.Machine

/-- VLD (R150) -/
def execVld (h : MH) (d a : Reg) (x : Idx) (s : State) : Host.Outcome State Fault Refusal :=
  runSlot (.vld h d a x) (fun s => loadVector s d (scalarRef s a x) (contigLocs s (scalarRef s a x) 4 (lanesOf s (.vld h d a x))) 4 false h.oc (lanesOf s (.vld h d a x))) s

/-- VLDX8 (R150) -/
def execVldx8 (h : MH) (d a : Reg) (x : Idx) (s : State) : Host.Outcome State Fault Refusal :=
  runSlot (.vldx8 h d a x) (fun s => loadVector s d (scalarRef s a x) (contigLocs s (scalarRef s a x) 1 (lanesOf s (.vldx8 h d a x))) 1 false h.oc (lanesOf s (.vldx8 h d a x))) s

/-- VLDX16 (R150) -/
def execVldx16 (h : MH) (d a : Reg) (x : Idx) (s : State) : Host.Outcome State Fault Refusal :=
  runSlot (.vldx16 h d a x) (fun s => loadVector s d (scalarRef s a x) (contigLocs s (scalarRef s a x) 2 (lanesOf s (.vldx16 h d a x))) 2 false h.oc (lanesOf s (.vldx16 h d a x))) s

/-- VST (R151) -/
def execVst (h : MH) (d a : Reg) (x : Idx) (s : State) : Host.Outcome State Fault Refusal :=
  runSlot (.vst h d a x) (fun s => storeVector s (scalarRef s a x) (contigLocs s (scalarRef s a x) 4 (lanesOf s (.vst h d a x))) 4 (readV s d) 0 h.oc (lanesOf s (.vst h d a x)) false) s

/-- VSTN8 (R151) -/
def execVstn8 (h : MH) (d a : Reg) (x : Idx) (s : State) : Host.Outcome State Fault Refusal :=
  runSlot (.vstn8 h d a x) (fun s => storeVector s (scalarRef s a x) (contigLocs s (scalarRef s a x) 1 (lanesOf s (.vstn8 h d a x))) 1 (readV s d) 0 h.oc (lanesOf s (.vstn8 h d a x)) false) s

/-- VSTN16 (R151) -/
def execVstn16 (h : MH) (d a : Reg) (x : Idx) (s : State) : Host.Outcome State Fault Refusal :=
  runSlot (.vstn16 h d a x) (fun s => storeVector s (scalarRef s a x) (contigLocs s (scalarRef s a x) 2 (lanesOf s (.vstn16 h d a x))) 2 (readV s d) 0 h.oc (lanesOf s (.vstn16 h d a x)) false) s

/-- VLDS (R150) -/
def execVlds (pg : BitVec 3) (d a : Reg) (x : Idx) (s : State) : Host.Outcome State Fault Refusal :=
  runSlot (.vlds pg d a x) (fun s => loadVector s d (scalarRef s a x) (contigLocs s (scalarRef s a x) 4 (lanesOf s (.vlds pg d a x))) 4 false 0 (lanesOf s (.vlds pg d a x))) s

/-- VSTS (R151) -/
def execVsts (pg : BitVec 3) (d a : Reg) (x : Idx) (s : State) : Host.Outcome State Fault Refusal :=
  runSlot (.vsts pg d a x) (fun s => storeVector s (scalarRef s a x) (contigLocs s (scalarRef s a x) 4 (lanesOf s (.vsts pg d a x))) 4 (readV s d) 0 0 (lanesOf s (.vsts pg d a x)) false) s

/-- VGTH (R150) -/
def execVgth (h : MH) (d a b : Reg) (s : State) : Host.Outcome State Fault Refusal :=
  runSlot (.vgth h d a b) (fun s => loadVector s d (readG s a) (gatherLocs s (readG s a) (readV s b) (lanesOf s (.vgth h d a b))) 4 false h.oc (lanesOf s (.vgth h d a b))) s

/-- VSCT (R151) -/
def execVsct (h : MH) (d a b : Reg) (s : State) : Host.Outcome State Fault Refusal :=
  runSlot (.vsct h d a b) (fun s => storeVector s (readG s a) (gatherLocs s (readG s a) (readV s b) (lanesOf s (.vsct h d a b))) 4 (readV s d) (readV s b) h.oc (lanesOf s (.vsct h d a b)) true) s

/-- VLDA (R153) -/
def execVlda (h : MH) (d a : Reg) (x : Idx) (s : State) : Host.Outcome State Fault Refusal :=
  runSlot (.vlda h d a x) (fun s => loadVector s d (scalarRef s a x) (contigLocs s (scalarRef s a x) 4 (lanesOf s (.vlda h d a x))) 4 true h.oc (lanesOf s (.vlda h d a x))) s

/-- VSTL (R153) -/
def execVstl (h : MH) (d a : Reg) (x : Idx) (s : State) : Host.Outcome State Fault Refusal :=
  runSlot (.vstl h d a x) (fun s => storeVectorRelease s (scalarRef s a x) (contigLocs s (scalarRef s a x) 4 (lanesOf s (.vstl h d a x))) (readV s d) h.oc (lanesOf s (.vstl h d a x))) s

/-- VAADD (R154) -/
def execVaadd (h : MH) (d a : Reg) (x : Idx) (s : State) : Host.Outcome State Fault Refusal :=
  runSlot (.vaadd h d a x) (fun s => atomicVector s .add d (scalarRef s a x) (contigLocs s (scalarRef s a x) 4 (lanesOf s (.vaadd h d a x))) (readV s d) h.oc (lanesOf s (.vaadd h d a x))) s

/-- VAMIN (R154) -/
def execVamin (h : MH) (d a : Reg) (x : Idx) (s : State) : Host.Outcome State Fault Refusal :=
  runSlot (.vamin h d a x) (fun s => atomicVector s .min d (scalarRef s a x) (contigLocs s (scalarRef s a x) 4 (lanesOf s (.vamin h d a x))) (readV s d) h.oc (lanesOf s (.vamin h d a x))) s

/-- VAMAX (R154) -/
def execVamax (h : MH) (d a : Reg) (x : Idx) (s : State) : Host.Outcome State Fault Refusal :=
  runSlot (.vamax h d a x) (fun s => atomicVector s .max d (scalarRef s a x) (contigLocs s (scalarRef s a x) 4 (lanesOf s (.vamax h d a x))) (readV s d) h.oc (lanesOf s (.vamax h d a x))) s

/-- VASWP (R154) -/
def execVaswp (h : MH) (d a : Reg) (x : Idx) (s : State) : Host.Outcome State Fault Refusal :=
  runSlot (.vaswp h d a x) (fun s => atomicVector s .swp d (scalarRef s a x) (contigLocs s (scalarRef s a x) 4 (lanesOf s (.vaswp h d a x))) (readV s d) h.oc (lanesOf s (.vaswp h d a x))) s

end Sys2Proof.Machine
end

