-- ==== Sys2Proof/Machine/Dispatch.lean ====
section
/-! DEFINITION. One arm for each constructor of Instr: the meaning of each slot and event. -/

namespace Sys2Proof.Machine

def exec (i : Instr) (s : State) : Host.Outcome State Fault Refusal :=
  match i with
  | .add h d a b => Sys2Proof.Machine.execAdd h d a b s
  | .sub h d a b => Sys2Proof.Machine.execSub h d a b s
  | .addi h d a im => Sys2Proof.Machine.execAddi h d a im s
  | .mul h d a b => Sys2Proof.Machine.execMul h d a b s
  | .mulh h d a b => Sys2Proof.Machine.execMulh h d a b s
  | .mulhn h d a b => Sys2Proof.Machine.execMulhn h d a b s
  | .div h d a b => Sys2Proof.Machine.execDiv h d a b s
  | .divn h d a b => Sys2Proof.Machine.execDivn h d a b s
  | .rem h d a b => Sys2Proof.Machine.execRem h d a b s
  | .remn h d a b => Sys2Proof.Machine.execRemn h d a b s
  | .and h d a b => Sys2Proof.Machine.execAnd h d a b s
  | .or h d a b => Sys2Proof.Machine.execOr h d a b s
  | .xor h d a b => Sys2Proof.Machine.execXor h d a b s
  | .andn h d a b => Sys2Proof.Machine.execAndn h d a b s
  | .andi h d a im => Sys2Proof.Machine.execAndi h d a im s
  | .ori h d a im => Sys2Proof.Machine.execOri h d a im s
  | .xori h d a im => Sys2Proof.Machine.execXori h d a im s
  | .shl h d a b => Sys2Proof.Machine.execShl h d a b s
  | .shr h d a b => Sys2Proof.Machine.execShr h d a b s
  | .sha h d a b => Sys2Proof.Machine.execSha h d a b s
  | .shli h d a im => Sys2Proof.Machine.execShli h d a im s
  | .shri h d a im => Sys2Proof.Machine.execShri h d a im s
  | .shai h d a im => Sys2Proof.Machine.execShai h d a im s
  | .rot h d a b => Sys2Proof.Machine.execRot h d a b s
  | .min h d a b => Sys2Proof.Machine.execMin h d a b s
  | .max h d a b => Sys2Proof.Machine.execMax h d a b s
  | .minn h d a b => Sys2Proof.Machine.execMinn h d a b s
  | .maxn h d a b => Sys2Proof.Machine.execMaxn h d a b s
  | .abs h d a => Sys2Proof.Machine.execAbs h d a s
  | .clz h d a => Sys2Proof.Machine.execClz h d a s
  | .ctz h d a => Sys2Proof.Machine.execCtz h d a s
  | .popc h d a => Sys2Proof.Machine.execPopc h d a s
  | .bext h d a im => Sys2Proof.Machine.execBext h d a im s
  | .bins h d a im => Sys2Proof.Machine.execBins h d a im s
  | .sext h d a im => Sys2Proof.Machine.execSext h d a im s
  | .zext h d a im => Sys2Proof.Machine.execZext h d a im s
  | .sel h d a b => Sys2Proof.Machine.execSel h d a b s
  | .movi h d im => Sys2Proof.Machine.execMovi h d im s
  | .cmpeq h d a b => Sys2Proof.Machine.execCmpeq h d a b s
  | .cmpne h d a b => Sys2Proof.Machine.execCmpne h d a b s
  | .cmplt h d a b => Sys2Proof.Machine.execCmplt h d a b s
  | .cmple h d a b => Sys2Proof.Machine.execCmple h d a b s
  | .cmpltn h d a b => Sys2Proof.Machine.execCmpltn h d a b s
  | .cmplen h d a b => Sys2Proof.Machine.execCmplen h d a b s
  | .cmpeqi h d a im => Sys2Proof.Machine.execCmpeqi h d a im s
  | .cmplti h d a im => Sys2Proof.Machine.execCmplti h d a im s
  | .pand h d a b => Sys2Proof.Machine.execPand h d a b s
  | .por h d a b => Sys2Proof.Machine.execPor h d a b s
  | .pxor h d a b => Sys2Proof.Machine.execPxor h d a b s
  | .pandn h d a b => Sys2Proof.Machine.execPandn h d a b s
  | .pany h d a => Sys2Proof.Machine.execPany h d a s
  | .pall h d a => Sys2Proof.Machine.execPall h d a s
  | .pset h d a => Sys2Proof.Machine.execPset h d a s
  | .pget h d a => Sys2Proof.Machine.execPget h d a s
  | .pcnt h d a => Sys2Proof.Machine.execPcnt h d a s
  | .ldb h d a x => Sys2Proof.Machine.execLdb h d a x s
  | .ldbn h d a x => Sys2Proof.Machine.execLdbn h d a x s
  | .ldh h d a x => Sys2Proof.Machine.execLdh h d a x s
  | .ldhn h d a x => Sys2Proof.Machine.execLdhn h d a x s
  | .ldw h d a x => Sys2Proof.Machine.execLdw h d a x s
  | .ldwn h d a x => Sys2Proof.Machine.execLdwn h d a x s
  | .ldd h d a x => Sys2Proof.Machine.execLdd h d a x s
  | .stb h d a x => Sys2Proof.Machine.execStb h d a x s
  | .sth h d a x => Sys2Proof.Machine.execSth h d a x s
  | .stw h d a x => Sys2Proof.Machine.execStw h d a x s
  | .std h d a x => Sys2Proof.Machine.execStd h d a x s
  | .lda h d a x => Sys2Proof.Machine.execLda h d a x s
  | .stl h d a x => Sys2Proof.Machine.execStl h d a x s
  | .aadd h d a x => Sys2Proof.Machine.execAadd h d a x s
  | .aand h d a x => Sys2Proof.Machine.execAand h d a x s
  | .aor h d a x => Sys2Proof.Machine.execAor h d a x s
  | .axor h d a x => Sys2Proof.Machine.execAxor h d a x s
  | .amin h d a x => Sys2Proof.Machine.execAmin h d a x s
  | .amax h d a x => Sys2Proof.Machine.execAmax h d a x s
  | .aswp h d a x => Sys2Proof.Machine.execAswp h d a x s
  | .acas h d a x => Sys2Proof.Machine.execAcas h d a x s
  | .fnc pg im => Sys2Proof.Machine.execFnc pg im s
  | .pfl pg l a x => Sys2Proof.Machine.execPfl pg l a x s
  | .br h x => Sys2Proof.Machine.execBr h x s
  | .brl h x => Sys2Proof.Machine.execBrl h x s
  | .jr h a => Sys2Proof.Machine.execJr h a s
  | .jrl h a => Sys2Proof.Machine.execJrl h a s
  | .loop h d im => Sys2Proof.Machine.execLoop h d im s
  | .vmov h d a => Sys2Proof.Machine.execVmov h d a s
  | .vadd h d a b => Sys2Proof.Machine.execVadd h d a b s
  | .vsub h d a b => Sys2Proof.Machine.execVsub h d a b s
  | .vadds h d a b => Sys2Proof.Machine.execVadds h d a b s
  | .vsubs h d a b => Sys2Proof.Machine.execVsubs h d a b s
  | .vmul h d a b => Sys2Proof.Machine.execVmul h d a b s
  | .vmulh h d a b => Sys2Proof.Machine.execVmulh h d a b s
  | .vmad h d a b => Sys2Proof.Machine.execVmad h d a b s
  | .vand h d a b => Sys2Proof.Machine.execVand h d a b s
  | .vor h d a b => Sys2Proof.Machine.execVor h d a b s
  | .vxor h d a b => Sys2Proof.Machine.execVxor h d a b s
  | .vandn h d a b => Sys2Proof.Machine.execVandn h d a b s
  | .vshl h d a b => Sys2Proof.Machine.execVshl h d a b s
  | .vshr h d a b => Sys2Proof.Machine.execVshr h d a b s
  | .vsha h d a b => Sys2Proof.Machine.execVsha h d a b s
  | .vmin h d a b => Sys2Proof.Machine.execVmin h d a b s
  | .vmax h d a b => Sys2Proof.Machine.execVmax h d a b s
  | .vminn h d a b => Sys2Proof.Machine.execVminn h d a b s
  | .vmaxn h d a b => Sys2Proof.Machine.execVmaxn h d a b s
  | .vabs h d a => Sys2Proof.Machine.execVabs h d a s
  | .vcmpeq h d a b => Sys2Proof.Machine.execVcmpeq h d a b s
  | .vcmplt h d a b => Sys2Proof.Machine.execVcmplt h d a b s
  | .vcmple h d a b => Sys2Proof.Machine.execVcmple h d a b s
  | .vcmpltn h d a b => Sys2Proof.Machine.execVcmpltn h d a b s
  | .vsel h d a b => Sys2Proof.Machine.execVsel h d a b s
  | .vfadd h d a b => Sys2Proof.Machine.execVfadd h d a b s
  | .vfsub h d a b => Sys2Proof.Machine.execVfsub h d a b s
  | .vfmul h d a b => Sys2Proof.Machine.execVfmul h d a b s
  | .vfma h d a b => Sys2Proof.Machine.execVfma h d a b s
  | .vfnma h d a b => Sys2Proof.Machine.execVfnma h d a b s
  | .vfdiv h d a b => Sys2Proof.Machine.execVfdiv h d a b s
  | .vfsqrt h d a => Sys2Proof.Machine.execVfsqrt h d a s
  | .vfmin h d a b => Sys2Proof.Machine.execVfmin h d a b s
  | .vfmax h d a b => Sys2Proof.Machine.execVfmax h d a b s
  | .vfcmpeq h d a b => Sys2Proof.Machine.execVfcmpeq h d a b s
  | .vfcmplt h d a b => Sys2Proof.Machine.execVfcmplt h d a b s
  | .vfcmple h d a b => Sys2Proof.Machine.execVfcmple h d a b s
  | .vdadd h d a b => Sys2Proof.Machine.execVdadd h d a b s
  | .vdmul h d a b => Sys2Proof.Machine.execVdmul h d a b s
  | .vdfma h d a b => Sys2Proof.Machine.execVdfma h d a b s
  | .vddiv h d a b => Sys2Proof.Machine.execVddiv h d a b s
  | .vdcmplt h d a b => Sys2Proof.Machine.execVdcmplt h d a b s
  | .vfcvt h d a k => Sys2Proof.Machine.execVfcvt h d a k s
  | .vftoi h d a => Sys2Proof.Machine.execVftoi h d a s
  | .vitof h d a => Sys2Proof.Machine.execVitof h d a s
  | .vqnt h d a k => Sys2Proof.Machine.execVqnt h d a k s
  | .vbexp h d a k => Sys2Proof.Machine.execVbexp h d a k s
  | .vpack h d a k => Sys2Proof.Machine.execVpack h d a k s
  | .vunpk h d a k => Sys2Proof.Machine.execVunpk h d a k s
  | .vlgenc h d a => Sys2Proof.Machine.execVlgenc h d a s
  | .vlgdec h d a => Sys2Proof.Machine.execVlgdec h d a s
  | .vradd h d a => Sys2Proof.Machine.execVradd h d a s
  | .vrmax h d a => Sys2Proof.Machine.execVrmax h d a s
  | .vrmin h d a => Sys2Proof.Machine.execVrmin h d a s
  | .vperm h d a b => Sys2Proof.Machine.execVperm h d a b s
  | .vrotl h d a k => Sys2Proof.Machine.execVrotl h d a k s
  | .viota h d a => Sys2Proof.Machine.execViota h d a s
  | .vnrm h d a => Sys2Proof.Machine.execVnrm h d a s
  | .vld h d a x => Sys2Proof.Machine.execVld h d a x s
  | .vldx8 h d a x => Sys2Proof.Machine.execVldx8 h d a x s
  | .vldx16 h d a x => Sys2Proof.Machine.execVldx16 h d a x s
  | .vst h d a x => Sys2Proof.Machine.execVst h d a x s
  | .vstn8 h d a x => Sys2Proof.Machine.execVstn8 h d a x s
  | .vstn16 h d a x => Sys2Proof.Machine.execVstn16 h d a x s
  | .vlds pg d a x => Sys2Proof.Machine.execVlds pg d a x s
  | .vsts pg d a x => Sys2Proof.Machine.execVsts pg d a x s
  | .vgth h d a b => Sys2Proof.Machine.execVgth h d a b s
  | .vsct h d a b => Sys2Proof.Machine.execVsct h d a b s
  | .vlda h d a x => Sys2Proof.Machine.execVlda h d a x s
  | .vstl h d a x => Sys2Proof.Machine.execVstl h d a x s
  | .vaadd h d a x => Sys2Proof.Machine.execVaadd h d a x s
  | .vamin h d a x => Sys2Proof.Machine.execVamin h d a x s
  | .vamax h d a x => Sys2Proof.Machine.execVamax h d a x s
  | .vaswp h d a x => Sys2Proof.Machine.execVaswp h d a x s
  | .tcfg h t a => Sys2Proof.Machine.execTcfg h t a s
  | .tstat h d t => Sys2Proof.Machine.execTstat h d t s
  | .tfree h t => Sys2Proof.Machine.execTfree h t s
  | .mma e z ta tb k tr ac => Sys2Proof.Machine.execMma e z ta tb k tr ac s
  | .mmat e z ta tb k tr ac => Sys2Proof.Machine.execMmat e z ta tb k tr ac s
  | .zclr h z im => Sys2Proof.Machine.execZclr h z im s
  | .zst e z t u k => Sys2Proof.Machine.execZst e z t u k s
  | .zld e z t k => Sys2Proof.Machine.execZld e z t k s
  | .zadd h d a => Sys2Proof.Machine.execZadd h d a s
  | .zfree h z => Sys2Proof.Machine.execZfree h z s
  | .sqld h q a => Sys2Proof.Machine.execSqld h q a s
  | .sqclr h q => Sys2Proof.Machine.execSqclr h q s
  | .cpin h t a b => Sys2Proof.Machine.execCpin h t a b s
  | .cpout h t a b => Sys2Proof.Machine.execCpout h t a b s
  | .cpcl h d a b => Sys2Proof.Machine.execCpcl h d a b s
  | .cpmc h t a b => Sys2Proof.Machine.execCpmc h t a b s
  | .cpenc h t a b => Sys2Proof.Machine.execCpenc h t a b s
  | .cpsc h d a b => Sys2Proof.Machine.execCpsc h d a b s
  | .trel h t => Sys2Proof.Machine.execTrel h t s
  | .arrwTile h t => Sys2Proof.Machine.execArrwTile h t s
  | .arrwCounter h n a => Sys2Proof.Machine.execArrwCounter h n a s
  | .publ h a => Sys2Proof.Machine.execPubl h a s
  | .licq h => Sys2Proof.Machine.execLicq h s
  | .licr h => Sys2Proof.Machine.execLicr h s
  | .licx h => Sys2Proof.Machine.execLicx h s
  | .zxt h => Sys2Proof.Machine.execZxt h s
  | .vsplat h d a => Sys2Proof.Machine.execVsplat h d a s
  | .vins h d a k => Sys2Proof.Machine.execVins h d a k s
  | .vext h d a k => Sys2Proof.Machine.execVext h d a k s
  | .twset h w a => Sys2Proof.Machine.execTwset h w a s
  | .twget h d w => Sys2Proof.Machine.execTwget h d w s
  | .twclr h w => Sys2Proof.Machine.execTwclr h w s
  | .waypt e => Sys2Proof.Machine.execWaypt e s
  | .trap h im => Sys2Proof.Machine.execTrap h im s
  | .resume h a => Sys2Proof.Machine.execResume h a s
  | .crd h d n => Sys2Proof.Machine.execCrd h d n s
  | .cwr h d n => Sys2Proof.Machine.execCwr h d n s
  | .mona h a b => Sys2Proof.Machine.execMona h a b s
  | .mnap h d a => Sys2Proof.Machine.execMnap h d a s
  | .rqpg h d a b => Sys2Proof.Machine.execRqpg h d a b s
  | .taskl h d a => Sys2Proof.Machine.execTaskl h d a s
  | .taskr h => Sys2Proof.Machine.execTaskr h s
  | .dsig h a => Sys2Proof.Machine.execDsig h a s
  | .claim h k a => Sys2Proof.Machine.execClaim h k a s
  | .yield h => Sys2Proof.Machine.execYield h s
  | .seal h a b => Sys2Proof.Machine.execSeal h a b s
  | .unseal h a b => Sys2Proof.Machine.execUnseal h a b s
  | .vjoin h => Sys2Proof.Machine.execVjoin h s
  | .dcflLine h a => Sys2Proof.Machine.execDcflLine h a s
  | .dcflL2 h => Sys2Proof.Machine.execDcflL2 h s
  | .dcinvLine h a => Sys2Proof.Machine.execDcinvLine h a s
  | .dcinvL2 h => Sys2Proof.Machine.execDcinvL2 h s
  | .icinv h => Sys2Proof.Machine.execIcinv h s
  | .halt h => Sys2Proof.Machine.execHalt h s
  | .evsig h a => Sys2Proof.Machine.execEvsig h a s
  | .bundleFetch => Sys2Proof.Machine.execBundleFetch s
  | .waypointCommit c x => Sys2Proof.Machine.execWaypointCommit c x s
  | .resultLanding c x => Sys2Proof.Machine.execResultLanding c x s
  | .longLoadReturn c x n => Sys2Proof.Machine.execLongLoadReturn c x n s
  | .storePerformed c x => Sys2Proof.Machine.execStorePerformed c x s
  | .monitorArmEstablished c x => Sys2Proof.Machine.execMonitorArmEstablished c x s
  | .mnapWake c x => Sys2Proof.Machine.execMnapWake c x s
  | .mnapTimeout c x => Sys2Proof.Machine.execMnapTimeout c x s
  | .l2Writeback d ln => Sys2Proof.Machine.execL2Writeback d ln s
  | .trapDelivery c x => Sys2Proof.Machine.execTrapDelivery c x s
  | .scaleEntryWrite c q => Sys2Proof.Machine.execScaleEntryWrite c q s
  | .matrixBeat c => Sys2Proof.Machine.execMatrixBeat c s
  | .drainComplete c => Sys2Proof.Machine.execDrainComplete c s
  | .copyDelivery c x n => Sys2Proof.Machine.execCopyDelivery c x n s
  | .copyComplete c x n => Sys2Proof.Machine.execCopyComplete c x n s
  | .relayDelivery c x n k => Sys2Proof.Machine.execRelayDelivery c x n k s
  | .relayHoldTimeout c x n => Sys2Proof.Machine.execRelayHoldTimeout c x n s
  | .publSwap c x => Sys2Proof.Machine.execPublSwap c x s
  | .passingGapEnd pr => Sys2Proof.Machine.execPassingGapEnd pr s
  | .zxtMoveDone c x => Sys2Proof.Machine.execZxtMoveDone c x s
  | .parkedRestoreDone c x => Sys2Proof.Machine.execParkedRestoreDone c x s
  | .licmodeWrite pr v => Sys2Proof.Machine.execLicmodeWrite pr v s
  | .licmodeTakesEffect pr => Sys2Proof.Machine.execLicmodeTakesEffect pr s
  | .bankkeyWrite c x v => Sys2Proof.Machine.execBankkeyWrite c x v s
  | .nwatchWrite c x v => Sys2Proof.Machine.execNwatchWrite c x v s
  | .registerWrite c x ix v => Sys2Proof.Machine.execRegisterWrite c x ix v s
  | .contextPreemption c x => Sys2Proof.Machine.execContextPreemption c x s
  | .predrainExpiry c x => Sys2Proof.Machine.execPredrainExpiry c x s
  | .prewaitExpiry cl => Sys2Proof.Machine.execPrewaitExpiry cl s
  | .contextSaveDone sl => Sys2Proof.Machine.execContextSaveDone sl s
  | .contextRestore sl => Sys2Proof.Machine.execContextRestore sl s
  | .taskPlacement t c x => Sys2Proof.Machine.execTaskPlacement t c x s
  | .dieClearDone d => Sys2Proof.Machine.execDieClearDone d s
  | .allowExpiry c x => Sys2Proof.Machine.execAllowExpiry c x s
  | .taskRetirement c x => Sys2Proof.Machine.execTaskRetirement c x s
  | .tilePublication t => Sys2Proof.Machine.execTilePublication t s
  | .manifestEntry => Sys2Proof.Machine.execManifestEntry s
  | .dsigApply => Sys2Proof.Machine.execDsigApply s
  | .caravanDecode sq q => Sys2Proof.Machine.execCaravanDecode sq q s
  | .deadlineExpiry sq q => Sys2Proof.Machine.execDeadlineExpiry sq q s
  | .pageRequestService => Sys2Proof.Machine.execPageRequestService s
  | .hostMemoryWrite ad sz v => Sys2Proof.Machine.execHostMemoryWrite ad sz v s
  | .hostMemoryRead ad sz => Sys2Proof.Machine.execHostMemoryRead ad sz s
  | .mqtailWrite n v => Sys2Proof.Machine.execMqtailWrite n v s
  | .mqctlWrite n v => Sys2Proof.Machine.execMqctlWrite n v s
  | .cmdtailWrite v => Sys2Proof.Machine.execCmdtailWrite v s
  | .ringBaseWrite rg v => Sys2Proof.Machine.execRingBaseWrite rg v s
  | .rpackWrite v => Sys2Proof.Machine.execRpackWrite v s
  | .manifestQueueTake n => Sys2Proof.Machine.execManifestQueueTake n s
  | .queueSwitch qin qout => Sys2Proof.Machine.execQueueSwitch qin qout s
  | .tensor w0 w1 w2 => Sys2Proof.Machine.execTensor w0 w1 w2 s
  | .map w0 w1 w2 => Sys2Proof.Machine.execMap w0 w1 w2 s
  | .evict w0 w1 w2 => Sys2Proof.Machine.execEvict w0 w1 w2 s
  | .evictionDone w0 w1 => Sys2Proof.Machine.execEvictionDone w0 w1 s
  | .delete w0 w1 w2 => Sys2Proof.Machine.execDelete w0 w1 w2 s
  | .refuse w0 w1 w2 => Sys2Proof.Machine.execRefuse w0 w1 w2 s
  | .evack w0 w1 w2 => Sys2Proof.Machine.execEvack w0 w1 w2 s
  | .rqpool w0 w1 w2 => Sys2Proof.Machine.execRqpool w0 w1 w2 s
  | .reportWrite => Sys2Proof.Machine.execReportWrite s
  | .pool ms w1 w2 => Sys2Proof.Machine.execPool ms w1 w2 s
  | .preempt ms w1 w2 => Sys2Proof.Machine.execPreempt ms w1 w2 s
  | .mailboxResume ms w1 w2 => Sys2Proof.Machine.execMailboxResume ms w1 w2 s
  | .mailboxEnd ms w1 w2 => Sys2Proof.Machine.execMailboxEnd ms w1 w2 s
  | .thaw ms w1 w2 => Sys2Proof.Machine.execThaw ms w1 w2 s
  | .move ms w1 w2 => Sys2Proof.Machine.execMove ms w1 w2 s
  | .diereset ms w1 w2 => Sys2Proof.Machine.execDiereset ms w1 w2 s
  | .setreg ms w1 w2 => Sys2Proof.Machine.execSetreg ms w1 w2 s
  | .getreg ms w1 w3 => Sys2Proof.Machine.execGetreg ms w1 w3 s
  | .fabricManifest pid hs img => Sys2Proof.Machine.execFabricManifest pid hs img s
  | .resquery pid tids => Sys2Proof.Machine.execResquery pid tids s
  | .residencyReportTimer => Sys2Proof.Machine.execResidencyReportTimer s
  | .messageArrival a b sq m => Sys2Proof.Machine.execMessageArrival a b sq m s
  | .gapTimeout a b => Sys2Proof.Machine.execGapTimeout a b s
  | .resendRequest a b sq => Sys2Proof.Machine.execResendRequest a b sq s
  | .cumulativeAck a b sq => Sys2Proof.Machine.execCumulativeAck a b sq s
  | .pairBroken a b => Sys2Proof.Machine.execPairBroken a b s
  | .transitDrainTimeout d => Sys2Proof.Machine.execTransitDrainTimeout d s
  | .dieResetPhase d => Sys2Proof.Machine.execDieResetPhase d s
  | .checkpointCapture d => Sys2Proof.Machine.execCheckpointCapture d s
  | .droverBlockCopy d bk => Sys2Proof.Machine.execDroverBlockCopy d bk s
  | .checkpointCommit d => Sys2Proof.Machine.execCheckpointCommit d s
  | .clkpatWrite cl v => Sys2Proof.Machine.execClkpatWrite cl v s
  | .clgrantWrite cl v => Sys2Proof.Machine.execClgrantWrite cl v s
  | .eprofWrite d n v => Sys2Proof.Machine.execEprofWrite d n v s
  | .rbctlWrite c v => Sys2Proof.Machine.execRbctlWrite c v s
  | .bankTransitionDone c b => Sys2Proof.Machine.execBankTransitionDone c b s
  | .mclkfWrite st v => Sys2Proof.Machine.execMclkfWrite st v s
  | .clockChange st => Sys2Proof.Machine.execClockChange st s
  | .quiesce cl => Sys2Proof.Machine.execQuiesce cl s
  | .retain cl => Sys2Proof.Machine.execRetain cl s
  | .clkoff cl => Sys2Proof.Machine.execClkoff cl s
  | .railoff cl => Sys2Proof.Machine.execRailoff cl s
  | .clusterRailOn cl => Sys2Proof.Machine.execClusterRailOn cl s
  | .clusterClockRestart cl => Sys2Proof.Machine.execClusterClockRestart cl s
  | .clusterRetentionExit cl => Sys2Proof.Machine.execClusterRetentionExit cl s
  | .run cl => Sys2Proof.Machine.execRun cl s
  | .clusterStepDone cl => Sys2Proof.Machine.execClusterStepDone cl s
  | .wakesetWrite d v => Sys2Proof.Machine.execWakesetWrite d v s
  | .managementWake c x => Sys2Proof.Machine.execManagementWake c x s
  | .thermalPoll raw => Sys2Proof.Machine.execThermalPoll raw s
  | .healthWrite v => Sys2Proof.Machine.execHealthWrite v s
  | .locatedWindowReset => Sys2Proof.Machine.execLocatedWindowReset s
  | .fabctlWrite v => Sys2Proof.Machine.execFabctlWrite v s
  | .fabricModeChange => Sys2Proof.Machine.execFabricModeChange s
  | .packageReset => Sys2Proof.Machine.execPackageReset s
  | .commandRingTake => Sys2Proof.Machine.execCommandRingTake s
  | .l1Eviction c ln => Sys2Proof.Machine.execL1Eviction c ln s
  | .softError ad xr => Sys2Proof.Machine.execSoftError ad xr s

end Sys2Proof.Machine
end

