-- ==== Sys2Proof/Machine/Step.lean ====
section
/-! DEFINITION. One step of the package, and the placing of one table word where the step takes its next instruction. -/

namespace Sys2Proof.Machine

/-- One step: the next row runs, or the clock moves. -/
def step (s : State) : Host.Outcome State Fault Refusal :=
  match nextTurn s with
  | .row i t => exec i t
  | .due d t => runDue d t
  | .work t => .next t
  | .stopped f => .fault f

/-- The state with a table word in the issue buffer of the core in focus, where the next step takes its instruction: the slot of
a bundle that BUNDLE_FETCH has handed to issue (log entry 14). Words above the table's bits are zero and are no LX slot. -/
def State.withFetchWord (s : State) (nbits w : Nat) : State :=
  { s with latch := { s.latch with
      words := if nbits = 32 then [w % 2 ^ 32] else []
      slot := 0
      checked := false
      hold := false } }

end Sys2Proof.Machine
end

