-- ==== Sys2Proof/Safety.lean ====
section
/-! DEFINITION. The terms the claims use: a safe state, when a slot issues, and what the issue of a slot changes and leaves as it was. -/

namespace Sys2Proof

/-- The memory is in its canonical form. -/
def Safe (s : Machine.State) : Prop := s.mem.wf = true

namespace Machine

/-- A due event runs as the row of the table that bears its name, with its operands. -/
def RunsAsRow (s : State) : Due → Prop
  | .bundleFetch => runDue .bundleFetch s = exec .bundleFetch s
  | .contextPreemption c x => runDue (.contextPreemption c x) s = exec (.contextPreemption c x) s
  | .waypointCommit c x => runDue (.waypointCommit c x) s = exec (.waypointCommit c x) s
  | .resultLanding c x => runDue (.resultLanding c x) s = exec (.resultLanding c x) s
  | .longLoadReturn c x n => runDue (.longLoadReturn c x n) s = exec (.longLoadReturn c x n) s
  | .storePerformed c x => runDue (.storePerformed c x) s = exec (.storePerformed c x) s
  | .monitorArmEstablished c x => runDue (.monitorArmEstablished c x) s = exec (.monitorArmEstablished c x) s
  | .mnapWake c x => runDue (.mnapWake c x) s = exec (.mnapWake c x) s
  | .mnapTimeout c x => runDue (.mnapTimeout c x) s = exec (.mnapTimeout c x) s
  | .trapDelivery c x => runDue (.trapDelivery c x) s = exec (.trapDelivery c x) s
  | .scaleEntryWrite c q => runDue (.scaleEntryWrite c q) s = exec (.scaleEntryWrite c q) s
  | .matrixBeat c => runDue (.matrixBeat c) s = exec (.matrixBeat c) s
  | .drainComplete c => runDue (.drainComplete c) s = exec (.drainComplete c) s
  | .copyDelivery c x n => runDue (.copyDelivery c x n) s = exec (.copyDelivery c x n) s
  | .copyComplete c x n => runDue (.copyComplete c x n) s = exec (.copyComplete c x n) s
  | .relayDelivery c x n k => runDue (.relayDelivery c x n k) s = exec (.relayDelivery c x n k) s
  | .relayHoldTimeout c x n => runDue (.relayHoldTimeout c x n) s = exec (.relayHoldTimeout c x n) s
  | .publSwap c x => runDue (.publSwap c x) s = exec (.publSwap c x) s
  | .passingGapEnd pr => runDue (.passingGapEnd pr) s = exec (.passingGapEnd pr) s
  | .zxtMoveDone c x => runDue (.zxtMoveDone c x) s = exec (.zxtMoveDone c x) s
  | .parkedRestoreDone c x => runDue (.parkedRestoreDone c x) s = exec (.parkedRestoreDone c x) s
  | .licmodeTakesEffect pr => runDue (.licmodeTakesEffect pr) s = exec (.licmodeTakesEffect pr) s
  | .predrainExpiry c x => runDue (.predrainExpiry c x) s = exec (.predrainExpiry c x) s
  | .prewaitExpiry cl => runDue (.prewaitExpiry cl) s = exec (.prewaitExpiry cl) s
  | .contextSaveDone sl => runDue (.contextSaveDone sl) s = exec (.contextSaveDone sl) s
  | .contextRestore sl => runDue (.contextRestore sl) s = exec (.contextRestore sl) s
  | .taskPlacement t c x => runDue (.taskPlacement t c x) s = exec (.taskPlacement t c x) s
  | .dieClearDone d => runDue (.dieClearDone d) s = exec (.dieClearDone d) s
  | .allowExpiry c x => runDue (.allowExpiry c x) s = exec (.allowExpiry c x) s
  | .taskRetirement c x => runDue (.taskRetirement c x) s = exec (.taskRetirement c x) s
  | .tilePublication t => runDue (.tilePublication t) s = exec (.tilePublication t) s
  | .manifestEntry => runDue .manifestEntry s = exec .manifestEntry s
  | .dsigApply => runDue .dsigApply s = exec .dsigApply s
  | .caravanDecode sq q => runDue (.caravanDecode sq q) s = exec (.caravanDecode sq q) s
  | .deadlineExpiry sq q => runDue (.deadlineExpiry sq q) s = exec (.deadlineExpiry sq q) s
  | .pageRequestService => runDue .pageRequestService s = exec .pageRequestService s
  | .manifestQueueTake n => runDue (.manifestQueueTake n) s = exec (.manifestQueueTake n) s
  | .queueSwitch i o => runDue (.queueSwitch i o) s = exec (.queueSwitch i o) s
  | .reportWrite => runDue .reportWrite s = exec .reportWrite s
  | .residencyReportTimer => runDue .residencyReportTimer s = exec .residencyReportTimer s
  | .messageArrival a b sq m => runDue (.messageArrival a b sq m) s = exec (.messageArrival a b sq m) s
  | .gapTimeout a b => runDue (.gapTimeout a b) s = exec (.gapTimeout a b) s
  | .resendRequest a b sq => runDue (.resendRequest a b sq) s = exec (.resendRequest a b sq) s
  | .cumulativeAck a b sq => runDue (.cumulativeAck a b sq) s = exec (.cumulativeAck a b sq) s
  | .pairBroken a b => runDue (.pairBroken a b) s = exec (.pairBroken a b) s
  | .transitDrainTimeout d => runDue (.transitDrainTimeout d) s = exec (.transitDrainTimeout d) s
  | .dieResetPhase d => runDue (.dieResetPhase d) s = exec (.dieResetPhase d) s
  | .checkpointCapture d => runDue (.checkpointCapture d) s = exec (.checkpointCapture d) s
  | .droverBlockCopy d bk => runDue (.droverBlockCopy d bk) s = exec (.droverBlockCopy d bk) s
  | .checkpointCommit d => runDue (.checkpointCommit d) s = exec (.checkpointCommit d) s
  | .bankTransitionDone c b => runDue (.bankTransitionDone c b) s = exec (.bankTransitionDone c b) s
  | .clockChange st => runDue (.clockChange st) s = exec (.clockChange st) s
  | .clusterStepDone cl => runDue (.clusterStepDone cl) s = exec (.clusterStepDone cl) s
  | .managementWake c x => runDue (.managementWake c x) s = exec (.managementWake c x) s
  | .locatedWindowReset => runDue .locatedWindowReset s = exec .locatedWindowReset s
  | .fabricModeChange => runDue .fabricModeChange s = exec .fabricModeChange s
  | .commandRingTake => runDue .commandRingTake s = exec .commandRingTake s
  | .evictionDone w0 w1 => runDue (.evictionDone w0 w1) s = exec (.evictionDone w0 w1) s

/-- A slot issues: BUNDLE_FETCH has made every check of its bundle (R86, R88, R20, R30), or the slot passes its own: no fault at
issue, nothing it blocks on, nothing it waits for, and the core's energy covers its weight. -/
def Issues (s : State) (i : Instr) : Prop :=
  s.latch.checked = true ∨
    (issueFault s i = none ∧ issueBlock s i = none ∧ issueWait s i = false ∧ slotWeight s s.focus i ≤ (myCore s).ebal)

/-- A core but for its contexts and its energy counts. -/
def coreRest (k : Core) : Core := { k with ctxs := .empty, ebal := 0, floorcnt := 0 }

/-- The package but for its cores and the issue buffer: memory, licences, clusters, dies, stacks, processes, the Serai, the host
interface, sensors, package registers, links, time and the model's own scripts. -/
def packRest (s : State) : State := { s with cores := .empty, latch := State.reset.latch }

/-- The state `t` that the issue of slot `i` in state `b` leaves, where the current context becomes `k`, its core's own fields those of
`m` and the package those of `u`: every other context and core, every byte read by any core at any scope, and all that `k`, `m` and `u`
keep of `b` stand as before; the core pays the slot's weight (R29), and the slot leaves the issue buffer. -/
structure Issued (b t : State) (i : Instr) (k : Ctx) (m : Core) (u : State) : Prop where
  ctx : me t = k
  others : ∀ x, x ≠ curX b → getCtx t b.focus x = getCtx b b.focus x
  core : coreRest (myCore t) = coreRest m
  energy : (myCore t).ebal = (myCore b).ebal - slotWeight b b.focus i
  floorcnt : (myCore t).floorcnt = if belowFloor i then (myCore b).floorcnt + 1 else (myCore b).floorcnt
  cores : ∀ c, c ≠ b.focus → getCore t c = getCore b c
  package : packRest t = packRest u
  buffer : t.latch = nextSlot b.latch
  bytes : ∀ c scope a, readAt t c scope a = readAt b c scope a

/-- Nothing but the current context changes, besides what every issue does. -/
def IssuedCtx (b t : State) (i : Instr) (k : Ctx) : Prop := Issued b t i k (myCore b) b

/-- The current context with results added to those in their landing windows. -/
def withFlight (s : State) (fs : List Flight) : Ctx := { me s with flight := (me s).flight ++ fs }

/-- The result of the slot in issue: it enters its landing window, `win` core cycles from its issue cycle on (R14). -/
def inWindow (s : State) (d : Dest) (val : Vec) (mask : Pred) (win : Nat) (flags : BitVec 16) : Flight :=
  { dest := d, val := val, mask := mask, left := win - 1, issued := s.now, acquire := false, flags := flags, residueBad := false,
    slot := s.latch.slot, pc := (me s).bpc }

end Machine

end Sys2Proof
end

