-- ==== Sys2Proof/Safety/Access.lean ====
section
/-! DEFINITION. The access that each memory slot makes, by the rules of chapters 5 and 6, and what it leaves in its context: the tables
that the claims about memory slots use. A slot that no row of a table names makes no access of that kind. -/

namespace Sys2Proof.Machine

/-! ### Scalar accesses (R112, R116, R119, R120) -/

/-- A scalar load: destination, reference, bytes, extension, acquire and ordering class. -/
structure LoadForm where
  dest : Reg
  ref : Word
  width : Nat
  sext : Bool
  acquire : Bool
  cls : BitVec 4

def scalarLoad (s : State) : Instr → Option LoadForm
  | .ldb h d a x => some ⟨d, scalarRef s a x, 1, true, false, h.oc⟩
  | .ldbn h d a x => some ⟨d, scalarRef s a x, 1, false, false, h.oc⟩
  | .ldh h d a x => some ⟨d, scalarRef s a x, 2, true, false, h.oc⟩
  | .ldhn h d a x => some ⟨d, scalarRef s a x, 2, false, false, h.oc⟩
  | .ldw h d a x => some ⟨d, scalarRef s a x, 4, true, false, h.oc⟩
  | .ldwn h d a x => some ⟨d, scalarRef s a x, 4, false, false, h.oc⟩
  | .ldd h d a x => some ⟨d, scalarRef s a x, 8, false, false, h.oc⟩
  | .lda h d a x => some ⟨d, scalarRef s a x, 8, false, true, h.oc⟩
  | _ => none

/-- A scalar store: reference, bytes, value and ordering class. -/
structure StoreForm where
  ref : Word
  width : Nat
  val : Word
  cls : BitVec 4

def scalarStore (s : State) : Instr → Option StoreForm
  | .stb h d a x => some ⟨scalarRef s a x, 1, readG s d, h.oc⟩
  | .sth h d a x => some ⟨scalarRef s a x, 2, readG s d, h.oc⟩
  | .stw h d a x => some ⟨scalarRef s a x, 4, readG s d, h.oc⟩
  | .std h d a x => some ⟨scalarRef s a x, 8, readG s d, h.oc⟩
  | _ => none

/-- An atomic: operation, destination, reference, operand, second operand of a compare and swap, ordering class. -/
structure AtomicForm where
  op : AtomicOp
  dest : Reg
  ref : Word
  x : Word
  y : Word
  cls : BitVec 4

def scalarAtomic (s : State) : Instr → Option AtomicForm
  | .aadd h d a x => some ⟨.add, d, scalarRef s a x, readG s d, 0, h.oc⟩
  | .aand h d a x => some ⟨.and, d, scalarRef s a x, readG s d, 0, h.oc⟩
  | .aor h d a x => some ⟨.or, d, scalarRef s a x, readG s d, 0, h.oc⟩
  | .axor h d a x => some ⟨.xor, d, scalarRef s a x, readG s d, 0, h.oc⟩
  | .amin h d a x => some ⟨.min, d, scalarRef s a x, readG s d, 0, h.oc⟩
  | .amax h d a x => some ⟨.max, d, scalarRef s a x, readG s d, 0, h.oc⟩
  | .aswp h d a x => some ⟨.swp, d, scalarRef s a x, readG s d, 0, h.oc⟩
  | .acas h d a x =>
    let e : Reg := BitVec.ofNat 5 (2 * d.toNat)
    some ⟨.cas, e, scalarRef s a x, readG s e, readG s (e + 1), h.oc⟩
  | _ => none

/-! ### Vector accesses (R146 to R155) -/

/-- The lanes of a vector access: lane, reference, tile and byte location. -/
abbrev LaneLocs := List (Nat × Word × Nat × Nat)

/-- A vector load: destination, reference, lanes, bytes of a lane, acquire, ordering class. -/
structure VLoadForm where
  dest : Reg
  ref : Word
  lanes : LaneLocs
  width : Nat
  acquire : Bool
  cls : BitVec 4

/-- The lanes of a contiguous access of a slot. -/
def contig (s : State) (i : Instr) (a : Reg) (x : Idx) (w : Nat) : LaneLocs := contigLocs s (scalarRef s a x) w (lanesOf s i)

def vectorLoad (s : State) (i : Instr) : Option VLoadForm :=
  match i with
  | .vld h d a x => some ⟨d, scalarRef s a x, contig s i a x 4, 4, false, h.oc⟩
  | .vldx8 h d a x => some ⟨d, scalarRef s a x, contig s i a x 1, 1, false, h.oc⟩
  | .vldx16 h d a x => some ⟨d, scalarRef s a x, contig s i a x 2, 2, false, h.oc⟩
  | .vlds _ d a x => some ⟨d, scalarRef s a x, contig s i a x 4, 4, false, 0⟩
  | .vlda h d a x => some ⟨d, scalarRef s a x, contig s i a x 4, 4, true, h.oc⟩
  | .vgth h d a b => some ⟨d, readG s a, gatherLocs s (readG s a) (readV s b) (lanesOf s i), 4, false, h.oc⟩
  | _ => none

/-- A vector store: reference, lanes, bytes of a lane, values, indices of a scatter, ordering class. -/
structure VStoreForm where
  ref : Word
  lanes : LaneLocs
  width : Nat
  val : Vec
  idx : Vec
  scatter : Bool
  cls : BitVec 4

def vectorStore (s : State) (i : Instr) : Option VStoreForm :=
  match i with
  | .vst h d a x => some ⟨scalarRef s a x, contig s i a x 4, 4, readV s d, 0, false, h.oc⟩
  | .vstn8 h d a x => some ⟨scalarRef s a x, contig s i a x 1, 1, readV s d, 0, false, h.oc⟩
  | .vstn16 h d a x => some ⟨scalarRef s a x, contig s i a x 2, 2, readV s d, 0, false, h.oc⟩
  | .vsts _ d a x => some ⟨scalarRef s a x, contig s i a x 4, 4, readV s d, 0, false, 0⟩
  | .vsct h d a b => some ⟨readG s a, gatherLocs s (readG s a) (readV s b) (lanesOf s i), 4, readV s d, readV s b, true, h.oc⟩
  | _ => none

/-- A lane atomic: operation, destination, reference, lanes, operands, ordering class. -/
structure VAtomicForm where
  op : AtomicOp
  dest : Reg
  ref : Word
  lanes : LaneLocs
  val : Vec
  cls : BitVec 4

def vectorAtomic (s : State) (i : Instr) : Option VAtomicForm :=
  match i with
  | .vaadd h d a x => some ⟨.add, d, scalarRef s a x, contig s i a x 4, readV s d, h.oc⟩
  | .vamin h d a x => some ⟨.min, d, scalarRef s a x, contig s i a x 4, readV s d, h.oc⟩
  | .vamax h d a x => some ⟨.max, d, scalarRef s a x, contig s i a x 4, readV s d, h.oc⟩
  | .vaswp h d a x => some ⟨.swp, d, scalarRef s a x, contig s i a x 4, readV s d, h.oc⟩
  | _ => none

/-! ### What an access leaves in its context -/

/-- The scoreboard entry of a scalar long load; it is handed to memory at once (R17, R118). -/
def scalarEntryOf (b : State) (f : LoadForm) (as : List Nat) : LongLoad :=
  { id := (me b).nload, issued := b.now, dest := .g f.dest.toNat, width := f.width, sext := f.sext, cls := f.cls,
    scope := scopeOf (me b).live f.cls, acquire := f.acquire, atomic := none, ref := f.ref,
    parts := [⟨0, as, forwards b (me b) (swzId (refTid f.ref)) as⟩], nr := 0, mask := allLanes, opnd := 0, opnd2 := 0,
    vec := false, cancelled := false, handed := true, committed := false, slot := b.latch.slot, pc := (me b).bpc }

/-- The scoreboard entry of an atomic; it waits for its commit (R118). -/
def atomicEntryOf (b : State) (f : AtomicForm) (as : List Nat) : LongLoad :=
  { id := (me b).nload, issued := b.now, dest := .g f.dest.toNat, width := 8, sext := false, cls := f.cls,
    scope := scopeOf (me b).live f.cls, acquire := false, atomic := some f.op, ref := f.ref, parts := [⟨0, as, []⟩], nr := 0,
    mask := allLanes, opnd := f.x.setWidth 1024, opnd2 := f.y, vec := false, cancelled := false, handed := false,
    committed := false, slot := b.latch.slot, pc := (me b).bpc }

/-- The scoreboard entry of a vector load of an access's lanes. -/
def vectorEntryOf (b : State) (f : VLoadForm) (m : Pred) (as : List (Nat × List Nat)) : LongLoad :=
  { id := (me b).nload, issued := b.now, dest := .v f.dest.toNat, width := f.width, sext := true, cls := f.cls,
    scope := scopeOf (me b).live f.cls, acquire := f.acquire, atomic := none, ref := f.ref,
    parts := as.map fun p => ⟨p.1, p.2, forwards b (me b) (swzId (refTid f.ref)) p.2⟩, nr := nrLanes as, mask := m, opnd := 0,
    opnd2 := 0, vec := true, cancelled := false, handed := true, committed := false, slot := b.latch.slot, pc := (me b).bpc }

/-- The scoreboard entry of a lane atomic. -/
def laneAtomicOf (b : State) (f : VAtomicForm) (m : Pred) (as : List (Nat × List Nat)) : LongLoad :=
  { id := (me b).nload, issued := b.now, dest := .v f.dest.toNat, width := 4, sext := false, cls := f.cls,
    scope := scopeOf (me b).live f.cls, acquire := false, atomic := some f.op, ref := f.ref,
    parts := as.map fun p => ⟨p.1, p.2, []⟩, nr := nrLanes as, mask := m, opnd := f.val, opnd2 := 0, vec := true,
    cancelled := false, handed := false, committed := false, slot := b.latch.slot, pc := (me b).bpc }

/-- The context after an access found no resident tile: CSTAT.NR is set (R108). -/
def markNR (k : Ctx) (as : List Nat) : Ctx :=
  if as = [] then { k with live := { k.live with cstat := k.live.cstat ||| 0x8000 } } else k

/-- The context with p15's bits of non-resident lanes on their way in a window of one cycle (R149). -/
def markP15 (b : State) (nr : Pred) : Ctx := withFlight b (if nr = 0 then [] else [inWindow b (.p 15) (nr.setWidth 1024) nr 1 0])

/-! ### Returns and commits -/

/-- Atomic `n` of a context falls due, handed to memory, with nothing that holds it back, no broken pair, no answer in a replay's log, and no
fence that asks its bytes to a wider scope (R118, R122, R251, R339, R348). -/
def atomicReturns (s : State) (c x n : Nat) (l : LongLoad) (op : AtomicOp) : Prop :=
  ((getCtx s c x).loads.find? fun q => q.id == n) = some l ∧ l.atomic = some op ∧ l.cancelled = false ∧ l.handed = true ∧
  ((getAny s c x).wbuf.any fun e => e.committed && e.cls == l.cls && decide (e.seq < l.id)) = false ∧
  brokenHome s c (farHomes s c l.scope (loadBytes l)) = false ∧ mayPerform s c x l = true ∧
  takeReplay s c (isReply (getCtx s c x).run l.id) = none ∧ (4 ≤ l.scope ∨ atomicScope (getCtx s c x) l < 4)

/-- A commit that may go on past its step 2, of an interval without norm samples, whose register banks need no waking (R24, R208). -/
def plainCommit (s : State) (c x : Nat) : Prop :=
  commitReady s c x = true ∧ (getCtx s c x).handedOver = false ∧ (getCtx s c x).post = [] ∧ (getCtx s c x).watch = [] ∧
  ((banksOf (getCtx s c x).vbase (getCtx s c x).vregs).all fun b => bankSt (getCore s c) b != 1) = true

/-! ### Slots that a commit performs (R24) -/

/-- What a non-undoable slot records for step 4 of R24, its operands read at issue. -/
def recordedAct (s : State) : Instr → Option Act
  | .trap _ i => some (.trap (BitVec.ofNat 64 (i.sval.toNat % 65536)) s.latch.slot)
  | .resume _ a => some (.resume ((readG s a).setWidth 48))
  | .mnap _ d a => some (.mnap d.toNat ((readG s a).toNat % 2 ^ 48))
  | .taskr _ => some .taskr
  | .dsig _ a => some (.dsig (readG s a) s.latch.slot)
  | .evsig _ a => some (.evsig (readG s a))
  | .seal _ a b => some (.seal (readG s a) (readG s b))
  | .unseal _ a b => some (.unseal (readG s a) (readG s b))
  | .dcinvL2 _ => some (.dcinvL2 (l2Die s))
  | .halt _ => some .halt
  | .zxt _ => some .zxt
  | _ => none

/-- What a releasing slot records for step 5 of R24. -/
def recordedRelease : Instr → Option Release
  | .tfree _ t => some (.tfree t)
  | .trel _ t => some (.trel t)
  | .zfree _ z => some (.zfree z)
  | .sqclr _ q => some (.sqclr q)
  | .licr _ => some .licr
  | .licx _ => some .licx
  | _ => none

/-- A copy command at issue: kind, tile handle, source, destination, descriptors, the elements of its tensor side, rows or columns. -/
structure CopyForm where
  kind : CopyKind
  t : TReg
  src : Word
  dst : Word
  desc : Word
  desc2 : Word
  refs : List Word
  rows : Nat

def copySlot (s : State) : Instr → Option CopyForm
  | .cpin _ t a b => some ⟨.cpin, t, readG s a, 0, readG s b, 0, descRefs s (me s) (readG s a) (readG s b), dRows (readG s b)⟩
  | .cpout _ t a b => some ⟨.cpout, t, readG s a, 0, readG s b, 0, descRefs s (me s) (readG s a) (readG s b), dRows (readG s b)⟩
  | .cpcl _ d a b => some ⟨.cpcl, 0, readG s a, readG s d, readG s b, 0, descRefs s (me s) (readG s a) (readG s b), dRows (readG s b)⟩
  | .cpmc _ t a b => some ⟨.cpmc, t, readG s a, 0, readG s b, 0, descRefs s (me s) (readG s a) (readG s b), dRows (readG s b)⟩
  | .cpsc _ d a b => some ⟨.cpsc, 0, readG s a, readG s d, readG s b, 0, descRefs s (me s) (readG s a) (readG s b), dRows (readG s b)⟩
  | .cpenc _ t a b =>
    let d := readG s (BitVec.ofNat 5 (2 * b.toNat))
    let d2 := readG s (BitVec.ofNat 5 (2 * b.toNat + 1))
    some ⟨.cpenc, t, readG s a, 0, d, d2, encRefs s ((myOutrider s).getD (0, 0, 0)).1 (readG s a) d d2, dLen d / 32⟩
  | _ => none

/-- The command that a copy slot records: its operands, key and residency outcome are those of its issue (R174). -/
def copyCommand (b : State) (f : CopyForm) (frames : List (Nat × Option Nat)) : CopyCmd :=
  let l := tileOfMe b f.t
  { id := b.fresh, kind := f.kind, t := f.t, src := f.src, dst := f.dst, desc := f.desc, desc2 := f.desc2, key := myKey b,
    pid := (me b).pid, frames := frames, base := l.base, view := l.view, bytes := l.bytes, fmt := l.fmt, off := 0,
    slbase := (me b).slbase, rows := f.rows, wide := rowWide b f.kind f.src f.desc,
    todo := wholeRun (f.rows * rowWide b f.kind f.src f.desc), served := [], started := false, done := false, held := [], seq := (me b).nload, slot := b.latch.slot,
    word := BitVec.ofNat 32 (slotWord b), pc := (me b).bpc }

/-- Bytes of a tile that a ZST writes, by the format of its epilogue word (Table 7.8). -/
def drainFootprint (w : Word) : Nat := if epiFmt w = 0 then 2112 else if epiFmt w = 1 then 4160 else if epiFmt w = 2 then 8192 else 32768

end Sys2Proof.Machine
end

