-- ==== Sys2Proof/Safety/Results.lean ====
section
/-! DEFINITION. What each arithmetic slot results in, by the rules of chapters 5 and 6: the tables that the claims about results use. A
slot that no row of a table names has no result of that kind. -/

namespace Sys2Proof.Machine

/-! ### Scalar results (R95 to R103) -/

/-- A word from its bits. -/
def wordOf (f : Nat → Bool) : Word := (BitVec.ofBoolListLE ((List.range 64).map f)).setWidth 64

/-- The length of the run of bits for which `f` holds, from place 0 on. -/
def runOf (f : Nat → Bool) (n : Nat) : Nat := ((List.range n).takeWhile f).length

/-- POS and WID of a bit-field immediate: WID of 0 and of 65 to 127 means 64 (R100). -/
def fieldPos (i : Word) : Nat := i.toNat % 64
def fieldWid (i : Word) : Nat := if i.toNat / 64 % 128 = 0 ∨ 64 < i.toNat / 64 % 128 then 64 else i.toNat / 64 % 128

/-- The width of SEXT and ZEXT: 0 and above 64 mean 64 (R101). -/
def extWid (i : Word) : Nat := if i.toNat % 128 = 0 ∨ 64 < i.toNat % 128 then 64 else i.toNat % 128

/-- A scalar ALU slot that writes a g register: the register, the value and the window (Table 1.2). -/
def scalarRule (s : State) : Instr → Option (Reg × Word × Nat)
  | .add _ d a b => some (d, BitVec.ofInt 64 ((readG s a).toInt + (readG s b).toInt), 1)
  | .sub _ d a b => some (d, BitVec.ofInt 64 ((readG s a).toInt - (readG s b).toInt), 1)
  | .addi _ d a i => some (d, BitVec.ofInt 64 ((readG s a).toInt + i.sval.toInt), 1)
  | .mul _ d a b => some (d, BitVec.ofInt 64 ((readG s a).toInt * (readG s b).toInt), 3)
  | .mulh _ d a b => some (d, BitVec.ofInt 64 ((readG s a).toInt * (readG s b).toInt / 2 ^ 64), 3)
  | .mulhn _ d a b => some (d, BitVec.ofNat 64 ((readG s a).toNat * (readG s b).toNat / 2 ^ 64), 3)
  | .div _ d a b =>
    some (d, if readG s b = 0 then BitVec.allOnes 64 else BitVec.ofInt 64 ((readG s a).toInt.tdiv (readG s b).toInt), 20)
  | .divn _ d a b => some (d, if readG s b = 0 then BitVec.allOnes 64 else BitVec.ofNat 64 ((readG s a).toNat / (readG s b).toNat), 20)
  | .rem _ d a b => some (d, if readG s b = 0 then readG s a else BitVec.ofInt 64 ((readG s a).toInt.tmod (readG s b).toInt), 20)
  | .remn _ d a b => some (d, if readG s b = 0 then readG s a else BitVec.ofNat 64 ((readG s a).toNat % (readG s b).toNat), 20)
  | .and _ d a b => some (d, wordOf fun j => (readG s a).getLsbD j && (readG s b).getLsbD j, 1)
  | .or _ d a b => some (d, wordOf fun j => (readG s a).getLsbD j || (readG s b).getLsbD j, 1)
  | .xor _ d a b => some (d, wordOf fun j => (readG s a).getLsbD j != (readG s b).getLsbD j, 1)
  | .andn _ d a b => some (d, wordOf fun j => (readG s a).getLsbD j && !(readG s b).getLsbD j, 1)
  | .andi _ d a i => some (d, wordOf fun j => (readG s a).getLsbD j && i.zval.getLsbD j, 1)
  | .ori _ d a i => some (d, wordOf fun j => (readG s a).getLsbD j || i.zval.getLsbD j, 1)
  | .xori _ d a i => some (d, wordOf fun j => (readG s a).getLsbD j != i.zval.getLsbD j, 1)
  | .shl _ d a b => some (d, BitVec.ofNat 64 ((readG s a).toNat * 2 ^ ((readG s b).toNat % 64)), 1)
  | .shr _ d a b => some (d, BitVec.ofNat 64 ((readG s a).toNat / 2 ^ ((readG s b).toNat % 64)), 1)
  | .sha _ d a b => some (d, BitVec.ofInt 64 ((readG s a).toInt / 2 ^ ((readG s b).toNat % 64)), 1)
  | .shli _ d a i => some (d, BitVec.ofNat 64 ((readG s a).toNat * 2 ^ (i.zval.toNat % 64)), 1)
  | .shri _ d a i => some (d, BitVec.ofNat 64 ((readG s a).toNat / 2 ^ (i.zval.toNat % 64)), 1)
  | .shai _ d a i => some (d, BitVec.ofInt 64 ((readG s a).toInt / 2 ^ (i.zval.toNat % 64)), 1)
  | .rot _ d a b => some (d, wordOf fun j => (readG s a).getLsbD ((j + 64 - (readG s b).toNat % 64) % 64), 1)
  | .min _ d a b => some (d, BitVec.ofInt 64 (Min.min (readG s a).toInt (readG s b).toInt), 1)
  | .max _ d a b => some (d, BitVec.ofInt 64 (Max.max (readG s a).toInt (readG s b).toInt), 1)
  | .minn _ d a b => some (d, BitVec.ofNat 64 (Nat.min (readG s a).toNat (readG s b).toNat), 1)
  | .maxn _ d a b => some (d, BitVec.ofNat 64 (Nat.max (readG s a).toNat (readG s b).toNat), 1)
  | .abs _ d a => some (d, BitVec.ofNat 64 (readG s a).toInt.natAbs, 1)
  | .clz _ d a => some (d, BitVec.ofNat 64 (runOf (fun j => !(readG s a).getLsbD (63 - j)) 64), 1)
  | .ctz _ d a => some (d, BitVec.ofNat 64 (runOf (fun j => !(readG s a).getLsbD j) 64), 1)
  | .popc _ d a => some (d, BitVec.ofNat 64 ((List.range 64).countP (readG s a).getLsbD), 1)
  | .bext _ d a i => some (d, BitVec.ofNat 64 ((readG s a).toNat / 2 ^ fieldPos i.zval % 2 ^ fieldWid i.zval), 1)
  | .bins _ d a i =>
    some (d, wordOf fun j => if fieldPos i.zval ≤ j ∧ j < fieldPos i.zval + fieldWid i.zval
      then (readG s a).getLsbD (j - fieldPos i.zval) else (readG s d).getLsbD j, 1)
  | .sext _ d a i => some (d, wordOf fun j => (readG s a).getLsbD (Nat.min j (extWid i.zval - 1)), 1)
  | .zext _ d a i => some (d, wordOf fun j => decide (j < extWid i.zval) && (readG s a).getLsbD j, 1)
  | .sel h d a b => some (d, if (readP s h.pg).getLsbD 0 != h.pn then readG s a else readG s b, 1)
  | .movi _ d i => some (d, i.val, 1)
  | .pget _ d a => some (d, BitVec.ofNat 64 (readP s a).toNat, 1)
  | .pcnt _ d a => some (d, BitVec.ofNat 64 ((List.range 32).countP (readP s a).getLsbD), 1)
  | .vext _ d a k => some (d, BitVec.ofInt 64 (lane (readV s a) k.toNat).toInt, 1)
  | _ => none

/-- A scalar slot that writes a predicate: the register and the value of every lane (R104, R105). -/
def predRule (s : State) : Instr → Option (PReg × (Nat → Bool))
  | .cmpeq _ d a b => some (d, fun _ => readG s a == readG s b)
  | .cmpne _ d a b => some (d, fun _ => !(readG s a == readG s b))
  | .cmplt _ d a b => some (d, fun _ => decide ((readG s a).toInt < (readG s b).toInt))
  | .cmple _ d a b => some (d, fun _ => decide ((readG s a).toInt ≤ (readG s b).toInt))
  | .cmpltn _ d a b => some (d, fun _ => decide ((readG s a).toNat < (readG s b).toNat))
  | .cmplen _ d a b => some (d, fun _ => decide ((readG s a).toNat ≤ (readG s b).toNat))
  | .cmpeqi _ d a i => some (d, fun _ => decide ((readG s a).toInt = i.sval.toInt))
  | .cmplti _ d a i => some (d, fun _ => decide ((readG s a).toInt < i.sval.toInt))
  | .pand _ d a b => some (d, fun j => (readP s a).getLsbD j && (readP s b).getLsbD j)
  | .por _ d a b => some (d, fun j => (readP s a).getLsbD j || (readP s b).getLsbD j)
  | .pxor _ d a b => some (d, fun j => (readP s a).getLsbD j != (readP s b).getLsbD j)
  | .pandn _ d a b => some (d, fun j => (readP s a).getLsbD j && !(readP s b).getLsbD j)
  | .pany _ d a => some (d, fun _ => (List.range 32).any (readP s a).getLsbD)
  | .pall _ d a => some (d, fun _ => (List.range 32).all (readP s a).getLsbD)
  | .pset _ d a => some (d, fun j => (readG s a).getLsbD j)
  | _ => none

/-! ### Vector integer results (R132, R134, R141 to R144, R156) -/

/-- Enabled lanes of a slot, lowest first. -/
def onLanes (s : State) (i : Instr) : List Nat := (List.range 32).filter (lanesOf s i).getLsbD

/-- A lane as a signed integer. -/
def slane (v : Vec) (i : Nat) : Int := (lane v i).toInt

/-- A vector slot that writes a v register and sets no flag: the register, the value of each lane, the lanes it writes and the window
(Table 1.2). -/
def vectorRule (s : State) (i : Instr) : Option (Reg × (Nat → BitVec 32) × Pred × Nat) :=
  let m := lanesOf s i
  match i with
  | .vmov _ d a => some (d, fun j => lane (readV s a) j, m, 2)
  | .vmulh _ d a b => some (d, fun j => BitVec.ofInt 32 (slane (readV s a) j * slane (readV s b) j / 2 ^ 32), m, 2)
  | .vand _ d a b => some (d, fun j => lane (readV s a &&& readV s b) j, m, 2)
  | .vor _ d a b => some (d, fun j => lane (readV s a ||| readV s b) j, m, 2)
  | .vxor _ d a b => some (d, fun j => lane (readV s a ^^^ readV s b) j, m, 2)
  | .vandn _ d a b => some (d, fun j => lane (readV s a &&& ~~~ readV s b) j, m, 2)
  | .vshl _ d a b => some (d, fun j => BitVec.ofNat 32 ((lane (readV s a) j).toNat * 2 ^ ((lane (readV s b) j).toNat % 32)), m, 2)
  | .vshr _ d a b => some (d, fun j => BitVec.ofNat 32 ((lane (readV s a) j).toNat / 2 ^ ((lane (readV s b) j).toNat % 32)), m, 2)
  | .vsha _ d a b => some (d, fun j => BitVec.ofInt 32 (slane (readV s a) j / 2 ^ ((lane (readV s b) j).toNat % 32)), m, 2)
  | .vmin _ d a b => some (d, fun j => BitVec.ofInt 32 (Min.min (slane (readV s a) j) (slane (readV s b) j)), m, 2)
  | .vmax _ d a b => some (d, fun j => BitVec.ofInt 32 (Max.max (slane (readV s a) j) (slane (readV s b) j)), m, 2)
  | .vminn _ d a b => some (d, fun j => BitVec.ofNat 32 (Nat.min (lane (readV s a) j).toNat (lane (readV s b) j).toNat), m, 2)
  | .vmaxn _ d a b => some (d, fun j => BitVec.ofNat 32 (Nat.max (lane (readV s a) j).toNat (lane (readV s b) j).toNat), m, 2)
  | .vabs _ d a => some (d, fun j => BitVec.ofNat 32 (slane (readV s a) j).natAbs, m, 2)
  | .vsel h d a b => some (d, fun j => if (readP s h.pg).getLsbD j != h.pn then lane (readV s a) j else lane (readV s b) j, allLanes, 2)
  | .vperm _ d a b => some (d, fun j => lane (readV s a) ((lane (readV s b) j).toNat % 32), m, 2)
  | .vrotl _ d a k => some (d, fun j => lane (readV s a) ((j + 32 - k.toNat) % 32), m, 2)
  | .viota _ d a => some (d, fun j => BitVec.ofNat 32 ((List.range j).countP (readP s a).getLsbD), m, 2)
  | .vradd _ d a => some (d, fun _ => BitVec.ofInt 32 ((onLanes s i).map (slane (readV s a))).sum, m, 4)
  | .vrmax _ d a => some (d, fun _ => BitVec.ofInt 32 (((onLanes s i).map (slane (readV s a))).max?.getD 0), m, 4)
  | .vrmin _ d a => some (d, fun _ => BitVec.ofInt 32 (((onLanes s i).map (slane (readV s a))).min?.getD 0), m, 4)
  | .vpack _ d a k =>
    let w := 4 * 2 ^ k.toNat
    some (d, fun j => lane (BitVec.ofNat 1024 (((List.range 32).map fun n => (lane (readV s a) n).toNat % 2 ^ w * 2 ^ (w * n)).sum)) j, m, 2)
  | .vunpk _ d a k =>
    let w := 4 * 2 ^ k.toNat
    some (d, fun j => BitVec.ofInt 32 (BitVec.ofNat w ((readV s a).toNat / 2 ^ (w * j))).toInt, m, 2)
  | .vsplat _ d a => some (d, fun _ => BitVec.ofNat 32 (readG s a).toNat, m, 1)
  | .vins _ d a k => some (d, fun _ => BitVec.ofNat 32 (readG s a).toNat, if m.getLsbD k.toNat then (1 : Pred) <<< k.toNat else 0, 1)
  | _ => none

/-- VADD, VSUB, VMUL and VMAD: the register and the exact result of each lane before it is cut to 32 bits (R132, R80). -/
def exactRule (s : State) : Instr → Option (Reg × (Nat → Int))
  | .vadd _ d a b => some (d, fun j => slane (readV s a) j + slane (readV s b) j)
  | .vsub _ d a b => some (d, fun j => slane (readV s a) j - slane (readV s b) j)
  | .vmul _ d a b => some (d, fun j => slane (readV s a) j * slane (readV s b) j)
  | .vmad _ d a b => some (d, fun j => slane (readV s a) j * slane (readV s b) j + slane (readV s d) j)
  | _ => none

/-- A lane compare of integers: the predicate and the outcome of each lane (R133). -/
def compareRule (s : State) : Instr → Option (PReg × (Nat → Bool))
  | .vcmpeq _ d a b => some (d, fun j => lane (readV s a) j == lane (readV s b) j)
  | .vcmplt _ d a b => some (d, fun j => decide (slane (readV s a) j < slane (readV s b) j))
  | .vcmple _ d a b => some (d, fun j => decide (slane (readV s a) j ≤ slane (readV s b) j))
  | .vcmpltn _ d a b => some (d, fun j => decide ((lane (readV s a) j).toNat < (lane (readV s b) j).toNat))
  | _ => none

/-- A saturating lane of VADDS and VSUBS: value and SAT (R57). -/
def saturated (y : Int) : BitVec 32 × BitVec 16 :=
  (BitVec.ofInt 32 (Max.max (-2147483648) (Min.min y 2147483647)), if -2147483648 ≤ y ∧ y ≤ 2147483647 then 0 else flSAT)

/-! ### Floating-point results (R135 to R142) -/

/-- Lane `j` read as binary32 and element `j` read as binary64 under the subnormal rule of the context (R58, R62). -/
def rd32 (s : State) (a : Reg) (j : Nat) : FV := f32.read (fpmOf s) (lane (readV s a) j).toNat
def rd64 (s : State) (a : Reg) (j : Nat) : FV :=
  f64.read (fpmOf s) ((lane (readV s a) (2 * j)).toNat + (lane (readV s a) (2 * j + 1)).toNat * 2 ^ 32)

/-- The window of an instruction that is longer in full mode (R130, Table 1.2). -/
def modeWin (s : State) (short long : Nat) : Nat := if fpmOf s then long else short

/-- Is a bit pattern a NaN of a format: an exponent of all ones and a fraction other than 0? -/
def Fmt.nanBits (f : Fmt) (b : Nat) : Bool := b / 2 ^ f.fr % 2 ^ f.ex == 2 ^ f.ex - 1 && b % 2 ^ f.fr != 0

/-- A lane-wise slot with flags: the register, value and flags of each lane, and the window. -/
def floatRule (s : State) : Instr → Option (Reg × (Nat → Nat × BitVec 16) × Nat)
  | .vadds _ d a b => some (d, fun j => let r := saturated (slane (readV s a) j + slane (readV s b) j); (r.1.toNat, r.2), 2)
  | .vsubs _ d a b => some (d, fun j => let r := saturated (slane (readV s a) j - slane (readV s b) j); (r.1.toNat, r.2), 2)
  | .vfadd _ d a b => some (d, fun j => f32.addV (rmOf s) (fpmOf s) (rd32 s a j) (rd32 s b j), modeWin s 4 8)
  | .vfsub _ d a b => some (d, fun j => f32.addV (rmOf s) (fpmOf s) (rd32 s a j) (rd32 s b j).neg, modeWin s 4 8)
  | .vfmul _ d a b => some (d, fun j => f32.mulV (rmOf s) (fpmOf s) (rd32 s a j) (rd32 s b j), modeWin s 4 8)
  | .vfma _ d a b => some (d, fun j => f32.fmaV (rmOf s) (fpmOf s) (rd32 s a j) (rd32 s b j) (rd32 s d j), modeWin s 4 8)
  | .vfnma _ d a b => some (d, fun j => f32.fmaV (rmOf s) (fpmOf s) (rd32 s a j).neg (rd32 s b j) (rd32 s d j), modeWin s 4 8)
  | .vfdiv _ d a b => some (d, fun j => f32.divV (rmOf s) (fpmOf s) (rd32 s a j) (rd32 s b j), modeWin s 16 20)
  | .vfsqrt _ d a => some (d, fun j => f32.sqrtV (rmOf s) (fpmOf s) (rd32 s a j), modeWin s 16 20)
  | .vfmin _ d a b => some (d, fun j => f32.minV false (rd32 s a j) (rd32 s b j), modeWin s 4 8)
  | .vfmax _ d a b => some (d, fun j => f32.minV true (rd32 s a j) (rd32 s b j), modeWin s 4 8)
  | .vfcvt _ d a k =>
    some (d, fun j =>
      let x := lane (readV s a) j
      let old := lane (readV s d) j
      if k = 0 then let r := narrow16 (rmOf s) (fpmOf s) (rd32 s a j); (old.toNat / 65536 * 65536 + r.1, r.2)
      else if k = 1 then let r := narrow16 (rmOf s) (fpmOf s) (rd32 s a j); (r.1 * 65536 + old.toNat % 65536, r.2)
      else if k = 2 then widen16 (f16.read (fpmOf s) (x.toNat % 65536)) else widen16 (f16.read (fpmOf s) (x.toNat / 65536)),
      modeWin s 4 8)
  | .vftoi _ d a => some (d, fun j => let r := toI32 (rmOf s) (rd32 s a j); (r.1.toNat, r.2), modeWin s 4 8)
  | .vitof _ d a => some (d, fun j => fromI32 (rmOf s) (lane (readV s a) j), modeWin s 4 8)
  | .vlgenc _ d a => some (d, fun j => let r := lgEncode (rd32 s a j); (r.1.toNat, r.2), modeWin s 4 8)
  | .vlgdec _ d a => some (d, fun j => (lgDecode (BitVec.ofNat 6 (lane (readV s a) j).toNat), 0), modeWin s 4 8)
  | _ => none

/-- A binary64 slot: value and flags of each of the sixteen elements, and the window (R136). -/
def doubleRule (s : State) : Instr → Option (Reg × (Nat → Nat × BitVec 16) × Nat)
  | .vdadd _ d a b => some (d, fun j => f64.addV (rmOf s) (fpmOf s) (rd64 s a j) (rd64 s b j), modeWin s 4 8)
  | .vdmul _ d a b => some (d, fun j => f64.mulV (rmOf s) (fpmOf s) (rd64 s a j) (rd64 s b j), modeWin s 4 8)
  | .vdfma _ d a b => some (d, fun j => f64.fmaV (rmOf s) (fpmOf s) (rd64 s a j) (rd64 s b j) (rd64 s d j), modeWin s 4 8)
  | .vddiv _ d a b => some (d, fun j => f64.divV (rmOf s) (fpmOf s) (rd64 s a j) (rd64 s b j), modeWin s 16 20)
  | _ => none

/-- A floating-point compare: the predicate, outcome and flags of each lane, and the lanes it writes (R135, R136, R63). -/
def floatCompareRule (s : State) (i : Instr) : Option (PReg × (Nat → Bool × BitVec 16) × Pred) :=
  let m := lanesOf s i
  match i with
  | .vfcmpeq _ d a b => some (d, fun j => cmpEqV (rd32 s a j) (rd32 s b j), m)
  | .vfcmplt _ d a b => some (d, fun j => cmpLtV (rd32 s a j) (rd32 s b j), m)
  | .vfcmple _ d a b => some (d, fun j => cmpLeV (rd32 s a j) (rd32 s b j), m)
  | .vdcmplt _ d a b => some (d, fun j => cmpLtV (rd64 s a (j / 2)) (rd64 s b (j / 2)), ofBits fun j => m.getLsbD (j / 2 * 2))
  | _ => none

/-- The flags that the lanes of a mask raise together (R130). -/
def allFlags (m : Pred) (f : Nat → BitVec 16) : BitVec 16 := ((List.range 32).filter m.getLsbD).foldl (fun a j => a ||| f j) 0

/-- The 32 values of a block of VBEXP and VQNT: a disabled lane counts as 0 (R139, R140). -/
def blockValues (s : State) (a : Reg) (m : Pred) : List FV :=
  (List.range 32).map fun j => if m.getLsbD j then rd32 s a j else .num false 0 0

end Sys2Proof.Machine
end

