-- ==== Sys2Proof/WellFormed.lean ====
section
/-! DEFINITION. Well-formed instructions: operands inside the limits the spec sets that their types do not carry. -/

namespace Sys2Proof

/-- Compute cores 0 to 2,047 (R38) and the eight management cores, numbered 2,048 to 2,055 in this model. -/
def okCore (c : Nat) : Bool := c < 2056
/-- Four contexts to a core (R19). -/
def okCtx (x : Nat) : Bool := x < 4
/-- Sixteen compute dies (R2). -/
def okDie (d : Nat) : Bool := d < 16
/-- Sixteen clusters to a die (R3). -/
def okCluster (k : Nat) : Bool := k < 256
/-- Eight compute stacks (R2). -/
def okStack (k : Nat) : Bool := k < 8
/-- 128 twin pairs to a stack (R272). -/
def okPair (k : Nat) : Bool := k < 1024

/-- Host transactions move 1, 2, 4 or 8 bytes (R301). -/
def okSize (n : Nat) : Bool := n == 1 || n == 2 || n == 4 || n == 8

/-- The operand limits of each row: selectors (R137, R139, R141), the ZCLR exponent (R163), the fence mask (R122), the
prefetch level (R123), the claim kind (R199), and the ranges of the numbers an event names. -/
def Instr.wf : Instr → Bool
  | .add _ _ _ _ => true
  | .sub _ _ _ _ => true
  | .addi _ _ _ _ => true
  | .mul _ _ _ _ => true
  | .mulh _ _ _ _ => true
  | .mulhn _ _ _ _ => true
  | .div _ _ _ _ => true
  | .divn _ _ _ _ => true
  | .rem _ _ _ _ => true
  | .remn _ _ _ _ => true
  | .and _ _ _ _ => true
  | .or _ _ _ _ => true
  | .xor _ _ _ _ => true
  | .andn _ _ _ _ => true
  | .andi _ _ _ _ => true
  | .ori _ _ _ _ => true
  | .xori _ _ _ _ => true
  | .shl _ _ _ _ => true
  | .shr _ _ _ _ => true
  | .sha _ _ _ _ => true
  | .shli _ _ _ _ => true
  | .shri _ _ _ _ => true
  | .shai _ _ _ _ => true
  | .rot _ _ _ _ => true
  | .min _ _ _ _ => true
  | .max _ _ _ _ => true
  | .minn _ _ _ _ => true
  | .maxn _ _ _ _ => true
  | .abs _ _ _ => true
  | .clz _ _ _ => true
  | .ctz _ _ _ => true
  | .popc _ _ _ => true
  | .bext _ _ _ _ => true
  | .bins _ _ _ _ => true
  | .sext _ _ _ _ => true
  | .zext _ _ _ _ => true
  | .sel _ _ _ _ => true
  | .movi _ _ _ => true
  | .cmpeq _ _ _ _ => true
  | .cmpne _ _ _ _ => true
  | .cmplt _ _ _ _ => true
  | .cmple _ _ _ _ => true
  | .cmpltn _ _ _ _ => true
  | .cmplen _ _ _ _ => true
  | .cmpeqi _ _ _ _ => true
  | .cmplti _ _ _ _ => true
  | .pand _ _ _ _ => true
  | .por _ _ _ _ => true
  | .pxor _ _ _ _ => true
  | .pandn _ _ _ _ => true
  | .pany _ _ _ => true
  | .pall _ _ _ => true
  | .pset _ _ _ => true
  | .pget _ _ _ => true
  | .pcnt _ _ _ => true
  | .ldb _ _ _ _ => true
  | .ldbn _ _ _ _ => true
  | .ldh _ _ _ _ => true
  | .ldhn _ _ _ _ => true
  | .ldw _ _ _ _ => true
  | .ldwn _ _ _ _ => true
  | .ldd _ _ _ _ => true
  | .stb _ _ _ _ => true
  | .sth _ _ _ _ => true
  | .stw _ _ _ _ => true
  | .std _ _ _ _ => true
  | .lda _ _ _ _ => true
  | .stl _ _ _ _ => true
  | .aadd _ _ _ _ => true
  | .aand _ _ _ _ => true
  | .aor _ _ _ _ => true
  | .axor _ _ _ _ => true
  | .amin _ _ _ _ => true
  | .amax _ _ _ _ => true
  | .aswp _ _ _ _ => true
  | .acas _ _ _ _ => true
  | .fnc _ i => i.zval.toNat < 65536
  | .pfl _ l _ _ => l.toNat < 3
  | .br _ _ => true
  | .brl _ _ => true
  | .jr _ _ => true
  | .jrl _ _ => true
  | .loop _ _ _ => true
  | .vmov _ _ _ => true
  | .vadd _ _ _ _ => true
  | .vsub _ _ _ _ => true
  | .vadds _ _ _ _ => true
  | .vsubs _ _ _ _ => true
  | .vmul _ _ _ _ => true
  | .vmulh _ _ _ _ => true
  | .vmad _ _ _ _ => true
  | .vand _ _ _ _ => true
  | .vor _ _ _ _ => true
  | .vxor _ _ _ _ => true
  | .vandn _ _ _ _ => true
  | .vshl _ _ _ _ => true
  | .vshr _ _ _ _ => true
  | .vsha _ _ _ _ => true
  | .vmin _ _ _ _ => true
  | .vmax _ _ _ _ => true
  | .vminn _ _ _ _ => true
  | .vmaxn _ _ _ _ => true
  | .vabs _ _ _ => true
  | .vcmpeq _ _ _ _ => true
  | .vcmplt _ _ _ _ => true
  | .vcmple _ _ _ _ => true
  | .vcmpltn _ _ _ _ => true
  | .vsel _ _ _ _ => true
  | .vfadd _ _ _ _ => true
  | .vfsub _ _ _ _ => true
  | .vfmul _ _ _ _ => true
  | .vfma _ _ _ _ => true
  | .vfnma _ _ _ _ => true
  | .vfdiv _ _ _ _ => true
  | .vfsqrt _ _ _ => true
  | .vfmin _ _ _ _ => true
  | .vfmax _ _ _ _ => true
  | .vfcmpeq _ _ _ _ => true
  | .vfcmplt _ _ _ _ => true
  | .vfcmple _ _ _ _ => true
  | .vdadd _ _ _ _ => true
  | .vdmul _ _ _ _ => true
  | .vdfma _ _ _ _ => true
  | .vddiv _ _ _ _ => true
  | .vdcmplt _ _ _ _ => true
  | .vfcvt _ _ _ k => k.toNat < 4
  | .vftoi _ _ _ => true
  | .vitof _ _ _ => true
  | .vqnt _ _ _ k => k.toNat < 3
  | .vbexp _ _ _ k => k.toNat < 3
  | .vpack _ _ _ k => k.toNat < 3
  | .vunpk _ _ _ k => k.toNat < 3
  | .vlgenc _ _ _ => true
  | .vlgdec _ _ _ => true
  | .vradd _ _ _ => true
  | .vrmax _ _ _ => true
  | .vrmin _ _ _ => true
  | .vperm _ _ _ _ => true
  | .vrotl _ _ _ _ => true
  | .viota _ _ _ => true
  | .vnrm _ _ _ => true
  | .vld _ _ _ _ => true
  | .vldx8 _ _ _ _ => true
  | .vldx16 _ _ _ _ => true
  | .vst _ _ _ _ => true
  | .vstn8 _ _ _ _ => true
  | .vstn16 _ _ _ _ => true
  | .vlds _ _ _ _ => true
  | .vsts _ _ _ _ => true
  | .vgth _ _ _ _ => true
  | .vsct _ _ _ _ => true
  | .vlda _ _ _ _ => true
  | .vstl _ _ _ _ => true
  | .vaadd _ _ _ _ => true
  | .vamin _ _ _ _ => true
  | .vamax _ _ _ _ => true
  | .vaswp _ _ _ _ => true
  | .tcfg _ _ _ => true
  | .tstat _ _ _ => true
  | .tfree _ _ => true
  | .mma _ _ _ _ _ _ _ => true
  | .mmat _ _ _ _ _ _ _ => true
  | .zclr _ _ i => !zimmBad i
  | .zst _ _ _ _ _ => true
  | .zld _ _ _ _ => true
  | .zadd _ _ _ => true
  | .zfree _ _ => true
  | .sqld _ _ _ => true
  | .sqclr _ _ => true
  | .cpin _ _ _ _ => true
  | .cpout _ _ _ _ => true
  | .cpcl _ _ _ _ => true
  | .cpmc _ _ _ _ => true
  | .cpenc _ _ _ _ => true
  | .cpsc _ _ _ _ => true
  | .trel _ _ => true
  | .arrwTile _ _ => true
  | .arrwCounter _ _ _ => true
  | .publ _ _ => true
  | .licq _ => true
  | .licr _ => true
  | .licx _ => true
  | .zxt _ => true
  | .vsplat _ _ _ => true
  | .vins _ _ _ _ => true
  | .vext _ _ _ _ => true
  | .twset _ _ _ => true
  | .twget _ _ _ => true
  | .twclr _ _ => true
  | .waypt _ => true
  | .trap _ _ => true
  | .resume _ _ => true
  | .crd _ _ _ => true
  | .cwr _ _ _ => true
  | .mona _ _ _ => true
  | .mnap _ _ _ => true
  | .rqpg _ _ _ _ => true
  | .taskl _ _ _ => true
  | .taskr _ => true
  | .dsig _ _ => true
  | .claim _ k _ => k.toNat < 3
  | .yield _ => true
  | .seal _ _ _ => true
  | .unseal _ _ _ => true
  | .vjoin _ => true
  | .dcflLine _ _ => true
  | .dcflL2 _ => true
  | .dcinvLine _ _ => true
  | .dcinvL2 _ => true
  | .icinv _ => true
  | .halt _ => true
  | .evsig _ _ => true
  | .bundleFetch => true
  | .waypointCommit c x => okCore c && okCtx x
  | .resultLanding c x => okCore c && okCtx x
  | .longLoadReturn c x _ => okCore c && okCtx x
  | .storePerformed c x => okCore c && okCtx x
  | .monitorArmEstablished c x => okCore c && okCtx x
  | .mnapWake c x => okCore c && okCtx x
  | .mnapTimeout c x => okCore c && okCtx x
  | .l2Writeback d _ => okDie d
  | .trapDelivery c x => okCore c && okCtx x
  | .scaleEntryWrite c _ => okCore c
  | .matrixBeat c => okCore c
  | .drainComplete c => okCore c
  | .copyDelivery c x _ => okCore c && okCtx x
  | .copyComplete c x _ => okCore c && okCtx x
  | .relayDelivery c x _ k => okCore c && okCtx x && k < 8
  | .relayHoldTimeout c x _ => okCore c && okCtx x
  | .publSwap c x => okCore c && okCtx x
  | .passingGapEnd pr => okPair pr
  | .zxtMoveDone c x => okCore c && okCtx x
  | .parkedRestoreDone c x => okCore c && okCtx x
  | .licmodeWrite pr _ => okPair pr
  | .licmodeTakesEffect pr => okPair pr
  | .bankkeyWrite c x _ => okCore c && okCtx x
  | .nwatchWrite c x _ => okCore c && okCtx x
  | .registerWrite c x _ _ => okCore c && okCtx x
  | .contextPreemption c x => okCore c && okCtx x
  | .predrainExpiry c x => okCore c && okCtx x
  | .prewaitExpiry cl => okCluster cl
  | .contextSaveDone _ => true
  | .contextRestore _ => true
  | .taskPlacement _ c x => okCore c && okCtx x
  | .dieClearDone d => okDie d
  | .allowExpiry c x => okCore c && okCtx x
  | .taskRetirement c x => okCore c && okCtx x
  | .tilePublication _ => true
  | .manifestEntry => true
  | .dsigApply => true
  | .caravanDecode _ _ => true
  | .deadlineExpiry _ _ => true
  | .pageRequestService => true
  | .hostMemoryWrite ad sz _ => okSize sz && ad % sz == 0
  | .hostMemoryRead ad sz => okSize sz && ad % sz == 0
  | .mqtailWrite n _ => n < 64
  | .mqctlWrite n _ => n < 64
  | .cmdtailWrite _ => true
  | .ringBaseWrite rg _ => rg < 66
  | .rpackWrite _ => true
  | .manifestQueueTake n => n < 64
  | .queueSwitch qin qout => qin < 64 && qout < 64
  | .tensor _ _ _ => true
  | .map _ _ _ => true
  | .evict _ _ _ => true
  | .evictionDone _ _ => true
  | .delete _ _ _ => true
  | .refuse _ _ _ => true
  | .evack _ _ _ => true
  | .rqpool _ _ _ => true
  | .reportWrite => true
  | .pool _ _ _ => true
  | .preempt _ _ _ => true
  | .mailboxResume _ _ _ => true
  | .mailboxEnd _ _ _ => true
  | .thaw _ _ _ => true
  | .move _ _ _ => true
  | .diereset _ _ _ => true
  | .setreg _ _ _ => true
  | .getreg _ _ _ => true
  | .fabricManifest _ _ _ => true
  | .resquery _ _ => true
  | .residencyReportTimer => true
  | .messageArrival _ _ _ _ => true
  | .gapTimeout _ _ => true
  | .resendRequest _ _ _ => true
  | .cumulativeAck _ _ _ => true
  | .pairBroken _ _ => true
  | .transitDrainTimeout d => okDie d
  | .dieResetPhase d => okDie d
  | .checkpointCapture d => okDie d
  | .droverBlockCopy d _ => okDie d
  | .checkpointCommit d => okDie d
  | .clkpatWrite cl _ => okCluster cl
  | .clgrantWrite cl _ => okCluster cl
  | .eprofWrite d n _ => okDie d && n < 4
  | .rbctlWrite c _ => okCore c
  | .bankTransitionDone c b => okCore c && b < 4
  | .mclkfWrite st _ => okStack st
  | .clockChange st => okStack st
  | .quiesce cl => okCluster cl
  | .retain cl => okCluster cl
  | .clkoff cl => okCluster cl
  | .railoff cl => okCluster cl
  | .clusterRailOn cl => okCluster cl
  | .clusterClockRestart cl => okCluster cl
  | .clusterRetentionExit cl => okCluster cl
  | .run cl => okCluster cl
  | .clusterStepDone cl => okCluster cl
  | .wakesetWrite d _ => okDie d
  | .managementWake c x => okCore c && okCtx x
  | .thermalPoll raw => raw.length == 320
  | .healthWrite _ => true
  | .locatedWindowReset => true
  | .fabctlWrite _ => true
  | .fabricModeChange => true
  | .packageReset => true
  | .commandRingTake => true
  | .l1Eviction c _ => okCore c
  | .softError _ _ => true

end Sys2Proof
end

