-- ==== Sys2Proof/Certificates/Slice0/Obligations.lean ====
section
/-! DEFINITION. The statements. -/

open Sys2Proof Sys2Proof.Machine


/-- R95 to R105, R155, R156: a scalar ALU slot that issues puts its result into its landing window, or nothing for a guard that fails or
a destination g0 (R33, R94), and changes nothing else of the package.
R104, R105: a scalar compare or predicate slot that issues puts its predicate into a window of one cycle; p0 is never written. -/
def Obligations.ScalarResults : Prop :=
  (∀ (s : State) (i : Instr) (d : Reg) (v : Word) (n : Nat), scalarRule s i = some (d, v, n) → Issues s i →
     ∃ t, exec i s = .next t ∧
       IssuedCtx s t i (withFlight s (if lanesOf s i = 0 ∨ d = 0 then [] else [inWindow s (.g d.toNat) (v.setWidth 1024) allLanes n 0]))) ∧
  (∀ (s : State) (i : Instr) (d : PReg) (f : Nat → Bool), predRule s i = some (d, f) → Issues s i →
     ∃ t, exec i s = .next t ∧
       IssuedCtx s t i
         (withFlight s (if lanesOf s i = 0 ∨ d = 0 then [] else [inWindow s (.p d.toNat) ((ofBits f).setWidth 1024) allLanes 1 0])))

/-- R132, R134, R141, R143, R144, R156: an integer vector slot that issues puts the value of each lane it writes into its window. -/
def Obligations.VectorResults : Prop :=
  ∀ (s : State) (i : Instr) (d : Reg) (f : Nat → BitVec 32) (w : Pred) (n : Nat), vectorRule s i = some (d, f, w, n) → Issues s i →
    ∃ t, exec i s = .next t ∧
      IssuedCtx s t i (withFlight s (if lanesOf s i = 0 ∨ w = 0 then [] else [inWindow s (.v d.toNat) (ofLanes f) w n 0]))

/-- R132, R80, R81: VADD, VSUB, VMUL and VMAD give the exact result modulo 2^32 in each enabled lane while RES is 0, or while no fault stands
in the core's adders: a check that passes changes no result. The standing fault is the model's own input (log entry 148); it acts on checked
lanes alone, so with RES = 0 it changes nothing.
R81: in residue mode a fault that inverts one bit of the adder's result (the model's input, log entry 148) is caught by the check of some
enabled lane, whatever the operands are. -/
def Obligations.CheckedResults : Prop :=
  (∀ (s : State) (i : Instr) (d : Reg) (f : Nat → Int), exactRule s i = some (d, f) → Issues s i →
     cstatRES (me s).live.cstat = false ∨ (myCore s).aluFault = 0 →
     ∃ t, exec i s = .next t ∧
       IssuedCtx s t i (withFlight s (if lanesOf s i = 0 then []
         else [inWindow s (.v d.toNat) (ofLanes fun j => BitVec.ofInt 32 (f j)) (lanesOf s i) 2 0]))) ∧
  (∀ (s : State) (i : Instr) (d : Reg) (f : Nat → Int) (k : Nat), exactRule s i = some (d, f) → Issues s i → lanesOf s i ≠ 0 →
     cstatRES (me s).live.cstat = true → k < 32 → (myCore s).aluFault = BitVec.twoPow 32 k →
     ∃ t, exec i s = .next t ∧
       Issued s t i (withFlight s [{ inWindow s (.v d.toNat) (ofLanes fun j => BitVec.ofInt 32 (f j) ^^^ BitVec.twoPow 32 k) (lanesOf s i) 2 0
         with residueBad := true }]) { myCore s with aluFault := 0 } s)

/-- R133, R131: an integer lane compare writes the enabled lanes of its predicate.
R135, R136, R63, R131: a floating-point compare writes the enabled lanes of its predicate and raises their flags; with p0 as its
destination the flags alone land (R33). -/
def Obligations.CompareResults : Prop :=
  (∀ (s : State) (i : Instr) (d : PReg) (f : Nat → Bool), compareRule s i = some (d, f) → Issues s i →
     ∃ t, exec i s = .next t ∧
       IssuedCtx s t i (withFlight s (if lanesOf s i = 0 ∨ d = 0 then []
         else [inWindow s (.p d.toNat) ((ofBits f).setWidth 1024) (lanesOf s i) 2 0]))) ∧
  (∀ (s : State) (i : Instr) (d : PReg) (f : Nat → Bool × BitVec 16) (w : Pred), floatCompareRule s i = some (d, f, w) → Issues s i →
     let fl := allFlags w fun j => (f j).2
     ∃ t, exec i s = .next t ∧
       IssuedCtx s t i (withFlight s (if w = 0 ∨ d = 0 ∧ fl = 0 then []
         else [inWindow s (.p d.toNat) ((ofBits fun j => (f j).1).setWidth 1024) (if d = 0 then 0 else w) (modeWin s 4 8) fl])))

/-- R57, R130, R135, R137, R138, R142: a lane-wise slot with flags writes its enabled lanes, and its flags are those of these lanes.
R136: a binary64 slot writes the lane pairs of the elements whose even guard bit is set. -/
def Obligations.FloatResults : Prop :=
  (∀ (s : State) (i : Instr) (d : Reg) (f : Nat → Nat × BitVec 16) (n : Nat), floatRule s i = some (d, f, n) → Issues s i →
     ∃ t, exec i s = .next t ∧
       IssuedCtx s t i (withFlight s (if lanesOf s i = 0 then []
         else [inWindow s (.v d.toNat) (ofLanes fun j => BitVec.ofNat 32 (f j).1) (lanesOf s i) n (allFlags (lanesOf s i) fun j => (f j).2)]))) ∧
  (∀ (s : State) (i : Instr) (d : Reg) (f : Nat → Nat × BitVec 16) (n : Nat), doubleRule s i = some (d, f, n) → Issues s i →
     let w := ofBits fun j => (lanesOf s i).getLsbD (j / 2 * 2)
     ∃ t, exec i s = .next t ∧
       IssuedCtx s t i (withFlight s (if w = 0 then []
         else [inWindow s (.v d.toNat) (ofLanes fun j => BitVec.ofNat 32 ((f (j / 2)).1 / 2 ^ (32 * (j % 2)))) w n
           (allFlags w fun j => (f (j / 2)).2)])))

/-- R68, R69, R139, R140, R145, R284: VBEXP gives the block exponent of R68 in every enabled lane, NV if a NaN was read, and adds to the
task's two counts; VQNT gives the mantissas under the exponent in bits 7:0 of lane 0 of its destination; VNRM gives the root of the sum
of squares of the enabled lanes, and a sample to the norm watch while NWATCH.EN is set. -/
def Obligations.BlockResults : Prop :=
  ∀ (s : State) (h : TH) (d a : Reg) (k : BitVec 5),
    (Issues s (.vbexp h d a k) →
      let m := lanesOf s (.vbexp h d a k)
      let b := quantise (blockValues s a m) (bxLimit k.toNat) 0
      ∃ t, exec (.vbexp h d a k) s = .next t ∧
        IssuedCtx s t (.vbexp h d a k) (if m = 0 then me s else
          { withFlight s [inWindow s (.v d.toNat) (ofLanes fun _ => BitVec.ofInt 32 b.e) m (modeWin s 4 8) (if b.nv then flNV else 0)] with
            live := { (me s).live with underzero := (me s).live.underzero + b.under, satblk := (me s).live.satblk + b.sat } })) ∧
    (Issues s (.vqnt h d a k) →
      let m := lanesOf s (.vqnt h d a k)
      let e := ((lane (readV s d) 0).setWidth 8).toInt
      let q := fun j => if e = -128 then 0 else mantissa 0 (bxLimit k.toNat) e ((blockValues s a m).getD j (.num false 0 0))
      ∃ t, exec (.vqnt h d a k) s = .next t ∧
        IssuedCtx s t (.vqnt h d a k) (if m = 0 then me s else
          withFlight s [inWindow s (.v d.toNat) (ofLanes fun j => BitVec.ofInt 32 (q j)) m (modeWin s 4 8)
            (if (blockValues s a m).any FV.isNan then flNV else 0)])) ∧
    (Issues s (.vnrm h d a) →
      let m := lanesOf s (.vnrm h d a)
      let r := vnrmVal (rmOf s) (fpmOf s) ((onLanes s (.vnrm h d a)).map (rd32 s a))
      ∃ t, exec (.vnrm h d a) s = .next t ∧
        IssuedCtx s t (.vnrm h d a) (if m = 0 then me s else
          { withFlight s [inWindow s (.v d.toNat) (ofLanes fun _ => BitVec.ofNat 32 r.1) m (modeWin s 8 12) r.2] with
            watch := if (me s).live.nwatch.getLsbD 0 then (me s).watch ++ [.sample (BitVec.ofNat 32 r.1)] else (me s).watch }))

/-- R60: every NaN that a floating-point slot gives is the canonical quiet NaN of its format, whatever its operands: a lane, element, half or
norm whose pattern is a NaN is that one. A NaN operand, an invalid sum, product, quotient or root, and the extreme of two NaNs give it. -/
def Obligations.NanResultsCanonical : Prop :=
  let ok := fun (f : Fmt) (b : Nat) => f.nanBits b = true → b = f.qnan
  (f16.qnan = 0x7E00 ∧ f32.qnan = 0x7FC00000 ∧ f64.qnan = 0x7FF8000000000000) ∧
  (∀ (s : State) (i : Instr) (d : Reg) (g : Nat → Nat × BitVec 16) (n j : Nat),
    (floatRule s i = some (d, g, n) → match i with
      | .vadds _ _ _ _ | .vsubs _ _ _ _ | .vftoi _ _ _ | .vlgenc _ _ _ => True
      | .vfcvt _ _ _ k => (k = 0 → ok f16 ((g j).1 % 65536)) ∧ (k = 1 → ok f16 ((g j).1 / 65536)) ∧ (2 ≤ k.toNat → ok f32 (g j).1)
      | _ => ok f32 (g j).1) ∧
    (doubleRule s i = some (d, g, n) → ok f64 (g j).1)) ∧
  (∀ (rm : BitVec 2) (fpm : Bool) (xs : List FV), ok f32 (vnrmVal rm fpm xs).1 ∧
    (xs.any FV.isNan = true → (vnrmVal rm fpm xs).1 = f32.qnan)) ∧
  (∀ (f : Fmt) (rm : BitVec 2) (fpm p q mx x y : Bool) (m : Nat) (e e' : Int) (b c : FV),
    (f.addV rm fpm (.nan x) b).1 = f.qnan ∧ (f.addV rm fpm b (.nan x)).1 = f.qnan ∧ (f.addV rm fpm (.inf p) (.inf (!p))).1 = f.qnan ∧
    (f.mulV rm fpm (.nan x) b).1 = f.qnan ∧ (f.mulV rm fpm b (.nan x)).1 = f.qnan ∧
    (f.mulV rm fpm (.num p 0 e) (.inf q)).1 = f.qnan ∧ (f.mulV rm fpm (.inf p) (.num q 0 e)).1 = f.qnan ∧
    (f.fmaV rm fpm (.nan x) b c).1 = f.qnan ∧ (f.fmaV rm fpm b (.nan x) c).1 = f.qnan ∧ (f.fmaV rm fpm b c (.nan x)).1 = f.qnan ∧
    (f.fmaV rm fpm (.num p 0 e) (.inf q) c).1 = f.qnan ∧ (f.fmaV rm fpm (.inf p) (.num q 0 e) c).1 = f.qnan ∧
    (f.fmaV rm fpm (.inf p) (.inf q) (.inf (p == q))).1 = f.qnan ∧ (f.fmaV rm fpm (.inf p) (.num q m e) (.inf (p == q))).1 = f.qnan ∧
    (f.fmaV rm fpm (.num p m e) (.inf q) (.inf (p == q))).1 = f.qnan ∧
    (f.divV rm fpm (.nan x) b).1 = f.qnan ∧ (f.divV rm fpm b (.nan x)).1 = f.qnan ∧ (f.divV rm fpm (.inf p) (.inf q)).1 = f.qnan ∧
    (f.divV rm fpm (.num p 0 e) (.num q 0 e')).1 = f.qnan ∧
    (f.sqrtV rm fpm (.nan x)).1 = f.qnan ∧ (f.sqrtV rm fpm (.inf true)).1 = f.qnan ∧
    (m ≠ 0 → (f.sqrtV rm fpm (.num true m e)).1 = f.qnan) ∧
    (f.minV mx (.nan x) (.nan y)).1 = f.qnan ∧ (narrow16 rm fpm (.nan x)).1 = f16.qnan ∧ (widen16 (.nan x)).1 = f32.qnan)

/-- R124 to R126, R48: a taken BR or JR sends control to its target; BRL and JRL also put the address of the next bundle into g1; LOOP
writes the count less one back and goes to its target while that is positive. A slot whose guard fails goes nowhere (R94).
R156, R157, R158, R337: TWSET writes g[A] to its outbound register and makes it valid; TWCLR makes it invalid and leaves its value;
the write is one transfer to the twin's die (log entry 17), and a replay that has sent it already sends it no second time (R348; log entry
18); TWGET puts the twin's register
of that number into its destination. -/
def Obligations.BranchesAndTwins : Prop :=
  (∀ (s : State) (h : TH) (x : BitVec 15) (a d : Reg) (m : Imm),
     let goTo := fun (k : Ctx) (n : BitVec 48) => { k with pc := n, jumped := true }
     let rel := (me s).bpc + 4 * x.signExtend 48
     let link := [inWindow s (.g 1) (s.latch.next.setWidth 1024) allLanes 1 0]
     let n := readG s d - 1
     let count := if d = 0 then [] else [inWindow s (.g d.toNat) (n.setWidth 1024) allLanes 1 0]
     let ends := fun (i : Instr) (k : Ctx) => Issues s i → ∃ t, exec i s = .next t ∧ IssuedCtx s t i (if lanesOf s i = 0 then me s else k)
     ends (.br h x) (goTo (me s) rel) ∧ ends (.brl h x) (goTo (withFlight s link) rel) ∧
     ends (.jr h a) (goTo (me s) ((readG s a).setWidth 48)) ∧ ends (.jrl h a) (goTo (withFlight s link) ((readG s a).setWidth 48)) ∧
     ends (.loop h d m) (if 0 < n.toInt then goTo (withFlight s count) ((me s).bpc + 4 * m.sval.setWidth 48) else withFlight s count)) ∧
  (∀ (s : State) (h : TH) (w : TReg) (a d : Reg),
     let x := curX s
     let n := (me s).nload
     let again := sentBefore s s.focus x n SendKind.twin.code
     let e := coreEnd s.focus
     let e' := coreEnd (twinOf s.focus)
     let sends := fun (v : Word) (valid : Bool) =>
       if again then (if e' = e then s else setLink s e e' (repeatLink (getLink s e e'))) else carry s e e' (.twin s.focus x w.toNat v valid)
     let writes := fun (i : Instr) (v : Word) (valid : Bool) => Issues s i →
       (lanesOf s i = 0 → ∃ t, exec i s = .next t ∧ IssuedCtx s t i (me s)) ∧
       (lanesOf s i ≠ 0 → ∃ t k, exec i s = .next t ∧ IssuedCtx (sends v valid) t i k ∧
         { k with w := (me s).w, sent := (me s).sent } = { me s with nload := n + 1 } ∧
         (k.w.get WReg.reset w.toNat).val = (if again then ((me s).w.get WReg.reset w.toNat).val else v) ∧
         (k.w.get WReg.reset w.toNat).valid = (if again then ((me s).w.get WReg.reset w.toNat).valid else valid) ∧
         ∀ y, y ≠ w.toNat → k.w.get WReg.reset y = (me s).w.get WReg.reset y)
     writes (.twset h w a) (readG s a) true ∧ writes (.twclr h w) ((me s).w.get WReg.reset w.toNat).val false ∧
     (Issues s (.twget h d w) → ∃ t, exec (.twget h d w) s = .next t ∧
       IssuedCtx s t (.twget h d w) (withFlight s (if lanesOf s (.twget h d w) = 0 ∨ d = 0 then []
         else [inWindow s (.g d.toNat) ((twinReg s w).1.setWidth 1024) allLanes 1 0]))))

/-- R109, R244: placing a tile changes nothing of a tile that is placed already; an unplaced tile gets a free frame that reads as zeros, its
table entry names the frame as resident, and every byte outside the frame and the entry reads as before. -/
def Obligations.FirstTouch : Prop :=
  ∀ (s u : State) (c f tid tile : Nat) (k : Ctx) (l : Layout), layoutOf s k.pid tid = some l →
    (entryAt s l tile / 2 ^ 62 ≠ 0 → placeTile s c k tid tile = s) ∧
    (entryAt s l tile / 2 ^ 62 = 0 → frameFrom s (stackOrder c tile) = some (u, f) →
      let t := placeTile s c k tid tile
      (f + 65536 ≤ l.ttab + 8 * tile ∨ l.ttab + 8 * tile + 8 ≤ f → f / 65536 < 2 ^ 24 → f % 65536 = 0 →
        entryAt t l tile / 2 ^ 62 = 1 ∧ frameOf t (entryAt t l tile) = f ∧ ∀ a, f ≤ a → a < f + 65536 → t.mem.read a = 0) ∧
      (∀ a, (a < f ∨ f + 65536 ≤ a) → (a < l.ttab + 8 * tile ∨ l.ttab + 8 * tile + 8 ≤ a) → t.mem.read a = s.mem.read a) ∧
      t.now = s.now ∧ t.latch = s.latch ∧ t.timers = s.timers ∧ t.procs = s.procs ∧ t.host = s.host ∧
      t.pairs = s.pairs ∧ t.clusters = s.clusters ∧ t.pkg = s.pkg ∧ ∀ c x, getCtx t c x = getCtx s c x)

/-- R17, R108, R112, R116: a scalar load of tensor memory places an unplaced tile, gets one scoreboard entry that names its bytes and what
the buffer forwards to it, and sets NR on a non-resident tile; into g0 a plain load makes no entry. When its value comes back is the
model's choice (log entry 10).
R112, R116, R251, Table 1.2: a scalar load of an on-chip level performs after the committed stores and the long loads of its class, and
its value enters the window of the level; the bytes come from the withheld store buffer where it holds them, else from the level. That they
are read in the issue cycle is the model's choice (log entry 23), as are the levels of the management cores (log entry 120).
R149, R150, R153: a vector load of tensor memory places the tiles its lanes reach and gets one scoreboard entry for the lanes of its
guard; one of an on-chip level puts its lanes into the level's window, read in the issue cycle (log entries 23, 120). -/
def Obligations.LoadSlots : Prop :=
  (∀ (s : State) (i : Instr) (f : LoadForm), scalarLoad s i = some f → Issues s i → lanesOf s i ≠ 0 → onChip (refTid f.ref) = false →
     let b := (scalarPlace s f.ref f.width).1
     let as := (scalarPlace s f.ref f.width).2
     ∃ t, exec i s = .next t ∧
       if f.dest = 0 ∧ f.acquire = false then IssuedCtx b t i (markNR (me b) as)
       else Issued b t i { markNR (me b) as with nload := (me b).nload + 1, loads := (me b).loads ++ [scalarEntryOf b f as] } (myCore b)
         (later b (.longLoadReturn b.focus (curX b) (me b).nload))) ∧
  (∀ (s : State) (i : Instr) (f : LoadForm), scalarLoad s i = some f → Issues s i → lanesOf s i ≠ 0 → onChip (refTid f.ref) = true →
     let b := beforeChip s f.cls
     let as := (scalarPlace b f.ref f.width).2
     let v := partValue b b.focus (scopeOf (me b).live f.cls) as (forwards b (me b) (swzId (refTid f.ref)) as)
     (((me s).wbuf.all fun e => !e.committed || e.cls != f.cls) = true → ((me s).loads.all fun l => l.cls != f.cls) = true → b = s) ∧
     ∃ t, exec i s = .next t ∧
       IssuedCtx b t i (if f.dest = 0 ∧ f.acquire = false then me b
         else { withFlight b [{ inWindow b (.g f.dest.toNat) ((extend f.width f.sext v).setWidth 1024) allLanes (chipWindow (refTid f.ref)) 0
           with acquire := f.acquire }] with nload := (me b).nload + 1 })) ∧
  (∀ (s : State) (i : Instr) (f : VLoadForm), vectorLoad s i = some f → Issues s i → lanesOf s i ≠ 0 →
     let b := if isLong f.ref then placeLanes s f.lanes else beforeChip s f.cls
     let l := vectorEntryOf b f (lanesOf s i) (laneAddrs b f.width f.lanes)
     ∃ t, exec i s = .next t ∧
       if isLong f.ref then
         Issued b t i { me b with nload := (me b).nload + 1, loads := (me b).loads ++ [l] } (myCore b)
           (later b (.longLoadReturn b.focus (curX b) (me b).nload))
       else
         IssuedCtx b t i { withFlight b [{ inWindow b (.v f.dest.toNat) (loadResult l (loadLanes b b.focus l l.parts)) (lanesOf s i)
           (chipWindow (refTid f.ref)) 0 with acquire := f.acquire }] with nload := (me b).nload + 1 })

/-- R23, R108, R113: a scalar store takes the next entry of the withheld store buffer with its bytes, low byte first, and no byte of memory
changes as it issues; one on a non-resident tile, or on a renamed one for which no frame is free (R216; that the frame is taken as the
store issues is log entry 128), is dropped and sets NR.
R149, R151, R153: a vector store takes one buffer entry with the bytes of the lanes that reach a resident tile, or none if no lane is
left; p15 takes the bits of the others; VSTL is recorded for its commit instead. No byte changes as it issues. The frames of renamed tiles
are taken as the store issues (log entry 128). -/
def Obligations.StoreSlots : Prop :=
  (∀ (s : State) (i : Instr) (f : StoreForm), scalarStore s i = some f → Issues s i → lanesOf s i ≠ 0 →
     let b := (scalarWrite s f.ref f.width).1
     let as := (scalarWrite s f.ref f.width).2
     ∃ t, exec i s = .next t ∧
       IssuedCtx b t i (if as = [] then markNR (me b) as
         else { me b with nload := (me b).nload + 1, wbuf := (me b).wbuf ++ [scalarEntry (me b) f.ref as f.width f.val f.cls false] })) ∧
  ((∀ (s : State) (i : Instr) (f : VStoreForm), vectorStore s i = some f → Issues s i → lanesOf s i ≠ 0 →
     let b := placeStores s f.lanes
     let as := storeAddrs b f.width f.lanes
     let e := vectorEntry (me b) f.ref as f.width f.val f.idx f.cls (lanesOf s i) f.scatter false
     ∃ t, exec i s = .next t ∧
       IssuedCtx b t i (if e.mask = 0 then markP15 b (nrLanes as)
         else { markP15 b (nrLanes as) with nload := (me b).nload + 1, wbuf := (me b).wbuf ++ [e] })) ∧
   (∀ (s : State) (h : MH) (d a : Reg) (x : Idx), Issues s (.vstl h d a x) → lanesOf s (.vstl h d a x) ≠ 0 →
     let ls := contig s (.vstl h d a x) a x 4
     let b := placeStores s ls
     let as := storeAddrs b 4 ls
     let e := vectorEntry (me b) (scalarRef s a x) as 4 (readV s d) 0 h.oc (lanesOf s (.vstl h d a x)) false true
     ∃ t, exec (.vstl h d a x) s = .next t ∧
       IssuedCtx b t (.vstl h d a x) (if e.mask = 0 then markP15 b (nrLanes as)
         else { markP15 b (nrLanes as) with nload := (me b).nload + 1, acts := (me b).acts ++ [.stl e] })))

/-- R117, R118, R108: STL and the atomics are recorded as they issue, to be handed over at their commit (ActsPerform); an atomic's destination
is pending from issue on, and no byte changes. The frame of a renamed tile is taken as the slot issues (log entry 128).
R154, R118: a lane atomic gets one scoreboard entry for the lanes of its guard and is recorded for its commit. -/
def Obligations.ReleasesAndAtomics : Prop :=
  ((∀ (s : State) (h : MH) (d a : Reg) (x : Idx), Issues s (.stl h d a x) → lanesOf s (.stl h d a x) ≠ 0 →
     let r := scalarRef s a x
     let b := (scalarWrite s r 8).1
     let as := (scalarWrite s r 8).2
     ∃ t, exec (.stl h d a x) s = .next t ∧
       IssuedCtx b t (.stl h d a x) (if as = [] then markNR (me b) as
         else { me b with nload := (me b).nload + 1, acts := (me b).acts ++ [.stl (scalarEntry (me b) r as 8 (readG s d) h.oc true)] })) ∧
   (∀ (s : State) (i : Instr) (f : AtomicForm), scalarAtomic s i = some f → Issues s i → lanesOf s i ≠ 0 →
     let b := (scalarWrite s f.ref 8).1
     let as := (scalarWrite s f.ref 8).2
     ∃ t, exec i s = .next t ∧
       IssuedCtx b t i { markNR (me b) as with
         nload := (me b).nload + 1
         loads := (me b).loads ++ [atomicEntryOf b f as]
         acts := (me b).acts ++ [.atomic (me b).nload] })) ∧
  (∀ (s : State) (i : Instr) (f : VAtomicForm), vectorAtomic s i = some f → Issues s i → lanesOf s i ≠ 0 →
     let b := placeStores s f.lanes
     ∃ t, exec i s = .next t ∧
       IssuedCtx b t i { me b with
         nload := (me b).nload + 1
         loads := (me b).loads ++ [laneAtomicOf b f (lanesOf s i) (storeAddrs b 4 f.lanes)]
         acts := (me b).acts ++ [.atomic (me b).nload] })

/-- R94, R148: a slot none of whose lanes is enabled performs nothing: no register, flag, buffer entry or byte changes, and no event comes
of it; it is charged all the same (R29).
R86, R88, R20, R30: a slot presented for issue traps if it faults; else it stays, to be presented again, if it blocks, waits or cannot
be paid; and it answers a next state in every case. -/
def Obligations.SlotChecks : Prop :=
  (∀ (s : State) (i : Instr), (slotInfo i).cls ≠ 8 → Issues s i → lanesOf s i = 0 →
     ∃ t, exec i s = .next t ∧ IssuedCtx s t i (me s)) ∧
  (∀ (s : State) (i : Instr), (slotInfo i).cls ≠ 8 →
     (∃ t, exec i s = .next t) ∧
     (s.latch.checked = false →
       (∀ f, issueFault s i = some f → exec i s = .next (takeTrap s s.focus (curX s) ⟨f.1, s.latch.slot, false, f.2, (me s).bpc⟩)) ∧
       (issueFault s i = none → ∀ b, issueBlock s i = some b → exec i s = .next (holdSlot (blockEffect s b))) ∧
       (issueFault s i = none → issueBlock s i = none → (issueWait s i = true ∨ (myCore s).ebal < slotWeight s s.focus i) →
         exec i s = .next { s with latch := { s.latch with hold := true } })))

/-- R24, R187, R188, R193, R196 to R198, R201 to R204, R206, R180: a non-undoable slot reads its operands as it issues and does nothing
else until step 4 of its commit; DCINV_LINE records the line its reference names, if its tile is resident. TASKL looks up the manifest's tile
first (R108, R109): on a tile that is not resident it sets NR, gives 0 and launches nothing (log entry 65). That the L2 of the privileged forms
is the one PWRSEL selects is log entry 107.
R23, R24, R167, R170, R172, R179, R180: TFREE, TREL, ZFREE, SQCLR, LICR, LICX and PUBL are recorded as releases for step 5 of their
commit; a PUBL takes its place in program order. -/
def Obligations.RecordedSlots : Prop :=
  ((∀ (s : State) (i : Instr) (a : Act), recordedAct s i = some a → Issues s i →
     ∃ t, exec i s = .next t ∧
       IssuedCtx s t i (if lanesOf s i = 0 then me s else { me s with acts := (me s).acts ++ [a] })) ∧
   (∀ (s : State) (h : TH) (a : Reg), Issues s (.dcinvLine h a) →
     ∃ t, exec (.dcinvLine h a) s = .next t ∧
       IssuedCtx s t (.dcinvLine h a) (if lanesOf s (.dcinvLine h a) = 0 then me s else
         match lineAddr s (readG s a) with
         | some p => { me s with acts := (me s).acts ++ [.dcinvLine p] }
         | none => me s)) ∧
   (∀ (s : State) (h : TH) (d a : Reg), Issues s (.taskl h d a) →
     let b := (scalarPlace s (mkRef 0 (refIdx (readG s a))) 1).1
     let as := (scalarPlace s (mkRef 0 (refIdx (readG s a))) 1).2
     ∃ t, exec (.taskl h d a) s = .next t ∧
       if lanesOf s (.taskl h d a) = 0 then IssuedCtx s t (.taskl h d a) (me s)
       else IssuedCtx b t (.taskl h d a) (if as = [] then { markNR (me b) as with
           flight := (me b).flight ++ if d = 0 then [] else [inWindow b (.g d.toNat) 0 allLanes 1 0] }
         else { me b with acts := (me b).acts ++ [.taskl d.toNat (refIdx (readG s a))] }))) ∧
  ((∀ (s : State) (i : Instr) (r : Release), recordedRelease i = some r → Issues s i →
     ∃ t, exec i s = .next t ∧
       IssuedCtx s t i (if lanesOf s i = 0 then me s else { me s with releases := (me s).releases ++ [r] })) ∧
   (∀ (s : State) (h : TH) (a : Reg), Issues s (.publ h a) →
     ∃ t, exec (.publ h a) s = .next t ∧
       IssuedCtx s t (.publ h a) (if lanesOf s (.publ h a) = 0 then me s else { me s with
         nload := (me s).nload + 1
         releases := (me s).releases ++ [.publ (BitVec.ofNat 16 (refTid (readG s a))) (me s).nload a] })))

/-- R186, R168, R205, R123, R200, R207: WAYPT starts the commit of its bundle; ARRW, VJOIN and YIELD have nothing to do once they issue,
but that a YIELD may be presented again; PFL changes no byte as its caches see it, and at level 1 leaves a line of a resident tile in its
die's L2, but while the die replays, when its lines come from the log (log entry 18); ICINV empties its core's instruction cache.
R122, R250: a fence takes a place in program order with its mask and the widest scope of its classes; a mask of 0 has no effect; at
stack scope or wider the dirty lines of the die's L2 are written back. -/
def Obligations.OrderingSlots : Prop :=
  (∀ (s : State) (h : TH) (e l : BitVec 2) (pg : BitVec 3) (w n : TReg) (a : Reg) (x : Idx),
     (Issues s (.waypt e) → ∃ t, exec (.waypt e) s = .next t ∧ IssuedCtx s t (.waypt e) { me s with committing := true }) ∧
     (Issues s (.arrwTile h w) → ∃ t, exec (.arrwTile h w) s = .next t ∧ IssuedCtx s t (.arrwTile h w) (me s)) ∧
     (Issues s (.arrwCounter h n a) → ∃ t, exec (.arrwCounter h n a) s = .next t ∧ IssuedCtx s t (.arrwCounter h n a) (me s)) ∧
     (Issues s (.vjoin h) → ∃ t, exec (.vjoin h) s = .next t ∧ IssuedCtx s t (.vjoin h) (me s)) ∧
     (Issues s (.pfl pg l a x) →
       let r := scalarRef s a x
       let b := if lanesOf s (.pfl pg l a x) = 0 then s else prefetch s l.toNat r
       (∃ t, exec (.pfl pg l a x) s = .next t ∧ IssuedCtx b t (.pfl pg l a x) (me b)) ∧
       (onChip (refTid r) = true ∨ 2 ≤ l.toNat ∨ isMgmt s.focus = true → b = s) ∧
       (l = 1 → onChip (refTid r) = false → isMgmt s.focus = false → lanesOf s (.pfl pg l a x) ≠ 0 → underReplay s (dieOf s.focus) = false →
         ∀ p, lineAddr s r = some p → p < hbmTop →
         ((getDie b (dieOf s.focus)).l2.find (p / 64)).isSome = true ∧
         readL2 b (dieOf s.focus) p = readL2 s (dieOf s.focus) p)) ∧
     (Issues s (.yield h) → ∃ t, exec (.yield h) s = .next t ∧
       IssuedCtx s t (.yield h) (if lanesOf s (.yield h) = 0 then me s else { me s with yielded := false })) ∧
     (Issues s (.icinv h) → ∃ t, exec (.icinv h) s = .next t ∧
       Issued s t (.icinv h) (me s) (if lanesOf s (.icinv h) = 0 then myCore s else { myCore s with icache := .empty }) s)) ∧
  (∀ (s : State) (pg : BitVec 3) (m : Imm), Issues s (.fnc pg m) → lanesOf s (.fnc pg m) ≠ 0 →
     let mask := m.zval.setWidth 16
     let wide := maskScope (me s).live mask
     (mask = 0 → ∃ t, exec (.fnc pg m) s = .next t ∧ IssuedCtx s t (.fnc pg m) (me s)) ∧
     (mask ≠ 0 →
       let k := { me s with nload := (me s).nload + 1, fences := (me s).fences ++ [(mask, wide, (me s).nload)] }
       (wide < 4 ∨ isMgmt s.focus = true → ∃ t, exec (.fnc pg m) s = .next t ∧ IssuedCtx s t (.fnc pg m) k) ∧
       (4 ≤ wide → isMgmt s.focus = false →
         let b := writeBackAll (setMe s k) (dieOf s.focus)
         (∃ t, exec (.fnc pg m) s = .next t ∧ IssuedCtx b t (.fnc pg m) (me b)) ∧
         { me b with mon := (me s).mon } = { k with mon := (me s).mon })))

/-- R206, R250: DCFL writes a dirty line of the die's L2, or every one of the die that PWRSEL selects (log entry 107), back to its depot: each
dirty byte stands in memory afterwards, every other byte of memory as before, and the line stays valid. DCFL_LINE writes back the line of the
byte that its reference names.
R236, R250, R293: L2_WRITEBACK writes a line's dirty bytes back; L1_EVICTION drops a clean line and changes no other state;
SOFT_ERROR inverts bits of one stored byte and changes nothing else. -/
def Obligations.CacheFlushes : Prop :=
  (∀ (s : State) (h : TH) (a : Reg),
     (Issues s (.dcflLine h a) → lanesOf s (.dcflLine h a) ≠ 0 →
       (∃ t, exec (.dcflLine h a) s = .next t ∧ IssuedCtx (flushLine s (readG s a)) t (.dcflLine h a) (me (flushLine s (readG s a)))) ∧
       (lineAddr s (readG s a) = none ∨ isMgmt s.focus = true → flushLine s (readG s a) = s) ∧
       (∀ r p, lineAddr s (readG s a) = some r → resolve s r = some p → isMgmt s.focus = false →
         flushLine s (readG s a) = writeBackLine s (dieOf s.focus) (p / 64))) ∧
     (Issues s (.dcflL2 h) → lanesOf s (.dcflL2 h) ≠ 0 →
       ∃ t, exec (.dcflL2 h) s = .next t ∧
         IssuedCtx (writeBackAll s (l2Die s)) t (.dcflL2 h) (me (writeBackAll s (l2Die s)))) ∧
     (∀ d ln, (getDie s d).l2.find ln = none → writeBackLine s d ln = s) ∧
     (∀ d ln l, (getDie s d).l2.find ln = some l →
       let t := writeBackLine s d ln
       let u := writeBackAll s d
       (∀ n, n < 64 → l.dirty.getLsbD n = true →
         t.mem.read (ln * 64 + n) = l.data.extractLsb' (8 * n) 8 ∧ u.mem.read (ln * 64 + n) = l.data.extractLsb' (8 * n) 8) ∧
       (∀ n, n < 64 → l.dirty.getLsbD n = false → u.mem.read (ln * 64 + n) = s.mem.read (ln * 64 + n)) ∧
       (∀ p, p / 64 ≠ ln ∨ l.dirty.getLsbD (p % 64) = false → t.mem.read p = s.mem.read p) ∧
       ∃ l', (getDie t d).l2.find ln = some l' ∧ l'.dirty = 0 ∧ l'.valid = l.valid ∧ l'.data = l.data)) ∧
  (∀ (s : State) (c d ln a : Nat) (v : BitVec 8),
     (∃ t, exec (.l2Writeback d ln) s = .next t ∧
       (∀ l, (getDie s d).l2.find ln = some l → ∀ n, n < 64 → l.dirty.getLsbD n = true → t.mem.read (ln * 64 + n) = l.data.extractLsb' (8 * n) 8) ∧
       (∀ p, p / 64 ≠ ln → t.mem.read p = s.mem.read p) ∧ ((getDie s d).l2.find ln = none → t = s) ∧ t.serai = s.serai ∧ t.host = s.host) ∧
     (∃ t, exec (.l1Eviction c ln) s = .next t ∧ (getCore t c).l1.find ln = none ∧
       (∀ m, m ≠ ln → (getCore t c).l1.find m = (getCore s c).l1.find m) ∧ t = setCore s c { getCore s c with l1 := (getCore t c).l1 }) ∧
     (∃ t, exec (.softError a v) s = .next t ∧ t.mem.read a = s.mem.read a ^^^ v ∧ (∀ b, b ≠ a → t.mem.read b = s.mem.read b) ∧
       { t with mem := s.mem } = s))

/-- R189: CRD gives the value that its register had at the start of the issue cycle.
R41, R190: a CWR of a register that the context holds writes it as it issues, and a CRD then reads what was written and every other
register as before, but for the core's two counts of energy; any other CWR is recorded for step 4 of its commit. -/
def Obligations.ControlRegisters : Prop :=
  (∀ (s : State) (h : TH) (d : Reg) (n : BitVec 10), Issues s (.crd h d n) →
     ∃ t, exec (.crd h d n) s = .next t ∧
       IssuedCtx s t (.crd h d n) (withFlight s (if lanesOf s (.crd h d n) = 0 ∨ d = 0 then []
         else [inWindow s (.g d.toNat) ((s.latch.crd.getD (crdValue s s.focus (curX s) n.toNat)).setWidth 1024) allLanes 1 0]))) ∧
  (∀ (s : State) (h : TH) (d : Reg) (n : BitVec 10), Issues s (.cwr h d n) → lanesOf s (.cwr h d n) ≠ 0 →
     (ctxHeld n.toNat = false → ∃ t, exec (.cwr h d n) s = .next t ∧
       IssuedCtx s t (.cwr h d n)
         { me s with acts := (me s).acts ++ [.cwr n (readG s d) (me s).live.pwrsel (me s).live.thsel] }) ∧
     (ctxHeld n.toNat = true → ∃ t, exec (.cwr h d n) s = .next t ∧ IssuedCtx s t (.cwr h d n) (writeCtxReg (me s) n.toNat (readG s d)) ∧
       ((0x003 ≤ n.toNat ∧ n.toNat ≤ 0x005 ∨ 0x028 ≤ n.toNat ∧ n.toNat ≤ 0x030 ∨ n.toNat = 0x100 ∨ n.toNat = 0x180 ∨ n.toNat = 0x18F ∨
         n.toNat = 0x190) → crdValue t s.focus (curX s) n.toNat = readG s d) ∧
       (n.toNat ≠ 0x180 → n.toNat ≠ 0x190 → ∀ q, q ≠ n.toNat → q ≠ 0x015 → q ≠ 0x01A →
         crdValue t s.focus (curX s) q = crdValue s s.focus (curX s) q)))

/-- R164, R166: TCFG within the context's claim binds its handle to the word's tile, empty and with nothing arrived, and no other handle;
TSTAT reads a handle.
R171: MMA and MMAT take the core's array with the two tile bindings, the key and the energy class of their issue; MMAT reads tile A
transposed. No bank changes before a beat.
R169, R172: ZCLR makes a bank live with elements of 0, the exponent of its immediate and both flags clear; SQLD reads 64 bytes of scale
memory for queue A, 32 for queue B, as it issues, to be written as an entry later. -/
def Obligations.EngineSetup : Prop :=
  (∀ (s : State) (h : TH) (w : TReg) (a d : Reg),
     let bound : Tile := { Tile.off with
       v := true, fmt := cfgFmt (readG s a), view := cfgView (readG s a), bytes := cfgBytes (readG s a), base := cfgBase (readG s a) }
     (Issues s (.tcfg h w a) → overClaim s w (readG s a) = false → ∃ t, exec (.tcfg h w a) s = .next t ∧
       IssuedCtx s t (.tcfg h w a) (if lanesOf s (.tcfg h w a) = 0 then me s else
         { me s with live := { (me s).live with tiles := (me s).live.tiles.set w.toNat bound } })) ∧
     (Issues s (.tstat h d w) → ∃ t, exec (.tstat h d w) s = .next t ∧
       IssuedCtx s t (.tstat h d w) (withFlight s (if lanesOf s (.tstat h d w) = 0 ∨ d = 0 then []
         else [inWindow s (.g d.toNat) ((tstatWord (tileOfMe s w)).setWidth 1024) allLanes 1 0])))) ∧
  (∀ (s : State) (e : BitVec 2) (z ta tb : TReg) (k : BitVec 6) (tr ac : Bool),
     let job := fun (i : Instr) (trn : Bool) =>
       ({ x := curX s, z := z, ta := tileOfMe s ta, tb := tileOfMe s tb, na := ta, nb := tb, key := (me s).live.bankkey.setWidth 32, tr := trn,
          tbT := tr, acc := ac, beats := k.toNat + 1, u := 0, e := BitVec.ofNat 2 (chargedClass i), sa := [], sb := [],
          slot := s.latch.slot, word := BitVec.ofNat 32 (slotWord s), pc := (me s).bpc, due := beatWindow s s.focus, dead := false } : MmaJob)
     let starts := fun (i : Instr) (trn : Bool) => Issues s i → ∃ t, exec i s = .next t ∧
       Issued s t i (me s) (if lanesOf s i = 0 then myCore s else { myCore s with mma := some (job i trn) }) s
     starts (.mma e z ta tb k tr ac) false ∧ starts (.mmat e z ta tb k tr ac) true) ∧
  (∀ (s : State) (h : TH) (z : TReg) (m : Imm) (q : Bool) (a : Reg),
     (Issues s (.zclr h z m) → lanesOf s (.zclr h z m) ≠ 0 →
       ∃ t, exec (.zclr h z m) s = .next t ∧
         Issued s t (.zclr h z m) (me s) { myCore s with
           z := (myCore s).z.set z.toNat ⟨true, .empty, m.sval.toInt, false, false⟩
           zdirty := if (myCore s).zdirty.contains z.toNat then (myCore s).zdirty else (myCore s).zdirty ++ [z.toNat] } s) ∧
     (Issues s (.sqld h q a) → lanesOf s (.sqld h q a) ≠ 0 →
       let e := (List.range (if q then 32 else 64)).map fun n => s.mem.read (scaleBase s.focus + (readG s a).toNat % 65536 + n)
       ∃ t, exec (.sqld h q a) s = .next t ∧
         Issued s t (.sqld h q a) (me s) (if q then { myCore s with sqb := { (myCore s).sqb with pend := (myCore s).sqb.pend ++ [(3, e)] } }
           else { myCore s with sqa := { (myCore s).sqa with pend := (myCore s).sqa.pend ++ [(3, e)] } }) s))

/-- R173, R78, Table 7.8: a ZST makes its tile filling and drains rows 0 and 1 in its issue cycle: each byte of them stands in its place of
the tile, and every byte of memory outside the tile's drained bytes reads as before, but for the checkpoint area while a captured block
awaits its copy (R343). Which rows fall in which beat is log entry 37, the area log entry 40.
R173, R79: a ZLD makes its bank live with the exponent and flags of the tile's first element and loads rows 0 and 1 in its issue
cycle; R172, R75, R76: a ZADD joins the flags of its two banks and adds rows 0 to 3 in its issue cycle (log entry 37). No byte of memory
changes. -/
def Obligations.EngineTransfers : Prop :=
  (∀ (s : State) (e : BitVec 2) (z w u : TReg) (k : BitVec 6), Issues s (.zst e z w u k) → lanesOf s (.zst e z w u k) ≠ 0 →
     let epi := (me s).live.epi.get 0 u.toNat
     let tile := tileOfMe s w
     let key := (me s).live.bankkey.setWidth 32
     ∃ t b, exec (.zst e z w u k) s = .next t ∧ IssuedCtx b t (.zst e z w u k) (me b) ∧ b.focus = s.focus ∧ b.latch = s.latch ∧
       (tileOfMe b w).st = .filling ∧ b.pairs = s.pairs ∧ b.serai = s.serai ∧ b.host = s.host ∧ b.timers = s.timers ∧
       (∃ j, (myCore b).drain = some j ∧ j.kind = .zst ∧ j.x = curX s ∧ j.t = w ∧ j.u = 1 ∧ j.beats = 32 ∧ j.bank = bankOf s z ∧
         j.epi = epi ∧
         ∀ p ∈ (drainRow j 0).puts ++ (drainRow j 1).puts, ∀ n, n < p.2.2 →
           b.mem.read (tileByte s.focus key tile.view (tile.base + p.1 + n)) = BitVec.ofNat 8 (p.2.1 / 2 ^ (8 * n))) ∧
       (∀ a, (∀ n, n < drainFootprint epi → a ≠ tileByte s.focus key tile.view (tile.base + n)) →
         (inArea a = false ∨ ∀ p, waitsCopy s p = false) → b.mem.read a = s.mem.read a)) ∧
  ((∀ (s : State) (e : BitVec 2) (z w : TReg) (k : BitVec 6), Issues s (.zld e z w k) → lanesOf s (.zld e z w k) ≠ 0 →
     let key := (me s).live.bankkey.setWidth 32
     let raw := fun r n => tileReadN s s.focus key (tileOfMe s w) (512 * r + 16 * n) 16
     ∃ t k', exec (.zld e z w k) s = .next t ∧ Issued s t (.zld e z w k) (me s) k' s ∧
       { k' with z := (myCore s).z, zdirty := (myCore s).zdirty, drain := (myCore s).drain } = myCore s ∧
       (∀ y, y ≠ z.toNat → k'.z.get Bank.reset y = (myCore s).z.get Bank.reset y) ∧
       (∃ j, k'.drain = some j ∧ j.kind = .zld ∧ j.z = z ∧ j.u = 1 ∧ j.beats = 32) ∧
       let b := k'.z.get Bank.reset z.toNat
       b.live = true ∧ b.zexp = (BitVec.ofNat 16 (raw 0 0 / 2 ^ 80)).toInt ∧ b.inexact = decide (raw 0 0 / 2 ^ 96 % 2 = 1) ∧
       b.ovf = decide (raw 0 0 / 2 ^ 97 % 2 = 1) ∧
       ∀ r n, r < 64 → n < 32 → b.elem r n = if r < 2 then (BitVec.ofNat 80 (raw r n)).toInt else 0) ∧
   (∀ (s : State) (h : TH) (d a : TReg), Issues s (.zadd h d a) → lanesOf s (.zadd h d a) ≠ 0 →
     ∃ t k', exec (.zadd h d a) s = .next t ∧ Issued s t (.zadd h d a) (me s) k' s ∧
       { k' with z := (myCore s).z, zdirty := (myCore s).zdirty, drain := (myCore s).drain } = myCore s ∧
       (∀ y, y ≠ d.toNat → k'.z.get Bank.reset y = (myCore s).z.get Bank.reset y) ∧
       (∃ j, k'.drain = some j ∧ j.kind = .zadd ∧ j.z = d ∧ j.z2 = a ∧ j.u = 1 ∧ j.beats = 16) ∧
       let b := k'.z.get Bank.reset d.toNat
       b.zexp = (bankOf s d).zexp ∧ b.live = (bankOf s d).live ∧
       ((bankOf s d).inexact ∨ (bankOf s a).inexact → b.inexact = true) ∧ ((bankOf s d).ovf ∨ (bankOf s a).ovf → b.ovf = true) ∧
       ∀ r n, r < 64 → n < 32 → b.elem r n =
         if r < 4 then (contribute (bankOf s d).zexp ⟨(bankOf s d).elem r n, false, false⟩ ((bankOf s a).elem r n) (bankOf s a).zexp).v
         else (bankOf s d).elem r n))

/-- R174, R109: a copy slot places the unplaced tiles of its tensor side, looks every one of them up, and is recorded for step 4 of its
commit with its operands, key and residency as at issue; NR is set if a tile is non-resident. -/
def Obligations.CopySlots : Prop :=
  ∀ (s : State) (i : Instr) (f : CopyForm), copySlot s i = some f → Issues s i → lanesOf s i ≠ 0 →
    let ts := refTiles s (me s) f.refs
    let b := placeTiles s (f.kind == .cpout) ts
    let fr := lookTiles b (f.kind == .cpout) ts
    ∃ t, exec i s = .next t ∧
      IssuedCtx b t i { me b with
        nload := (me b).nload + 1
        acts := (me b).acts ++ [.copy (copyCommand b f fr)]
        live := if fr.any (fun q => q.2.isNone) then { (me b).live with cstat := (me b).live.cstat ||| 0x8000 } else (me b).live }

/-- R180, R274, R279: a LICQ that issues has no effect for the holder; else its context holds the licence from this master cycle on (its
core's half under ALT), its request is gone, and the grant belongs to the open interval. -/
def Obligations.LicenceRequests : Prop :=
  ∀ (s : State) (h : TH), Issues s (.licq h) → lanesOf s (.licq h) ≠ 0 →
    let p := getPair s (pairOf s.focus)
    let q := { p with reqs := p.reqs.filter fun r => !(r.core = s.focus && r.x = curX s) }
    (licMine s s.focus (curX s) = true → ∃ t, exec (.licq h) s = .next t ∧ IssuedCtx s t (.licq h) (me s)) ∧
    (licMine s s.focus (curX s) = false → ∃ t, exec (.licq h) s = .next t ∧
      Issued s t (.licq h) { me s with grantInInterval := true } (myCore s)
        (setPair s (pairOf s.focus) (if p.mode then setAlt q s.focus (some (curX s))
          else { q with st := licSide s.focus, holder := some (s.focus, curX s), gapEnd := s.now })))

/-- R191, R337: MONA arms the context's monitor on the 64-byte line that its reference names: at once on an on-chip level (log entry 34), else
once the arm, a transfer to the line's base die, has reached the depot; on a non-resident tile it is disarmed and NR is set.
R194: RQPG gives the context's request number, counts it up, and posts the request with the context's completion address; a replay that
has sent it already sends it no second time (R348; log entry 18). R199: a CLAIM that the core can meet adds to the tile store, to the slice words or to
the allowance, which saturates. -/
def Obligations.MonitorsAndRequests : Prop :=
  (∀ (s : State) (h : TH) (a c : Reg) (tile off : Nat), Issues s (.mona h a c) → lanesOf s (.mona h a c) ≠ 0 →
     let r := refAdd (readG s a) (readG s c)
     locate s (me s) r = some (tile, off) →
     let b := if onChip (refTid r) then s else placeRead s s.focus (me s) (refTid r) tile
     let line := monitorLine b r tile off
     ∃ t, exec (.mona h a c) s = .next t ∧
       if line = [] then IssuedCtx b t (.mona h a c) { markNR (me b) [] with mon := ⟨[], .disarmed, false⟩ }
       else if onChip (refTid r) then IssuedCtx b t (.mona h a c) { me b with mon := ⟨line, .armed, true⟩ }
       else Issued b t (.mona h a c) { me b with mon := ⟨line, .armed, false⟩ } (myCore b)
         (later (carryTo b (coreEnd s.focus) .plain (homesOf (line.filterMap (resolve b)))) (.monitorArmEstablished b.focus (curX b)))) ∧
  ((∀ (s : State) (h : TH) (d a c : Reg), Issues s (.rqpg h d a c) → lanesOf s (.rqpg h d a c) ≠ 0 →
     let n := (me s).rqseq
     let k := { withFlight s (if d = 0 then [] else [inWindow s (.g d.toNat) (n.setWidth 1024) allLanes 1 0]) with
       rqseq := n + 1, rqout := (me s).rqout ++ [n], nload := (me s).nload + 1 }
     ∃ t, exec (.rqpg h d a c) s = .next t ∧
       if sentBefore s s.focus (curX s) (me s).nload SendKind.rqpg.code then IssuedCtx s t (.rqpg h d a c) k
       else Issued s t (.rqpg h d a c)
         { k with sent := if keepsLog s (coreEnd s.focus) then (me s).sent ++ [((me s).nload, SendKind.rqpg.code)] else (me s).sent } (myCore s)
         (later { s with serai := { s.serai with pageReqs := s.serai.pageReqs ++
           [⟨s.focus, curX s, (me s).task, (me s).pid, n, refAdd (readG s a) (readG s c), (me s).cmpla⟩] } } .pageRequestService)) ∧
   (∀ (s : State) (h : TH) (k : BitVec 2) (a : Reg), Issues s (.claim h k a) → lanesOf s (.claim h k a) ≠ 0 →
     claimFails s k.toNat (readG s a).toNat = false →
     let n := (readG s a).toNat
     let total := Nat.min ((me s).allow + n % 2 ^ 32) (2 ^ 32 - 1)
     ∃ t, exec (.claim h k a) s = .next t ∧
       IssuedCtx s t (.claim h k a)
         (if k = 0 then { me s with live := { (me s).live with claimb := (me s).live.claimb + n } }
         else if k = 1 then { me s with live := { (me s).live with slice := (me s).live.slice + n } }
         else { me s with allow := total, allowAdded := (me s).allowAdded + (total - (me s).allow) })))

/-- R27, R28, R315, R320, Table 1.4: a trap of a task context rolls it back to its last waypoint: the waypoint's registers and pc, no
result in flight, no uncommitted store, load, release or act; its three trap registers name the trap, and it waits to be delivered. R319: a
management context enters its handler at HVEC with CSTAT 0 and saves pc, g1, g2 and CSTAT; in handler mode it freezes with cause 0x22
(R320, R329), as a task context does on causes 0x20 and 0x21, at its bundle and with no rollback. While its engine beats or windows run, the
rollback waits for them (R28; the model's reading, log entry 22). After the first residue trap the interval is executed again (R316). The handles
of a matrix state that a save has parked stay with it, as the waypoint had them (log entry 48). A context whose trap is not settled takes
no other. No byte of memory changes. -/
def Obligations.TrapEntry : Prop :=
  ∀ (s : State) (c x : Nat) (r : TrapReq), x < 4 →
    let k := getCtx s c x
    let t := takeTrap s c x r
    let k' := getCtx t c x
    let freezes := (isMgmt c && k.hmode) || r.cause == 0x20 || r.cause == 0x21
    let back := if k.unpark = none ∧ k.grantInInterval = false ∧ (parkedOf s c x).any (·.bySave) = true then { k.wp with tiles := .empty } else k.wp
    t.mem = s.mem ∧ t.now = s.now ∧ t.procs = s.procs ∧ t.dies = s.dies ∧ t.host = s.host ∧
    (∀ d y, (d ≠ c ∨ y ≠ x) → (getCtx t d y).live = (getCtx s d y).live) ∧
    (k.pend ≠ none → { t with latch := s.latch } = s) ∧
    (k.pend = none → freezes = true →
      k'.status = .frozen ∧ k'.pc = k.bpc ∧ k'.live = k.live ∧ k'.flight = k.flight ∧ k'.wbuf = k.wbuf ∧ k'.acts = [] ∧
      k'.trapcause.extractLsb' 0 8 = (if isMgmt c && k.hmode then 0x22 else r.cause) ∧ k'.trapinfo = r.info ∧ t.cores = (setCtx s c x k').cores) ∧
    (k.pend = none → freezes = false → inFlight s c x = true →
      { t with latch := s.latch } = setCtx s c x { k with pend := some r, stopping := true }) ∧
    (k.pend = none → freezes = false → inFlight s c x = false →
      k'.flight = [] ∧ k'.loads = k.loads.filter (·.committed) ∧ k'.wbuf = k.wbuf.filter (·.committed) ∧ k'.releases = [] ∧ k'.acts = [] ∧
      k'.committing = false ∧ k'.task = k.task ∧ k'.nload = k.wpseq ∧ k'.w = k.w ∧
      k'.trapcause = BitVec.ofNat 64 ((if r.late then 4096 else 0) + r.slot % 8 * 256 + r.cause.toNat) ∧
      k'.trappc = r.pc.setWidth 64 ∧ k'.trapinfo = r.info ∧
      (r.cause = 0x11 ∨ isMgmt c = false → k'.live = back ∧ k'.wp = k.wp ∧ k'.pc = k.wppc ∧ k'.jumped = k.wpjumped) ∧
      (r.cause = 0x11 → k'.residueRetry = true ∧ k'.status = k.status ∧ k'.pend = none) ∧
      (r.cause ≠ 0x11 → isMgmt c = false → k'.status = .trapped ∧ k'.pend = some r) ∧
      (r.cause ≠ 0x11 → isMgmt c = true →
        k'.hepc = k.wppc ∧ k'.hg1 = k.wp.g.get 0 1 ∧ k'.hg2 = k.wp.g.get 0 2 ∧ k'.hcstat = k.wp.cstat ∧ k'.hmode = true ∧
        k'.live = { back with cstat := 0 } ∧ k'.wp = k'.live ∧ k'.pc = k.wp.hvec.setWidth 48 ∧ k'.wppc = k'.pc ∧ k'.status = .running ∧
        k'.pend = none))

/-- R14, R16, R33, R130: RESULT_LANDING completes in every state: every due result of a context is written, in program order, with its
flags: a g register takes the last one's value, each lane of a v register and each bit of a p register that of the last one whose mask names
it. Where the residue check of a due one failed, the context takes the residue trap instead, and that result lands nowhere (R81, R82; log
entries 96, 101). A register, lane or bit that no due result names keeps its value, and g0 and p0 always do; a result that is not due stays in
its window, without the lanes that a later one has written (log entry 113). -/
def Obligations.ResultsLand : Prop :=
  (∀ (s : State) (c x : Nat),
    let k := getAny s c x
    (k.flight.find? (fun f => f.residueBad && f.left == 0) = none →
      exec (.resultLanding c x) s = .next (setAny s c x { k with live := (landDue k.live k.flight).1, flight := (landDue k.live k.flight).2 })) ∧
    ∀ f, k.flight.find? (fun f => f.residueBad && f.left == 0) = some f →
      exec (.resultLanding c x) s =
        .next (residueTrap (setAny s c x { k with flight := k.flight.filter fun g => !g.residueBad }) c x f.slot f.pc)) ∧
  ∀ (live : Regs) (fs : List Flight),
    let r := (landDue live fs).1
    (∀ f ∈ (landDue live fs).2, f.left ≠ 0) ∧
    (∀ n d, (d = .g n ∧ n ≠ 0) → ∀ pre f post, fs = pre ++ f :: post → f.left = 0 → f.dest = d → f.mask ≠ 0 →
      (∀ q ∈ post, ¬(q.left = 0 ∧ q.dest = d ∧ q.mask ≠ 0)) → r.g.get 0 n = f.val.setWidth 64) ∧
    (∀ n j, j < 32 → ∀ pre f post, fs = pre ++ f :: post → f.left = 0 → f.dest = .v n → f.mask.getLsbD j = true →
      (∀ q ∈ post, ¬(q.left = 0 ∧ q.dest = .v n ∧ q.mask.getLsbD j = true)) → lane (r.v.get 0 n) j = lane f.val j) ∧
    (∀ n j, j < 32 → (∀ f ∈ fs, ¬(f.left = 0 ∧ f.dest = .v n ∧ f.mask.getLsbD j = true)) →
      lane (r.v.get 0 n) j = lane (live.v.get 0 n) j) ∧
    (∀ n j, n ≠ 0 → j < 32 → ∀ pre f post, fs = pre ++ f :: post → f.left = 0 → f.dest = .p n → f.mask.getLsbD j = true →
      (∀ q ∈ post, ¬(q.left = 0 ∧ q.dest = .p n ∧ q.mask.getLsbD j = true)) → (r.p.get 0 n).getLsbD j = f.val.getLsbD j) ∧
    (∀ n j, j < 32 → (∀ f ∈ fs, ¬(f.left = 0 ∧ f.dest = .p n ∧ f.mask.getLsbD j = true)) →
      (r.p.get 0 n).getLsbD j = (live.p.get 0 n).getLsbD j) ∧
    (landDue live fs).2.map (fun f => { f with mask := 0 }) = (fs.filter fun f => f.left != 0).map (fun f => { f with mask := 0 }) ∧
    (∀ n, n = 0 ∨ (∀ f ∈ fs, ¬(f.left = 0 ∧ f.dest = .g n)) → r.g.get 0 n = live.g.get 0 n) ∧
    (∀ n, n = 0 ∨ (∀ f ∈ fs, ¬(f.left = 0 ∧ f.dest = .p n)) → r.p.get 0 n = live.p.get 0 n) ∧
    (∀ n, (∀ f ∈ fs, ¬(f.left = 0 ∧ f.dest = .v n)) → r.v.get 0 n = live.v.get 0 n) ∧
    r.cstat = live.cstat ||| ((fs.filter fun f => f.left == 0).foldl (fun (a : BitVec 16) (f : Flight) => a ||| f.flags) 0).setWidth 64 ∧
    { r with g := live.g, p := live.p, v := live.v, cstat := live.cstat } = live

/-- R17, R24, R118, R249, R337: a plain long load that may perform gives its destination the bytes at its scope point, or those the buffer
forwarded, and leaves the scoreboard; while the caches have room for its lines, no byte reads otherwise anywhere afterwards. One that
something holds back comes again in the next master cycle; a cancelled load, or one that is not on the scoreboard, does nothing (R31); one
over a broken pair ends with a late address fault (R339); one whose answer a replay holds takes that answer, and its lines (R348). When a
value returns, and that a replay has its answers in its log, are the model's choice (log entries 10, 18, 23). -/
def Obligations.LongLoadsReturn : Prop :=
  ∀ (s : State) (c x n : Nat),
    let k := getCtx s c x
    let due : Due := .longLoadReturn c x n
    ((k.loads.find? fun l => l.id == n) = none → exec (.longLoadReturn c x n) s = .next s) ∧
    (∀ l, (k.loads.find? fun l => l.id == n) = some l →
      (l.cancelled = true ∨ l.handed = false → exec (.longLoadReturn c x n) s = .next s) ∧
      (l.cancelled = false → l.handed = true → ((getAny s c x).wbuf.any fun e => e.committed && e.cls == l.cls && decide (e.seq < l.id)) = false →
        let broken := brokenHome s c (farHomes s c l.scope (loadBytes l))
        (broken = true → exec (.longLoadReturn c x n) s = .next (setCtx s c x { k with
          late := k.late ++ [⟨0x04, l.slot, true, BitVec.ofNat 64 (0x62 * 2 ^ 32), l.pc⟩], loads := k.loads.filter fun q => q.id != l.id })) ∧
        (broken = false → mayPerform s c x l = false →
          exec (.longLoadReturn c x n) s = .next { s with timers := s.timers ++ [(s.now + 1, due)] }) ∧
        (broken = false → mayPerform s c x l = true → l.atomic = none →
          (∀ q u, takeReplay s c (isReply k.run l.id) = some (q, u) → ∃ t, exec (.longLoadReturn c x n) s = .next t ∧
            { getCtx t c x with mon := k.mon } = landLoad k l q.1 ∧ t.serai = s.serai ∧ t.timers = s.timers) ∧
          (takeReplay s c (isReply k.run l.id) = none →
            ∃ t, exec (.longLoadReturn c x n) s = .next t ∧
              { getCtx t c x with mon := k.mon } =
                landLoad k l (loadResult l (l.parts.map fun p => (p.lane, partValue s c l.scope p.addrs p.fwd))) ∧
              t.serai = s.serai ∧ t.pairs = s.pairs ∧ t.clusters = s.clusters ∧ t.host = s.host ∧ t.timers = s.timers ∧
              ((getDie s (dieOf c)).l2.cells.length + l.parts.length ≤ Config.l2Lines →
                (getCore s c).l1.cells.length + l.parts.length ≤ Config.l1Lines →
                t.mem = s.mem ∧ (∀ d y, (d ≠ c ∨ y ≠ x) → getCtx t d y = getCtx s d y) ∧ ∀ d sc a, readAt t d sc a = readAt s d sc a)))))

/-- R118 to R120, Table 5.8: a scalar atomic, of a core or of a management core, that may perform reads its bytes at its scope point, writes there what its operation gives
(ACAS only where the old value was the expected one), and gives the old value to its destination; every other byte of memory and of the
dies' caches stays as it was, but that an atomic of stack scope or wider has its die's dirty copies of its bytes written back first (R253).
The L2 has room for its lines, and no fence asks its bytes to a wider scope (R122).
R154, R118 to R120: a lane atomic whose lanes reach different words performs every one of them: each lane of its mask takes the old value
of its word, and the word what the operation gives of it and the lane of the operand; every other byte stays as it was, but for the write-backs
that R253 asks for. The lanes act in one step (log entry 142).
R23, R113, R249, R250, R253: STORE_PERFORMED performs the oldest committed store of a context: its bytes read as stored at its scope
point, every other byte of memory and of the dies' caches as before, but that a store of stack scope or wider has its die's dirty copies of
its bytes written back first; and the entry leaves the buffer. The L2 has room for its lines. One that something holds back comes again in
the next master cycle. -/
def Obligations.MemoryPerforms : Prop :=
  (∀ (s : State) (c x n : Nat) (l : LongLoad) (op : AtomicOp) (as : List Nat),
     atomicReturns s c x n l op → l.width = 8 → l.vec = false → l.parts = [⟨0, as, []⟩] → as.Nodup → as.length = 8 →
     ((∀ a ∈ as, a < hbmTop) ∨ ∀ a ∈ as, hbmTop ≤ a ∧ a < shadowTop) → (∀ a ∈ as, waitsCopy s a = false) →
     (getDie s (dieOf c)).l2.cells.length + 8 ≤ Config.l2Lines →
     let b := if 4 ≤ l.scope ∧ as.headD 0 < hbmTop ∧ isMgmt c = false then joinDepots s c as else s
     let old := readBytes b c l.scope as
     ∃ t, exec (.longLoadReturn c x n) s = .next t ∧
       (getCtx t c x).live = (landLoad (getCtx s c x) l (BitVec.ofNat 1024 (old % 2 ^ 64))).live ∧
       (getCtx t c x).loads = (getCtx s c x).loads.filter (·.id != n) ∧
       readBytes t c l.scope as = (atomicNew op 64 old (l.opnd.setWidth 64).toNat l.opnd2.toNat).getD old ∧
       ∀ p, p ∉ as → t.mem.read p = b.mem.read p ∧ ∀ d, readL2 t d p = readL2 b d p) ∧
  (∀ (s : State) (c x n : Nat) (l : LongLoad) (op : AtomicOp),
     let as := l.parts.flatMap (·.addrs)
     atomicReturns s c x n l op → l.width = 4 → l.vec = true → l.sext = false → (∀ p ∈ l.parts, p.lane < 32 ∧ p.addrs.length = 4) →
     (l.parts.map (·.lane)).Nodup → as.Nodup → ((∀ a ∈ as, a < hbmTop) ∨ ∀ a ∈ as, hbmTop ≤ a ∧ a < shadowTop) →
     (∀ a ∈ as, waitsCopy s a = false) → (getDie s (dieOf c)).l2.cells.length + as.length ≤ Config.l2Lines →
     let b := if 4 ≤ l.scope ∧ as.headD 0 < hbmTop ∧ isMgmt c = false then joinDepots s c as else s
     ∃ t v, exec (.longLoadReturn c x n) s = .next t ∧
       (getCtx t c x).live = (landLoad (getCtx s c x) l v).live ∧
       (getCtx t c x).loads = (getCtx s c x).loads.filter (·.id != n) ∧
       (∀ p ∈ l.parts,
         let old := readBytes b c l.scope p.addrs
         lane v p.lane = BitVec.ofNat 32 old ∧
         readBytes t c l.scope p.addrs = (atomicNew op 32 old (lane l.opnd p.lane).toNat l.opnd2.toNat).getD old) ∧
       ∀ p, p ∉ as → t.mem.read p = b.mem.read p ∧ ∀ d, readL2 t d p = readL2 b d p) ∧
  (∀ (s : State) (c x : Nat), x < 4 →
     let k := getCtx s c x
     let due : Due := .storePerformed c x
     (oldestEntry k = none → exec (.storePerformed c x) s = .next s) ∧
     ∀ e, oldestEntry k = some e →
       let ready := storeReady k e && storePasses s c k e && !e.cells.any fun w => waitsCopy s w.1
       let b := if 4 ≤ storeScope k e ∧ isMgmt c = false then joinDepots s c (e.cells.map (·.1)) else s
       (ready = false → exec (.storePerformed c x) s = .next { s with timers := s.timers ++ [(s.now + 1, due)] }) ∧
       (ready = true → exec (.storePerformed c x) s = .next (performEntry s c x e)) ∧
       (ready = true → e.release = false → (∀ w ∈ e.cells, w.1 < shadowTop) → sentBefore s c x e.seq 0 = false →
         (getDie s (dieOf c)).l2.cells.length + e.cells.length ≤ Config.l2Lines →
         ∃ t, exec (.storePerformed c x) s = .next t ∧
           { getCtx t c x with mon := k.mon, wbuf := k.wbuf, sent := k.sent } = k ∧ (getCtx t c x).wbuf = k.wbuf.filter (·.seq != e.seq) ∧
           (∀ pre w post, e.cells = pre ++ w :: post → (∀ q ∈ post, q.1 ≠ w.1) → readAt t c (storeScope k e) w.1 = w.2) ∧
           (∀ p, (∀ w ∈ e.cells, w.1 ≠ p) → t.mem.read p = b.mem.read p ∧ ∀ d, readL2 t d p = readL2 b d p) ∧
           t.serai = s.serai ∧ t.pairs = s.pairs ∧ t.host = s.host ∧ t.clusters = s.clusters ∧ t.timers = s.timers))

/-- R191, R193, Table 8.2: MONITOR_ARM_ESTABLISHED makes an armed monitor effective; MNAP_WAKE ends a sleep with code 0 if the monitor has
fired and 2 if it is disarmed; MNAP_TIMEOUT with code 1 once the limit has passed; the code goes into the register and its waypoint
image, and the monitor is disarmed. That the inbound log of the context's die keeps the code for a replay, and that the code joins the
waypoint image, are the model's choices (log entry 18). While nothing ends the sleep, nothing changes. -/
def Obligations.MonitorsAndNaps : Prop :=
  ∀ (s : State) (c x : Nat), x < 4 →
    let k := getCtx s c x
    let e := coreEnd c
    let logged := fun (code : Nat) => if keepsLog s e then
        setDie s e { getDie s e with log := (getDie s e).log ++ [⟨e, 0, .answer k.run (k.nload - 1) (BitVec.ofNat 64 code)⟩] }
      else s
    let woken := fun (d code : Nat) => setCtx (logged code) c x { k with
      live := if d = 0 then k.live else { k.live with g := k.live.g.set d (BitVec.ofNat 64 code) }
      wp := if d = 0 then k.wp else { k.wp with g := k.wp.g.set d (BitVec.ofNat 64 code) }
      nap := none, block := .no, mon := ⟨[], .disarmed, false⟩ }
    (exec (.monitorArmEstablished c x) s = .next (setCtx s c x { k with mon := { k.mon with established := k.mon.st == .armed } })) ∧
    (∀ d, k.nap = some d →
      (k.mon.st = .fired → exec (.mnapWake c x) s = .next (woken d 0)) ∧
      (k.mon.st = .disarmed → exec (.mnapWake c x) s = .next (woken d 2)) ∧
      (k.mon.st = .armed → exec (.mnapWake c x) s = .next s) ∧
      (k.mon.st = .armed → k.napEnd ≤ s.now → exec (.mnapTimeout c x) s = .next (woken d 1)) ∧
      (k.mon.st ≠ .armed ∨ s.now < k.napEnd → exec (.mnapTimeout c x) s = .next s)) ∧
    (k.nap = none → exec (.mnapWake c x) s = .next s ∧ exec (.mnapTimeout c x) s = .next s)

/-- R24, R27, R187, R188, R201: WAYPOINT_COMMIT does nothing before every result and long load of the interval is in and its engine beats
are done. Then, for an interval with at most one recorded TRAP, HALT or RESUME and nothing else to perform, its stores are handed to
memory, the waypoint images take the context's state, and the recorded slot acts: TRAP takes cause 0x12 with its code after the commit,
HALT stops the task (a management context sleeps), RESUME leaves the handler. Beside a TRAP or HALT, a transfer of control of the bundle does
not decide where the context goes on (R127).
R24 step 4, R117, R118, R174, R187 to R206: a commit performs its recorded act, or waits with it where its queue is full. An STL joins the
committed stores, an atomic is handed to memory, a copy joins its queue; MNAP answers or sleeps; TASKL, DSIG and EVSIG join the Serai's or the
die's queue, SEAL and UNSEAL change the seal table, once each (R348; log entry 18); DCINV drops its line or its die's L2; a CWR is the write
of its register. No act but a DCINV changes what a byte reads as.
R24 steps 5 and 6, R167, R170, R172, R179, R180, R27: a commit performs its recorded release: TFREE unbinds its handle, TREL empties a
ready tile, PUBL joins the publications in its place; for the licensee ZFREE ends its bank, SQCLR empties its queue, LICR and LICX give the
licence up, with every live bank and both queues. The images of the banks written in the interval of a licensee are taken, and its drawn
entries are freed. -/
def Obligations.WaypointsCommit : Prop :=
  (∀ (s : State) (c x : Nat) (a : Option Act), x < 4 →
     let k := getCtx s c x
     (commitMoves s c x = false → exec (.waypointCommit c x) s = .next s) ∧
     (commitReady s c x = true → k.handedOver = false → k.acts = a.toList → k.releases = [] → k.post = [] → k.watch = [] →
       licHolds s c x = false → ((banksOf k.vbase k.vregs).all fun b => bankSt (getCore s c) b != 1) = true →
       (a = none ∨ (∃ code slot, a = some (.trap code slot)) ∨ a = some .halt ∨ ∃ tgt, a = some (.resume tgt)) →
       ∃ t, exec (.waypointCommit c x) s = .next t ∧ t.mem = s.mem ∧ t.serai = s.serai ∧ t.host = s.host ∧ t.clusters = s.clusters ∧
         t.dies = s.dies ∧
         let k' := getCtx t c x
         let kr := match a with | some (.resume tgt) => handlerReturn k tgt | some _ => { k with pc := k.bnext } | none => k
         k'.wbuf = k.wbuf.map (fun e => { e with committed := true }) ∧ k'.committing = false ∧ k'.acts = [] ∧ k'.post = [] ∧
         k'.loads = k.loads.map (fun l => { l with committed := true }) ∧ k'.allowAdded = 0 ∧ k'.residueRetry = false ∧
         (a = none ∨ a = some .halt ∨ (∃ tgt, a = some (.resume tgt)) → k'.wp = kr.live ∧ k'.live = kr.live ∧ k'.wppc = kr.pc ∧ k'.pc = kr.pc) ∧
         (a = none → k'.status = k.status ∧ k'.hmode = k.hmode) ∧
         (∀ tgt, a = some (.resume tgt) → k'.hmode = false ∧ k'.pc = tgt ∧ k'.live.g.get 0 1 = k.hg1 ∧ k'.live.g.get 0 2 = k.hg2 ∧
           k'.live.cstat = k.hcstat) ∧
         (a = some .halt → k'.status = if k.status = .running then (if isMgmt c then .asleep else .halted) else k.status) ∧
         (∀ code slot, a = some (.trap code slot) → (isMgmt c = false ∨ k.hmode = false) →
           k'.trapcause = BitVec.ofNat 64 (slot % 8 * 256 + 0x12) ∧ k'.trapinfo = code ∧ k'.trappc = k.bpc.setWidth 64 ∧
           (isMgmt c = false → k'.live = k.live ∧ k'.pc = k.bnext ∧ k'.status = .trapped) ∧
           (isMgmt c = true → k'.hepc = k.bnext ∧ k'.pc = k.live.hvec.setWidth 48 ∧ k'.hmode = true)))) ∧
  (∀ (s : State) (c x : Nat) (a : Act), x < 4 →
     let k := getCtx s c x
     let n := k.nload
     let first := fun (kind : SendKind) => sentBefore s c x n kind.code = false
     plainCommit s c x → licHolds s c x = false → k.acts = [a] → k.releases = [] →
     (actWaits s c x a = true → ∃ t, exec (.waypointCommit c x) s = .next t ∧ (getCtx t c x).acts = [a] ∧
       (getCtx t c x).committing = true ∧ (getCtx t c x).handedOver = true ∧ t.mem = s.mem ∧ t.serai = s.serai ∧ t.dies = s.dies) ∧
     (actWaits s c x a = false → ∃ t, exec (.waypointCommit c x) s = .next t ∧
       let k' := getCtx t c x
       match a with
       | .stl e => t.mem = s.mem ∧ t.serai = s.serai ∧ t.dies = s.dies ∧ k'.committing = false ∧
           (∀ q, q ∈ k'.wbuf ↔ q = { e with committed := true } ∨ ∃ w ∈ k.wbuf, q = { w with committed := true }) ∧
           ∃ m, (m, Due.storePerformed c x) ∈ t.timers
       | .atomic id => t.mem = s.mem ∧ t.serai = s.serai ∧ t.dies = s.dies ∧ k'.committing = false ∧
           k'.loads = k.loads.map (fun l => { l with handed := l.handed || l.id == id, committed := true }) ∧
           ∃ m, (m, Due.longLoadReturn c x id) ∈ t.timers
       | .copy q => (q.kind = .cpcl ∨ q.kind = .cpsc ∨ q.kind = .cpmc → t.mem = s.mem ∧ t.serai = s.serai ∧
           k'.copyq = k.copyq ++ [{ q with off := (k.live.tiles.get Tile.off q.t.toNat).arrived + (k.live.tiles.get Tile.off q.t.toNat).sched }])
       | .mnap d limit => takeReplay s c (isAnswer k.run n) = none →
           t.mem = s.mem ∧ t.serai = s.serai ∧
           (k.mon.st = .armed → 0 < limit → k'.nap = some d ∧ k'.napEnd = s.now + limit ∧ k'.mon = k.mon ∧ k'.live = k.live) ∧
           (k.mon.st ≠ .armed ∨ limit = 0 →
             k'.nap = none ∧ k'.mon.st = .disarmed ∧
             (d ≠ 0 → k'.live.g.get 0 d = (if k.mon.st = .fired then 0 else if k.mon.st = .disarmed then 2 else 1)))
       | .taskl d addr => first .taskl → takeReplay s c (isAnswer k.run n) = none →
           t.serai = { s.serai with launches := s.serai.launches ++ [⟨k.pid, addr, k.prio.toNat, c, x, k.task, n, d, true, none, false⟩] }
       | .dsig v slot => first .dsig →
           t.serai = { s.serai with dsigs := s.serai.dsigs ++ [⟨c, x, k.task, n, v, k.bpc, slot⟩] }
       | .evsig v => first .evsig → t.serai = s.serai ∧
           (getDie t (dieOf c)).evq = (getDie s (dieOf c)).evq ++ [⟨c, x, k.task, n, [v, k.taskid, ctxid c x]⟩]
       | .seal r b => first .seal → ∀ e, sealOf s k r b = some e → t.serai = { s.serai with seals := s.serai.seals ++ [e] }
       | .unseal r b => first .seal → ∀ e, sealOf s k r b = some e →
           t.serai = { s.serai with seals := s.serai.seals.filter fun o => o != e }
       | .dcinvLine p => ∀ q, resolve s p = some q → t.mem = s.mem ∧ (getCore t c).l1.find (q / 64) = none ∧
           ∀ m, m ≠ q / 64 → (getCore t c).l1.find m = (getCore s c).l1.find m
       | .dcinvL2 d => t.mem = s.mem ∧ (getDie t d).l2 = .empty ∧ ∀ d', d' ≠ d → (getDie t d').l2 = (getDie s d').l2
       | .cwr ix v sel ths => performAct s c x a = writeReg (setCtx s c x { k with nload := n + 1 }) ix.toNat v sel ths
       | _ => True)) ∧
  (∀ (s : State) (c x : Nat), x < 4 →
     let k := getCtx s c x
     let q := getCore s c
     plainCommit s c x → k.acts = [] → (getPair s (pairOf c)).moving.contains c = false →
     (licHolds s c x = false → ∀ r, k.releases = [r] → ∃ t, exec (.waypointCommit c x) s = .next t ∧ t.mem = s.mem ∧ t.serai = s.serai ∧
       let k' := getCtx t c x
       match r with
       | .tfree h => k'.live.tiles.get Tile.off h.toNat = (if (k.live.tiles.get Tile.off h.toNat).v then Tile.off else k.live.tiles.get Tile.off h.toNat) ∧
           ∀ y, y ≠ h.toNat → k'.live.tiles.get Tile.off y = k.live.tiles.get Tile.off y
       | .trel h =>
           let l := k.live.tiles.get Tile.off h.toNat
           k'.live.tiles.get Tile.off h.toNat = (if l.st = .ready then
             { l with st := .empty, arrived := 0, zd := false, ovf := false, inexact := false } else l) ∧
           ∀ y, y ≠ h.toNat → k'.live.tiles.get Tile.off y = k.live.tiles.get Tile.off y
       | .publ tid sq _ => k'.pubq = k.pubq ++ [⟨tid, sq⟩] ∧ k'.live = k.live
       | _ => k'.live = k.live ∧ (getCore t c).z = q.z ∧ (getCore t c).sqa = q.sqa ∧ (getCore t c).sqb = q.sqb) ∧
     (licHolds s c x = true →
       (∀ rs, k.releases = rs → rs = [] ∨ (∃ z, rs = [.zfree z]) ∨ (∃ b, rs = [.sqclr b]) →
         ∃ t, exec (.waypointCommit c x) s = .next t ∧ t.mem = s.mem ∧ t.serai = s.serai ∧ licHolds t c x = true ∧
           let q' := getCore t c
           let ended := fun (y : Nat) => rs = [Release.zfree (BitVec.ofNat 3 y)]
           q'.zdirty = [] ∧
           (∀ y, y < 8 → (ended y → (q'.z.get Bank.reset y) = { q.z.get Bank.reset y with live := false }) ∧
             (¬ ended y → q'.z.get Bank.reset y = q.z.get Bank.reset y) ∧
             q'.zwp.get Bank.reset y = (if y ∈ q.zdirty ∨ ended y then q'.z.get Bank.reset y else q.zwp.get Bank.reset y)) ∧
           (rs = [.sqclr true] → q'.sqb.cnt = 0 ∧ q'.sqb.rd = q.sqb.wr ∧ q'.sqb.pend = []) ∧
           (rs = [.sqclr false] → q'.sqa.cnt = 0 ∧ q'.sqa.rd = q.sqa.wr ∧ q'.sqa.pend = []) ∧
           (rs ≠ [.sqclr false] → q'.sqa = { q.sqa with cnt := q.sqa.cnt - q.sqa.drawn, drawn := 0, pushed := 0 }) ∧
           (rs ≠ [.sqclr true] → q'.sqb = { q.sqb with cnt := q.sqb.cnt - q.sqb.drawn, drawn := 0, pushed := 0 })) ∧
       (k.releases = [.licr] ∨ k.releases = [.licx] → ((getPair s (pairOf c)).reqs.any fun r => r.core == c && r.x == x) = false →
         ∃ t, exec (.waypointCommit c x) s = .next t ∧ t.mem = s.mem ∧ licHolds t c x = false ∧
           (∀ y, ((getCore t c).z.get Bank.reset y).live = false) ∧ (getCore t c).sqa.cnt = 0 ∧ (getCore t c).sqb.cnt = 0)))

/-- R21, R30, R86, R374: a core cycle whose current context presents a bundle that passes every check, blocks on nothing and can be paid
for puts the bundle's words into the issue buffer, and the context goes on to the next bundle; one that presents a fault takes its trap, be
the cycle a layover too (log entry 115); one that presents nothing issues nothing, and with its engines idle no byte of memory changes; with
the drain unit busy and its energy at hand, the unit's next beat runs. -/
def Obligations.CoreCycles : Prop :=
  ∀ (s : State) (ws : List Nat) (ps : List Slot) (next : BitVec 48),
    let s0 := countCycle (settleBal s s.focus) s.focus
    let s1 := takeCurrent (refreshBlocks s0 [0, 1, 2, 3])
    let s2 := afterShown s1
    (myCore s0).stall = 0 → scaleStall s0 s.focus = false → issueHeld s0 s.focus = false →
    (present s1 = .ready ws ps next → ((namedBanks s2 ps).all fun b => bankSt (myCore s2) b != 1) = true →
      engineCharge s2 s.focus + (ps.map fun p => slotWeight s2 s.focus p.i).sum ≤ (myCore s2).ebal →
      ∃ t, exec .bundleFetch s = .next t ∧ t.latch.words = ws ∧ t.latch.slot = 0 ∧ t.latch.checked = true ∧ t.latch.next = next ∧
        t.latch.hold = false ∧ t.focus = s.focus ∧ t.now = s.now ∧ (me t).pc = next ∧ (me t).bpc = (me s1).pc ∧ (me t).jumped = false ∧
        (me t).lastIssue = s.now ∧ ((myCore s2).drain = none → t.mem = s.mem)) ∧
    (∀ r, present s1 = .fault r → ∃ u, (me u).wp = (me s2).wp ∧ (me u).wppc = (me s2).wppc ∧ (me u).bpc = (me s2).pc ∧
      exec .bundleFetch s = .next (takeTrap u s.focus (curX s2) r)) ∧
    (present s1 = .nothing → (myCore s2).mma = none → (myCore s2).drain = none →
      ∃ t, exec .bundleFetch s = .next t ∧ t.mem = s.mem ∧ t.latch = s.latch ∧ t.dies = s.dies ∧ t.serai = s.serai ∧
        (me t).live = (me s2).live ∧ (me t).pc = (me s2).pc) ∧
    (present s1 = .nothing → ∀ j, (myCore s2).drain = some j → engineCharge s2 s.focus ≤ (myCore s2).ebal →
      ∃ u, exec .bundleFetch s = .next (drainBeat u s.focus) ∧ (getCore u s.focus).drain = some j ∧ u.mem = s2.mem ∧
        (getCore u s.focus).z = (myCore s2).z)

/-- R169 to R171, R76: SCALE_ENTRY_WRITE puts the SQLD's entry at WR and holds one entry more. A MATRIX_BEAT that draws nothing adds the
products of its depth slice to each of the bank's 64 by 32 elements, in order, clamped and flagged as R76 says, and counts the beat; one that
begins a block first draws the entry at RD of each queue; the first beat of a product that does not accumulate starts from 0; a
beat that finds an empty queue waits for an SQLD in progress, and raises the late queue-imbalance fault without one; the other beats of
such a product change no bank (log entry 22; an SQLD of the same cycle is in progress, log entry 143).
R173, R78, R79, R172: each beat of the drain unit that a core cycle runs: a ZST puts the bytes of its next two rows into its tile, gathers
their flags and counts, and leaves every other byte as it was; a ZLD loads its next two rows from its tile; a ZADD adds its next four. The
rows of each beat are log entry 37, the area's clause log entry 40.
R173, R78, R69: DRAIN_COMPLETE before the last beat does nothing; after it the unit is free, and a ZST's tile is ready with its bank's
flags and the context takes the drain's flags and block counts. No byte changes. -/
def Obligations.EngineBeats : Prop :=
  (∀ (s : State) (c : Nat),
     (∀ e r, (getCore s c).sqa.pend = (0, e) :: r → ∃ t, exec (.scaleEntryWrite c false) s = .next t ∧
       let q := (getCore s c).sqa
       t = setCore s c { getCore s c with sqa := (getCore t c).sqa } ∧ (getCore t c).sqa.ents.get [] q.wr = e ∧
       (∀ n, n ≠ q.wr → (getCore t c).sqa.ents.get [] n = q.ents.get [] n) ∧ (getCore t c).sqa.wr = (q.wr + 1) % 16 ∧
       (getCore t c).sqa.cnt = q.cnt + 1 ∧ (getCore t c).sqa.rd = q.rd ∧ (getCore t c).sqa.pend = r) ∧
     (∀ e r, (getCore s c).sqb.pend = (0, e) :: r → ∃ t, exec (.scaleEntryWrite c true) s = .next t ∧
       t = setCore s c { getCore s c with sqb := (getCore t c).sqb } ∧ (getCore t c).sqb.cnt = (getCore s c).sqb.cnt + 1 ∧
       (getCore t c).sqb.ents.get [] (getCore s c).sqb.wr = e) ∧
     ((getCore s c).mma = none → exec (.matrixBeat c) s = .next s) ∧
     (∀ j, (getCore s c).mma = some j → j.due = true → j.dead = false → beatDraws j = true → beatEmpty s c j = false →
       (j.acc = true ∨ 0 < j.u) →
       ∃ t, exec (.matrixBeat c) s = .next t ∧ t.mem = s.mem ∧ t.serai = s.serai ∧ t.dies = s.dies ∧
         let qa := (getCore s c).sqa
         let qb := (getCore s c).sqb
         let j1 := { j with sa := qa.ents.get [] qa.rd, sb := qb.ents.get [] qb.rd }
         let b := coreBank s c j.z
         (getCore t c).sqa = { qa with rd := (qa.rd + 1) % 16, drawn := qa.drawn + 1 } ∧
         (getCore t c).sqb = { qb with rd := (qb.rd + 1) % 16, drawn := qb.drawn + 1 } ∧
         (∀ r n, r < 64 → n < 32 → (coreBank t c j.z).elem r n =
           (BitVec.ofInt 80 (beatElem s c j1 b.zexp r n ⟨b.elem r n, false, false⟩).v).toInt) ∧
         (getCore t c).mma = (if j.u + 1 < j.beats then some { j1 with u := j.u + 1, due := false } else none)) ∧
     (∀ j, (getCore s c).mma = some j → j.due = true → j.dead = false → beatEmpty s c j = false → j.acc = false → j.u = 0 →
       ∃ t, exec (.matrixBeat c) s = .next t ∧
         let qa := (getCore s c).sqa
         let qb := (getCore s c).sqb
         let j1 := if beatDraws j then { j with sa := qa.ents.get [] qa.rd, sb := qb.ents.get [] qb.rd } else j
         ∀ r n, r < 64 → n < 32 → (coreBank t c j.z).elem r n =
           (BitVec.ofInt 80 (beatElem s c j1 (coreBank s c j.z).zexp r n ⟨0, false, false⟩).v).toInt) ∧
     (∀ j, (getCore s c).mma = some j → j.due = true → j.dead = false → beatDraws j = false → (j.acc = true ∨ 0 < j.u) →
       ∃ t, exec (.matrixBeat c) s = .next t ∧ t.mem = s.mem ∧ t.serai = s.serai ∧ t.dies = s.dies ∧
         let b := coreBank s c j.z
         let b' := coreBank t c j.z
         let sum := fun r n => beatElem s c j b.zexp r n ⟨b.elem r n, false, false⟩
         (∀ r n, r < 64 → n < 32 → b'.elem r n = (BitVec.ofInt 80 (sum r n).v).toInt) ∧ b'.zexp = b.zexp ∧ b'.live = b.live ∧
         (b'.ovf = true ↔ b.ovf = true ∨ ∃ r n, r < 64 ∧ n < 32 ∧ (sum r n).ovf = true) ∧
         (b'.inexact = true ↔ b.inexact = true ∨ ∃ r n, r < 64 ∧ n < 32 ∧ (sum r n).inexact = true) ∧
         (∀ y, y ≠ j.z.toNat → (getCore t c).z.get Bank.reset y = (getCore s c).z.get Bank.reset y) ∧
         (getCore t c).mma = (if j.u + 1 < j.beats then some { j with u := j.u + 1, due := false } else none) ∧
         (getCore t c).sqa = (getCore s c).sqa ∧ (getCore t c).sqb = (getCore s c).sqb) ∧
     (∀ j, (getCore s c).mma = some j → j.due = true → j.dead = false → beatEmpty s c j = true →
       (beatWaits s c j = true → exec (.matrixBeat c) s = .next (setCore s c { getCore s c with mma := some { j with due := false } })) ∧
       (beatWaits s c j = false → exec (.matrixBeat c) s =
         .next (takeTrap (setCore s c { getCore s c with mma := some { j with due := false, dead := true } }) c j.x
           ⟨0x0C, j.slot, true, BitVec.ofNat 64 (0x31 * 2 ^ 32 + j.word.toNat), j.pc⟩))) ∧
     (∀ j, (getCore s c).mma = some j → j.due = true → j.dead = true → ∃ t, exec (.matrixBeat c) s = .next t ∧
       (getCore t c).z = (getCore s c).z ∧ t.mem = s.mem)) ∧
  (∀ (s : State) (c : Nat) (j : DrainJob), (getCore s c).drain = some j → j.u < (if j.kind = .zadd then 16 else 32) →
     let t := drainBeat s c
     let b := coreBank s c j.z
     let b' := coreBank t c j.z
     ∃ j', (getCore t c).drain = some j' ∧ { j' with flags := j.flags, under := j.under, sat := j.sat } = { j with u := j.u + 1 } ∧
     (j.kind = .zst →
       let r0 := drainRow j (2 * j.u)
       let r1 := drainRow j (2 * j.u + 1)
       j'.flags = (j.flags ||| r0.flags ||| r1.flags) ∧ j'.under = j.under + r0.under + r1.under ∧ j'.sat = j.sat + r0.sat + r1.sat ∧
       (∀ p ∈ r0.puts ++ r1.puts, ∀ n, n < p.2.2 →
         t.mem.read (tileByte c j.key j.tile.view (j.tile.base + p.1 + n)) = BitVec.ofNat 8 (p.2.1 / 2 ^ (8 * n))) ∧
       (∀ a, (∀ p ∈ r0.puts ++ r1.puts, ∀ n, n < p.2.2 → a ≠ tileByte c j.key j.tile.view (j.tile.base + p.1 + n)) →
         (inArea a = false ∨ ∀ p, waitsCopy s p = false) → t.mem.read a = s.mem.read a) ∧ (getCore t c).z = (getCore s c).z) ∧
     (j.kind = .zld → t.mem = s.mem ∧ (∀ y, y ≠ j.z.toNat → (getCore t c).z.get Bank.reset y = (getCore s c).z.get Bank.reset y) ∧
       b'.zexp = b.zexp ∧ ∀ r n, r < 64 → n < 32 → b'.elem r n = if r / 2 = j.u then
         (BitVec.ofNat 80 (tileReadN s c j.key j.tile (512 * r + 16 * n) 10)).toInt else b.elem r n) ∧
     (j.kind = .zadd → t.mem = s.mem ∧ (∀ y, y ≠ j.z.toNat → (getCore t c).z.get Bank.reset y = (getCore s c).z.get Bank.reset y) ∧
       b'.zexp = b.zexp ∧ ∀ r n, r < 64 → n < 32 → b'.elem r n = if r / 4 = j.u then
         (contribute b.zexp ⟨b.elem r n, false, false⟩ ((coreBank s c j.z2).elem r n) (coreBank s c j.z2).zexp).v else b.elem r n)) ∧
  (∀ (s : State) (c : Nat),
     ((getCore s c).drain = none → exec (.drainComplete c) s = .next s) ∧
     ∀ j, (getCore s c).drain = some j →
       (j.u < j.beats → exec (.drainComplete c) s = .next s) ∧
       (j.beats ≤ j.u → ∃ t, exec (.drainComplete c) s = .next t ∧ (getCore t c).drain = none ∧ t.mem = s.mem ∧ t.serai = s.serai ∧
         (∀ d, d ≠ c → getCore t d = getCore s d) ∧
         (j.kind ≠ .zst → getCtx t c j.x = getCtx s c j.x) ∧
         (j.kind = .zst →
           let k := getCtx s c j.x
           let w := k.live.tiles.get Tile.off j.t.toNat
           let k' := getCtx t c j.x
           k'.live.tiles.get Tile.off j.t.toNat = { w with st := .ready, zd := true, ovf := j.bank.ovf, inexact := j.bank.inexact } ∧
           k'.live.cstat = k.live.cstat ||| j.flags.setWidth 64 ∧ k'.live.underzero = k.live.underzero + j.under ∧
           k'.live.satblk = k.live.satblk + j.sat ∧
           { k' with live := k.live } = k ∧
           { k'.live with tiles := k.live.tiles, cstat := k.live.cstat, underzero := k.live.underzero, satblk := k.live.satblk } = k.live)))

/-- R174 to R176, R295, R337, R339, R343: a command that is done, or that its engine has not started, delivers nothing; one that awaits data
over a broken pair stops with a late fault; a started CPIN, CPCL or CPSC delivers its next run of bytes, and each byte stands in its place;
every other byte of memory reads as before (but for a checkpoint area while a captured block awaits its copy; log entry 40); the run is due no
longer, and the next delivery or the completion falls due. A delivery that must wait comes again in the next master cycle (log entry 17). A
completed command leaves its queue.
R174, R295: the bytes of a copy come in any order. The run that comes next is the one that the model's script asks for (log entry 136): it
is a run of bytes still due, within one row; every byte still due can come next, alone; and a run that has come is due no longer, while every
other byte is.
R177, R329: a CPMC that has served a core delivers nothing more to it; while no handle of that core can receive it, the delivery is held
and no byte changes; an empty handle that matches takes the whole block: its bytes stand in the receiving tile, and every other byte of
memory reads as before (but for a checkpoint area while a captured block awaits its copy; log entry 40). A relay over a broken pair stops with
a late fault (R339). A delivery held for 2^20 core cycles freezes its core's engine and raises the source 0x02 event, and stays held; a
shorter one does not. -/
def Obligations.CopiesDeliver : Prop :=
  (∀ (s : State) (c x n o y : Nat) (q : CopyCmd), ownerOf s n = some (o, y) → findCmd (getAny s o y) n = some q →
     let p := nextPiece s o y q
     let bs := (copyData s o y q p.1 fun u => packedBytes u c q p.1 p.2).2
     let place := fun i => if q.kind = .cpsc then scaleBase c + q.dst.toNat % 65536 + i
       else if q.kind = .cpcl then engineByte q.key q.slbase c (refTid q.dst) (refIdx q.dst + i)
       else tileByte c q.key q.view (q.base + q.off + i)
     let runs := q.done = false ∧ q.started = true
     let left := dropPiece q.todo p
     (q.done = true ∨ q.started = false → exec (.copyDelivery c x n) s = .next s) ∧
     (runs → copyBroken s c q = true → exec (.copyDelivery c x n) s = .next (setAny s o y { getAny s o y with
       copyq := (getAny s o y).copyq.filter fun r => r.id != q.id
       reserved := (getAny s o y).reserved.filter fun r => r.2.2 != q.id
       late := (getAny s o y).late ++ [⟨0x04, q.slot, true, BitVec.ofNat 64 (0x62 * 2 ^ 32), q.pc⟩] })) ∧
     (runs → copyBroken s c q = false → deliveryWaits s c q p = true →
       exec (.copyDelivery c x n) s = .next { s with timers := s.timers ++ [(s.now + 1, .copyDelivery c x n)] }) ∧
     (runs → copyBroken s c q = false → deliveryWaits s c q p = false → (q.kind = .cpin ∨ q.kind = .cpcl ∨ q.kind = .cpsc) →
       ∃ t, exec (.copyDelivery c x n) s = .next t ∧ (∀ i, i < p.2 → i < bs.length → t.mem.read (place (p.1 + i)) = bs.getD i 0) ∧
         (∀ a, (∀ i, i < p.2 → a ≠ place (p.1 + i)) → (inArea a = false ∨ ∀ b, waitsCopy s b = false) → t.mem.read a = s.mem.read a) ∧
         findCmd (getAny t o y) n = some { q with todo := left, done := left.isEmpty } ∧
         t.timers = s.timers ++ [(s.now + nextDelay s, if left.isEmpty then .copyComplete c x n else .copyDelivery c x n)] ∧
         t.pieces = s.pieces.drop 1 ∧ t.pairs = s.pairs ∧ t.host = s.host ∧ t.clusters = s.clusters) ∧
     (takeReplay s o (isRow (getAny s o y).run q.seq p.1) = none → bs = packedBytes s c q p.1 p.2) ∧
     (q.done = false → exec (.copyComplete c x n) s = .next s) ∧
     (q.done = true → exec (.copyComplete c x n) s = .next (setAny s o y { getAny s o y with
       copyq := (getAny s o y).copyq.filter fun r => r.id != n
       reserved := (getAny s o y).reserved.filter fun r => r.2.2 != n }))) ∧
  (∀ (s : State) (o x : Nat) (q : CopyCmd), 0 < q.wide →
     let due := fun (l : List (Nat × Nat)) (i : Nat) => ∃ r ∈ l, r.1 ≤ i ∧ i < r.1 + r.2
     (takeReplay s o (isPiece (getAny s o x).run q.seq) = none → nextPiece s o x q = pieceOf q.wide q.todo (s.pieces.headD (0, 0))) ∧
     (∀ w, q.todo ≠ [] → (∀ r ∈ q.todo, 0 < r.2) →
       let p := pieceOf q.wide q.todo w
       0 < p.2 ∧ p.1 % q.wide + p.2 ≤ q.wide ∧ ∃ r ∈ q.todo, r.1 ≤ p.1 ∧ p.1 + p.2 ≤ r.1 + r.2) ∧
     (∀ i, due q.todo i → pieceOf q.wide q.todo (i, 1) = (i, 1)) ∧
     (∀ r p, q.todo.Pairwise (fun a b => a.1 + a.2 ≤ b.1) → r ∈ q.todo → r.1 ≤ p.1 → p.1 < r.1 + r.2 → p.1 + p.2 ≤ r.1 + r.2 →
       ∀ i, due (dropPiece q.todo p) i ↔ due q.todo i ∧ ¬ (p.1 ≤ i ∧ i < p.1 + p.2))) ∧
  (∀ (s : State) (c x n i o y : Nat) (q : CopyCmd), ownerOf s n = some (o, y) → findCmd (getAny s o y) n = some q →
     let k := c / 8 * 8 + i
     let bs := (copyData s o y q k fun u => packedBytes u c q 0 (q.rows * q.wide)).2
     let long := relayExpired s c q
     let waits := !homesPass s c (copyHomes s q) || ((getCore s c).engineFrozen && long)
     let again : Nat × Due := (s.now + 1, .relayDelivery c x n i)
     (q.served.contains k = true ∨ q.started = false → exec (.relayDelivery c x n i) s = .next s) ∧
     (q.served.contains k = false → q.started = true → copyBroken s c q = true →
       exec (.relayDelivery c x n i) s = .next (setAny s o y { getAny s o y with
         copyq := (getAny s o y).copyq.filter fun r => r.id != q.id
         reserved := (getAny s o y).reserved.filter fun r => r.2.2 != q.id
         late := (getAny s o y).late ++ [⟨0x04, q.slot, true, BitVec.ofNat 64 (0x62 * 2 ^ 32), q.pc⟩] })) ∧
     (q.served.contains k = false → q.started = true → copyBroken s c q = false → waits = true →
       exec (.relayDelivery c x n i) s = .next { s with timers := s.timers ++ [again] }) ∧
     (q.served.contains k = false → q.started = true → copyBroken s c q = false → waits = false →
       (relayTile s k q = none ∨ (∃ r, relayTile s k q = some r ∧ r.2.2.st ≠ .empty)) →
       ∃ t q', exec (.relayDelivery c x n i) s = .next t ∧ t.mem = s.mem ∧ findCmd (getAny t o y) n = some q' ∧
         (findCell k q'.held).isSome = true ∧ q'.served = q.served ∧ t.timers = s.timers ++ [again]) ∧
     (∀ r, q.served.contains k = false → q.started = true → copyBroken s c q = false → waits = false → relayTile s k q = some r → r.2.2.st = .empty →
       let place := fun j => tileByte k ((getCtx s k r.1).live.bankkey.setWidth 32) r.2.2.view (r.2.2.base + 0 + j)
       ∃ t q', exec (.relayDelivery c x n i) s = .next t ∧ (∀ j, j < bs.length → t.mem.read (place j) = bs.getD j 0) ∧
         (∀ a, (∀ j, j < bs.length → a ≠ place j) → (inArea a = false ∨ ∀ p, waitsCopy s p = false) → t.mem.read a = s.mem.read a) ∧
         findCmd (getAny t o y) n = some q' ∧ q'.served = q.served ++ [k] ∧ t.pairs = s.pairs ∧ t.host = s.host) ∧
     (takeReplay s o (isRow (getAny s o y).run q.seq k) = none → bs = packedBytes s c q 0 (q.rows * q.wide)) ∧
     ((getCore s c).engineFrozen = true ∨ long = false → exec (.relayHoldTimeout c x n) s = .next s) ∧
     ((getCore s c).engineFrozen = false → long = true → ∃ t, exec (.relayHoldTimeout c x n) s = .next t ∧
       t.cores = (setCore s c { getCore s c with engineFrozen := true }).cores ∧ t.mem = s.mem ∧
       t.serai = { s.serai with raised := s.serai.raised ++ [(0x02, false, [BitVec.ofNat 64 (2 ^ 47 + c % 2048 * 2 ^ 32)])] }))

/-- R179, R256: PUBL_SWAP with no publication due does nothing; a due one makes the last staging frame of each of its tiles that tile's
published frame: the tile's entry names it as resident, and where no L2 line is dirty it holds the bytes that the covered CPOUTs wrote, in
program order, over what was published. The publication and its frames leave the context; no byte outside the frames, the old frames and the
entries changes, and no register of any context. Accesses in flight follow the tile (log entry 35). A replayed publication swaps nothing (R348;
log entry 18). -/
def Obligations.PublicationsSwap : Prop :=
  ∀ (s : State) (c x : Nat), x < 4 →
    let k := getCtx s c x
    (duePub k = none → exec (.publSwap c x) s = .next s) ∧
    (∀ p, duePub k = some p → sentBefore s c x p.seq SendKind.publ.code = true → ∃ t, exec (.publSwap c x) s = .next t ∧ t.mem = s.mem ∧
      (getCtx t c x).pubq = k.pubq.filter (fun o => o != p) ∧ ∀ f ∈ (getCtx t c x).outFrames, f ∉ pubFrames k p) ∧
    ∀ p l, duePub k = some p → sentBefore s c x p.seq SendKind.publ.code = false → (getProc s k.pid).tensors.find p.tid.toNat = some l →
      let fs := pubFrames k p
      let ent := fun (f : OutFrame) => l.ttab + 8 * (f.key % 2 ^ 48)
      let off := fun (a n b : Nat) => a + n ≤ b ∨ b + 65536 ≤ a
      let old := fun (f : OutFrame) => let n := entryAt s l (f.key % 2 ^ 48); if n / 2 ^ 62 = 1 then some (frameOf s n) else none
      let wrote := fun (f : OutFrame) (i : Nat) => f.spans.any fun r => decide (r.1 ≤ i) && decide (i < r.1 + r.2)
      let apart := (fs.map fun f => f.frame).Nodup ∧ (∀ f ∈ fs, f.frame % 65536 = 0 ∧ f.frame < 2 ^ 40 ∧ (∀ r ∈ f.spans, r.1 + r.2 ≤ 65536) ∧
        (∀ i, i < 8 → inArea (ent f + i) = false) ∧ ∀ g ∈ fs, off (ent f) 8 g.frame ∧ ∀ o, old g = some o → off (ent f) 8 o ∧ o ≠ f.frame)
      ∃ t, exec (.publSwap c x) s = .next t ∧ t.now = s.now ∧ t.procs = s.procs ∧ t.host = s.host ∧ t.pairs = s.pairs ∧
        (getCtx t c x).pubq = k.pubq.filter (fun o => o != p) ∧ (getCtx t c x).outFrames = k.outFrames.filter (fun f => !fs.contains f) ∧
        (∀ d y, (getCtx t d y).live = (getCtx s d y).live ∧ (getCtx t d y).wp = (getCtx s d y).wp ∧ (getCtx t d y).pc = (getCtx s d y).pc) ∧
        (apart → (∀ a, inArea a = false → (∀ f ∈ fs, off a 1 f.frame ∧ (a < ent f ∨ ent f + 8 ≤ a) ∧ ∀ o, old f = some o → off a 1 o) →
            t.mem.read a = s.mem.read a) ∧
          ∀ f ∈ fs, (fs.filter fun g => g.key == f.key).getLast? = some f →
            entryAt t l (f.key % 2 ^ 48) = 2 ^ 62 + pkgNo s * 2 ^ 48 + f.frame ∧
            ((∀ d ln q, (getDie s d).l2.find ln = some q → q.dirty = 0) → ∀ i, i < 65536 → t.mem.read (f.frame + i) =
              match (fs.filter fun g => g.key == f.key && wrote g i).getLast? with
              | some g => s.mem.read (g.frame + i)
              | none => s.mem.read ((old f).getD f.frame + i)))

/-- R180, R275, R278, R298, R299: when the gap of a PASSING licence has passed, its grantee holds it, and has its parked state back if the
move is over too; when a ZXT's move is over and no waiting request may take it, the licence is PARKED for the context that moved (under ALT
its half is free); when a move back is over and the gap has passed, the context's banks, queues and handles stand on its core again. Each does
nothing where its condition does not hold. Which request takes a PARKED licence follows Table 12.2; the banks' waypoint images stay on the
context's own core (log entry 48).
R273: a write to LICMODE is pending until the licence of its pair is free and both arrays have been still for 64 cycles; then it takes
effect. A reserved value is never written (R41). -/
def Obligations.LicencePasses : Prop :=
  (∀ (s : State) (pr c x : Nat),
     let p := getPair s pr
     let q := getPair s (pairOf c)
     let moved := { q with moving := q.moving.filter (· != c) }
     (∀ g, p.grantee = some g → p.st = .passing → p.gapEnd ≤ s.now →
       let t := setPair s pr { p with st := licSide g.core, holder := some (g.core, g.x) }
       exec (.passingGapEnd pr) s = .next (restoreParked t g.core g.x) ∧
       ((getCtx s g.core g.x).restoring = false → restoreParked t g.core g.x = t)) ∧
     (p.grantee = none ∨ p.st ≠ .passing ∨ s.now < p.gapEnd → (∀ g, p.grantee = some g → moveBackOver s g.core g.x = false) →
       exec (.passingGapEnd pr) s = .next s) ∧
     (zxtOver s c x = false → exec (.zxtMoveDone c x) s = .next s) ∧
     (zxtOver s c x = true → q.mode = false → (getCtx s c x).status ≠ .parking →
       let t := setPair s (pairOf c) { moved with holder := none, grantee := none, parkedFor := some (c, x), st := .parked }
       (q.pendMode.isSome = true ∨ parkedTaker s moved (c, x) = none → exec (.zxtMoveDone c x) s = .next t) ∧
       ∀ r, q.pendMode = none → parkedTaker s moved (c, x) = some r → exec (.zxtMoveDone c x) s = .next (licChoose t (pairOf c) r)) ∧
     (zxtOver s c x = true → q.mode = true → (∀ r ∈ q.reqs, r.core ≠ c) → (getCtx s c x).status ≠ .parking →
       exec (.zxtMoveDone c x) s = .next (setPair s (pairOf c) (setAlt moved c none))) ∧
     (moveBackOver s c x = false → exec (.parkedRestoreDone c x) s = .next s) ∧
     (∀ m, x < 4 → moveBackOver s c x = true → parkedOf s c x = some m →
       ∃ t, exec (.parkedRestoreDone c x) s = .next t ∧ t.mem = s.mem ∧ t.pairs = s.pairs ∧ (getCore t c).z = m.banks ∧
         (getCore t c).zwp = (getCtx s c x).zwp ∧ (getCore t c).zdirty = (getCtx s c x).zdirty ∧
         (getCore t c).sqa = m.sqa ∧ (getCore t c).sqb = m.sqb ∧ (getCtx t c x).live = { (getCtx s c x).live with tiles := m.tiles } ∧
         (getCtx t c x).restoring = false ∧ parkedOf t c x = none)) ∧
  (∀ (s : State) (pr : Nat) (v : Word),
     let p := getPair s pr
     (v.toNat < 2 → exec (.licmodeWrite pr v) s = .next (setPair s pr { p with pendMode := some (v.getLsbD 0) })) ∧
     (2 ≤ v.toNat → exec (.licmodeWrite pr v) s = .next s) ∧
     (p.pendMode = none ∨ p.st ≠ .free ∨ s.now < p.freeLower ∨ s.now < p.freeUpper → exec (.licmodeTakesEffect pr) s = .next s) ∧
     (∀ m, p.pendMode = some m → p.st = .free → p.freeLower ≤ s.now → p.freeUpper ≤ s.now → p.reqs = [] →
       exec (.licmodeTakesEffect pr) s = .next (setPair s pr { p with mode := m, pendMode := none, choose := none, altLower := none, altUpper := none })))

/-- R351 to R354, R208: writes to CLGRANT and EPROF are stored, and every core's profile in force, which its energy up to now has followed,
is the old one for the rest of this master cycle; CLKPAT is stored, and the pattern in force changes only at multiples of sixteen cycles; MCLKF
is stored and GRANTED follows at a CLOCK_CHANGE, at the next multiple of sixteen (the model's choice, log entry 51); a bank that is free goes OFF at once, a held one is refused OFF with DENY set, and a transition ends in the state asked for. -/
def Obligations.PowerRegisters : Prop :=
  ∀ (s : State) (k d n c b st : Nat) (v : Word),
    (valueOk 0x182 v = true → ∃ t, exec (.clgrantWrite k v) s = .next t ∧ (getCluster t k).grant = v.setWidth 16 ∧
      (∀ j, profileOf t j = profileOf s j) ∧ (∀ j, isMgmt j = false → clusterOf j = k → (getDie s (dieOf j)).eprofAt ≠ s.now + 1 →
        profileOf { t with now := s.now + 1 } j = eprofOf s (dieOf j) (v.toNat / 4 ^ (j % 8) % 4)) ∧
      (∀ j, j < 8 → (getCore t (8 * k + j)).ebal = Nat.min (ceilOf (profileOf s (8 * k + j)))
        ((getCore s (8 * k + j)).ebal + refillOf (profileOf s (8 * k + j)) * (s.now - (getCore s (8 * k + j)).ebalAt))) ∧
      { t with cores := s.cores, clusters := s.clusters } = s) ∧
    (valueOk 0x184 v = true → n < 4 → ∃ t, exec (.eprofWrite d n v) s = .next t ∧ eprofOf t d n = v ∧ (∀ m, m ≠ n → eprofOf t d m = eprofOf s d m) ∧
      (∀ j, profileOf t j = profileOf s j) ∧
      { t with cores := s.cores, dies := s.dies } = s) ∧
    (valueOk 0x181 v = true → ∃ t, exec (.clkpatWrite k v) s = .next t ∧ (getCluster t k).pat = v.setWidth 16 ∧
      (s.now % 16 ≠ 0 → t = setCluster s k { getCluster s k with pat := v.setWidth 16 }) ∧
      (s.now % 16 = 0 → (getCluster t k).epat = patternOf t k) ∧ { t with clusters := s.clusters, turns := s.turns } = s) ∧
    (valueOk 0x189 v = true → ∃ t, exec (.mclkfWrite st v) s = .next t ∧ getStack t st = { getStack s st with target := v.toNat % 2 ^ 11 } ∧
      t.timers = (if grantedOf t st = (getStack s st).granted then s.timers
        else s.timers ++ [((s.now / 16 + 1) * 16, .clockChange st)]) ∧ { t with cstacks := s.cstacks, timers := s.timers } = s) ∧
    exec (.clockChange st) s = .next (setStack s st { getStack s st with granted := grantedOf s st }) ∧
    (valueOk 0x188 v = true → b < 4 → (getCore s c).inService.getLsbD b = true → v.toNat / 4 ^ b % 4 = 2 →
      ∃ t, exec (.rbctlWrite c v) s = .next t ∧ (getCore t c).rbreq = v.setWidth 8 ∧ t.mem = s.mem ∧
        (bankHeld s c b = false → bankSt (getCore t c) b = 2) ∧
        (bankHeld s c b = true → (getCore t c).rbdeny = true ∧ bankSt (getCore t c) b = bankSt (getCore s c) b)) ∧
    ((getCore s c).rbwake.find b ≠ some 0 → (∀ e, (getCore s c).rbend.find b = some e → s.now < e) →
      exec (.bankTransitionDone c b) s = .next s) ∧
    (b < 4 → (getCore s c).rbwake.find b = some 0 → ∃ t, exec (.bankTransitionDone c b) s = .next t ∧ bankSt (getCore t c) b = 0 ∧
      bankMoves (getCore t c) b = false ∧ { t with cores := s.cores } = s) ∧
    (∀ e, b < 4 → (getCore s c).rbwake.find b ≠ some 0 → (getCore s c).rbend.find b = some e → e ≤ s.now → ∃ t, exec (.bankTransitionDone c b) s = .next t ∧
      bankSt (getCore t c) b = (if bankReq (getCore s c) b = 0 then 0 else 1) ∧ (getCore t c).rbend.find b = none ∧
      (∀ a, a < 4 → a ≠ b → bankSt (getCore t c) a = bankSt (getCore s c) a) ∧ { t with cores := s.cores } = s)

/-- R41, R283, R362: a written register that a context holds reads what was written, and a value that its field map reserves is never
written; WAKESET sets bits of WAKEREQ; MANAGEMENT_WAKE wakes a management context that sleeps and whose enabled source holds, and no
other. -/
def Obligations.RegisterWrites : Prop :=
  ∀ (s : State) (c x d : Nat) (ix : BitVec 10) (v : Word),
    (exec (.bankkeyWrite c x v) s = .next (if v.toNat < 2 ^ 32 then
      setCtx s c x { getCtx s c x with live := { (getCtx s c x).live with bankkey := v } } else s)) ∧
    (valueOk 0x030 v = true → ∃ t, exec (.nwatchWrite c x v) s = .next t ∧ (getCtx t c x).live = { (getCtx s c x).live with nwatch := v } ∧
      (getCtx t c x).watch = (getCtx s c x).watch ++ [.write (v.getLsbD 0)] ∧ t = setCtx s c x (getCtx t c x)) ∧
    (valueOk 0x030 v = false → exec (.nwatchWrite c x v) s = .next s) ∧
    ((regKnown ix.toNat = false ∨ regRO (isMgmt c) ix.toNat = true ∨ valueOk ix.toNat v = false ∨ (0x100 ≤ ix.toNat ∧ isMgmt c = false)) →
      exec (.registerWrite c x ix v) s = .next s) ∧
    (regKnown ix.toNat = true → regRO (isMgmt c) ix.toNat = false → valueOk ix.toNat v = true → (ix.toNat < 0x100 ∨ isMgmt c = true) →
      ctxHeld ix.toNat = true → ix.toNat ≠ 0x002 → ∃ t, exec (.registerWrite c x ix v) s = .next t ∧ crdValue t c x ix.toNat = v ∧
        (∀ r, r ≠ ix.toNat → ix.toNat ≠ 0x180 → ix.toNat ≠ 0x190 → crdValue t c x r = crdValue s c x r) ∧ t = setCtx s c x (getCtx t c x)) ∧
    (v.toNat < 2 ^ 16 → ∃ t, exec (.wakesetWrite d v) s = .next t ∧ t = setDie s d (getDie t d) ∧
      (getDie t d).wakereq = (getDie s d).wakereq ||| v.setWidth 16 ∧
      { getDie t d with wakereq := (getDie s d).wakereq, wakeSet := (getDie s d).wakeSet, wakeSetAt := (getDie s d).wakeSetAt } = getDie s d) ∧
    ((getCtx s c x).status = .asleep → wakeHolds s c x = true →
      exec (.managementWake c x) s = .next (setCtx s c x { getCtx s c x with status := .running })) ∧
    ((getCtx s c x).status ≠ .asleep ∨ wakeHolds s c x = false → exec (.managementWake c x) s = .next s)

/-- R360, Table 20.9: a step of a cluster begins from its own state: REQ is written, BUSY is set, and the step's end falls due; where REQ is
neither STATE nor a neighbour of it, or while a step runs, ERR is set and nothing else changes (a row from a neighbour that is not its own
state is log entry 149); QUIESCE asks every context of the cluster that runs to stop.
At its end STATE takes the new value and BUSY clears; the pattern in force is 0 from STATE 3 on. -/
def Obligations.ClusterSteps : Prop :=
  ∀ (s : State) (k : Nat),
    let q := getCluster s k
    let start := fun (i : Instr) (_src dst : Nat) =>
      (q.busy = true ∨ (q.st ≠ dst ∧ q.st + 1 ≠ dst ∧ q.st ≠ dst + 1) → exec i s = .next (setCluster s k { q with err := true })) ∧
      (q.busy = false → q.st = dst → exec i s = .next s)
    let timed := fun (i : Instr) (src dst n : Nat) => q.busy = false → q.st = src → ∃ t, exec i s = .next t ∧
      getCluster t k = { q with busy := true, req := dst, stepEnd := s.now + n } ∧ t.timers = s.timers ++ [(s.now + n, .clusterStepDone k)] ∧
      t.mem = s.mem ∧ t.serai = s.serai ∧ t.pairs = s.pairs ∧ t.dies = s.dies
    start (.quiesce k) 0 1 ∧ start (.retain k) 1 2 ∧ start (.clkoff k) 2 3 ∧ start (.railoff k) 3 4 ∧ start (.clusterRailOn k) 4 3 ∧
    start (.clusterClockRestart k) 3 2 ∧ start (.clusterRetentionExit k) 2 1 ∧ start (.run k) 1 0 ∧
    timed (.retain k) 1 2 64 ∧ timed (.clkoff k) 2 3 ((s.now / 16 + 1) * 16 - s.now) ∧ timed (.railoff k) 3 4 500 ∧
    timed (.clusterRailOn k) 4 3 2000 ∧ timed (.clusterClockRestart k) 3 2 ((s.now / 16 + 1) * 16 - s.now) ∧
    timed (.clusterRetentionExit k) 2 1 64 ∧ timed (.run k) 1 0 1 ∧
    (q.busy = false → q.st = 0 → ∃ t, exec (.quiesce k) s = .next t ∧ (getCluster t k).busy = true ∧ (getCluster t k).req = 1 ∧
      (getCluster t k).st = 0 ∧ ∀ c ∈ coresOfCluster k, ∀ x, x < 4 → preemptable s c x = true → (getCtx t c x).preempting.isSome = true) ∧
    (stepOver s k = false → exec (.clusterStepDone k) s = .next s) ∧
    (stepOver s k = true → ∃ t, exec (.clusterStepDone k) s = .next t ∧ (getCluster t k).st = q.req ∧ (getCluster t k).busy = false ∧
      t.mem = s.mem ∧ (q.st = 2 → q.req = 3 → (getCluster t k).epat = 0))

/-- R355, R356, R358: a thermal poll takes every sensor's reading; a reading out of range is a fault, a faulty sensor is suspect and counts
its polls, a sound one reports its reading; the level follows the temperature with its hysteresis; and ten polls at TRIP shut the package
down (R357). -/
def Obligations.ThermalPolls : Prop :=
  ∀ (s : State) (raw : List (BitVec 16)), ∃ t, exec (.thermalPoll raw) s = .next t ∧ t.mem = s.mem ∧ t.now = s.now ∧ t.pairs = s.pairs ∧
    (s.now % 16 ≠ 0 → t.clusters = s.clusters) ∧
    (∀ n, n < 320 →
      let old := getSensor s n
      let new := getSensor t n
      let r := (raw.getD n 0).toInt
      new.valid = true ∧ new.raw = r ∧ new.hist = (r :: old.hist).take 63 ∧ (r < -640 ∨ 2400 < r → new.fault ≠ 0) ∧
      (new.fault = 0 → new.temp = r ∧ new.persist = 0 ∧ new.suspect = old.suspect) ∧
      (new.fault ≠ 0 → new.suspect = true ∧ new.persist = Nat.min (old.persist + 1) 1023) ∧
      new.level = newLevel (if n < 256 then s.pkg.thd else s.pkg.thm) new.temp old.level ∧
      new.tripPolls = if new.level = 3 then old.tripPolls + 1 else 0) ∧
    (t.off = true ↔ s.off = true ∨ ∃ n, n < 320 ∧ 10 ≤ (getSensor t n).tripPolls)

/-- R366 to R368, R371: HEALTH clears the reason bits written 1 and takes the exclusions; the window of located faults starts anew with
every WINCNT 0 and the totals kept; a new fabric mode takes effect DRAINTO cycles after its write, in order of writing, and loses the messages that
stand on a port it changes. That FABCTL reads the new value at once is log entry 50, and which port a message stands on is log entry 112: both
are the model's choices. -/
def Obligations.FleetRegisters : Prop :=
  ∀ (s : State) (v : Word),
    (valueOk 0x1C4 v = true → ∃ t, exec (.healthWrite v) s = .next t ∧ t.pkg.reasons = s.pkg.reasons &&& ~~~ v.extractLsb' 16 4 ∧
      t.pkg.stkexcl = v.extractLsb' 8 8 ∧ { t with pkg := s.pkg } = s) ∧
    (valueOk 0x1C4 v = false → exec (.healthWrite v) s = .next s) ∧
    (∃ t, exec .locatedWindowReset s = .next t ∧ (∀ k, getStack t k = { getStack s k with wincnt := 0 }) ∧
      { t with cstacks := s.cstacks, serai := { t.serai with wincntAt := s.serai.wincntAt } } = s) ∧
    (v.toNat < 2 ^ 9 → exec (.fabctlWrite v) s = .next { s with
      pkg := { s.pkg with fabctl := v, fabPend := s.pkg.fabPend ++ [v] }
      timers := s.timers ++ [(s.now + s.pkg.linkto.toNat / 2 ^ 32, .fabricModeChange)] }) ∧
    (s.pkg.fabPend = [] → exec .fabricModeChange s = .next s) ∧
    (∀ w r, s.pkg.fabPend = w :: r → exec .fabricModeChange s = .next { s with
      pkg := { s.pkg with fabMode := w, fabPend := r }
      timers := s.timers.filter fun e => match e.2 with | .messageArrival a b sq _ => !onChangedPort s w a b sq | _ => true })

/-- R31, R193, R315, R325, R326, R331, R333: a pre-emption stops a running context at a bundle boundary, at the next one without a global stall
where the core is stalled; a delivered trap stops one that trapped, once the image pool has room; PREDRAIN cancels the plain long loads still
pending; a save that is over leaves the context in its image and its hardware context free; a restore gives a context back every register it
was saved with, once its die is its process's and its banks are on; an MNAP that slept gets code 3. Which boundary counts is log entry 131. -/
def Obligations.ContextsMove : Prop :=
  ∀ (s : State) (c x sl : Nat), x < 4 →
    let k := getCtx s c x
    let stops := fun (i : Instr) => ∃ t, exec i s = .next t ∧ (getCtx t c x).status = .draining ∧ (getCtx t c x).live = k.live ∧
      (getCtx t c x).wp = k.wp ∧ (getCtx t c x).pc = k.pc ∧ t.mem = s.mem ∧ t.serai = s.serai ∧
      (∀ r ∈ (getPair t (pairOf c)).reqs, ¬(r.core = c ∧ r.x = x)) ∧ ∀ d y, (d ≠ c ∨ y ≠ x) → (getCtx t d y).live = (getCtx s d y).live
    (preemptable s c x = true → stalled s c = false → stops (.contextPreemption c x)) ∧
    (preemptable s c x = true → stalled s c = true → exec (.contextPreemption c x) s =
      .next (if k.preempting.isSome then s else setCtx s c x { k with preempting := some s.now })) ∧
    (preemptable s c x = false → exec (.contextPreemption c x) s = .next s) ∧
    (k.stopping = true → ∀ r, k.pend = some r →
      exec (.trapDelivery c x) s = .next (if inFlight s c x then s else restoreTrap s c x r)) ∧
    (k.stopping = false → (k.status = .trapped ∨ k.status = .frozen) → k.pend.isSome = true → (freeSlot s).isSome = true →
      stops (.trapDelivery c x)) ∧
    (k.stopping = false → (k.status ≠ .trapped ∧ k.status ≠ .frozen) ∨ k.pend = none ∨ freeSlot s = none →
      exec (.trapDelivery c x) s = .next s) ∧
    (k.status = .waiting → k.count = 0 → exec (.predrainExpiry c x) s = .next (setCtx s c x { k with
      loads := k.loads.map fun l => if !l.acquire && l.atomic.isNone then { l with cancelled := true } else l })) ∧
    (k.status ≠ .waiting ∨ 0 < k.count → exec (.predrainExpiry c x) s = .next s) ∧
    (saveEnds s sl = false → exec (.contextSaveDone sl) s = .next s) ∧
    (∀ i, saveEnds s sl = true → s.serai.images.find sl = some i → i.x < 4 → ∃ t i', exec (.contextSaveDone sl) s = .next t ∧
      t.serai.images.find sl = some i' ∧ i'.saving = false ∧ i'.ctx.live = (getCtx s i.core i.x).live ∧ i'.ctx.wp = (getCtx s i.core i.x).wp ∧
      i'.ctx.pc = (getCtx s i.core i.x).pc ∧ i'.ctx.wbuf = (getCtx s i.core i.x).wbuf ∧ (getCtx t i.core i.x).status = .free) ∧
    (s.serai.images.find sl = none → exec (.contextRestore sl) s = .next s) ∧
    (∀ i, s.serai.images.find sl = some i → (i.saving = true ∨ i.trapped = true ∨ i.frozen = true) → exec (.contextRestore sl) s = .next s) ∧
    (∀ i, s.serai.images.find sl = some i → restorable i = true → i.coretied = true → i.target = none → restoreTarget s sl i = some (i.core, x) →
      i.core = c → i.task = none → i.ctx.task = none →
      (∀ u, coreReady s c i.ctx.pid i.ctx.vregs = (u, false) → exec (.contextRestore sl) s = .next u) ∧
      (coreReady s c i.ctx.pid i.ctx.vregs = (s, true) → ∃ t,
        exec (.contextRestore sl) s = .next t ∧ t.serai.images.find sl = none ∧ (getCtx t c x).live = (wakeRestored i.ctx).live ∧
        (getCtx t c x).pc = i.ctx.pc ∧ (getCtx t c x).wppc = i.ctx.wppc ∧ (getCtx t c x).wbuf = i.ctx.wbuf ∧
        (∀ d, i.ctx.nap = some d → d ≠ 0 → (getCtx t c x).live.g = i.ctx.live.g.set d 3 ∧ (getCtx t c x).wp.g = i.ctx.wp.g.set d 3) ∧
        (getCtx t c x).status = (if i.ctx.ended then .halted else if i.ctx.slept then .asleep else .running) ∧ t.mem = s.mem))

/-- R224, R225, R235: a ready task that is first in line for a free context is placed there: a die of another process is cleared first,
and the banks of its registers are on first (R208); a claim that fits gives the context its registers, its first bundle and its claims, with
the arguments, the grain box, TASKID and the depth in g4 to g21; a claim that does not fit now sends the task back to its queue, to be taken
in a later master cycle. Otherwise nothing changes. When the clearing starts is log entry 70, when a task sent back is taken again log entry
98.
R235: DIE_CLEAR_DONE before its time does nothing; at its time every on-chip byte of the die reads 0, its cores' banks and scale
queues are at reset, and the die belongs to the process; every other byte reads as before. The die's checkpoint holds no context and no byte of
the old process from then on (log entry 151). -/
def Obligations.TaskPlacements : Prop :=
  (∀ (s : State) (e c x : Nat) (t : Task) (m : Manifest), getTask s e = some t → manifestOf s t.seq = some m →
     let ts := claimOf m.claimts (grainCells m t)
     let sl := claimOf m.claimsl (grainCells m t)
     let cy := claimOf m.claimcy (grainCells m t)
     (placeable s t m c x = false ∨ firstInLine s t c x = false → exec (.taskPlacement e c x) s = .next s) ∧
     (placeable s t m c x = true → firstInLine s t c x = true →
       (∀ u, coreReady s c t.pid m.vregs = (u, false) → exec (.taskPlacement e c x) s = .next u) ∧
       (mayPass s 16 (dieOf c) = true → dieReady s (dieOf c) t.pid = false → (getDie s (dieOf c)).clearing = none → exec (.taskPlacement e c x) s =
         .next { setDie s (dieOf c) { getDie s (dieOf c) with clearing := some (t.pid, s.now + 65536) } with
           timers := s.timers ++ [(s.now + 65536, .dieClearDone (dieOf c))] }) ∧
       (∀ base, coreReady s c t.pid m.vregs = (s, true) → findRegs s c m.vregs = some base →
         (∀ win, ts ≤ Config.tileStoreBytes → ts ≤ freeTileStore s c x → sl ≤ Config.sliceWords →
           (if sl = 0 then some 0 else sliceWindow s c x sl) = some win → m.args.length = 8 → t.lo.length = 4 → t.hi.length = 4 →
           ∃ u, exec (.taskPlacement e c x) s = .next u ∧
             getTask u e = some { t with st := .placed, core := c, x := x, since := s.now, order := s.serai.order, inNode := true } ∧
             let k := getCtx u c x
             k.status = .running ∧ k.task = some e ∧ k.pid = t.pid ∧ k.taskid = taskidOf t ∧ k.pc = m.entry ∧ k.wppc = m.entry ∧
             k.wp = k.live ∧ k.vregs = m.vregs ∧ k.vbase = base ∧ k.allow = Nat.min cy (2 ^ 32 - 1) ∧ k.live.claimb = ts ∧ k.live.slice = sl ∧ k.slbase = win ∧
             (∀ i, i < 8 → k.live.g.get 0 (4 + i) = m.args.getD i 0) ∧
             (∀ i, i < 4 → k.live.g.get 0 (12 + i) = BitVec.ofNat 64 (t.lo.getD i 0) ∧
               k.live.g.get 0 (16 + i) = BitVec.ofNat 64 (t.hi.getD i 0)) ∧
             k.live.g.get 0 20 = taskidOf t ∧ k.live.g.get 0 21 = BitVec.ofNat 64 t.depth ∧
             (∀ i, i < 4 ∨ 22 ≤ i → k.live.g.get 0 i = 0) ∧ k.live.v = .empty ∧ k.live.p = .empty ∧
             (∀ i, (k.w.get WReg.reset i).valid = false) ∧ ((getProc s t.pid).pool = none → u.mem = s.mem)) ∧
         (ts ≤ Config.tileStoreBytes → sl ≤ Config.sliceWords →
           freeTileStore s c x < ts ∨ (sl ≠ 0 ∧ sliceWindow s c x sl = none) → t.fixed = true ∨ t.requeues + 1 < 4 →
           ∃ u q, exec (.taskPlacement e c x) s = .next u ∧ getTask u e = some q ∧ q.st = .ready ∧ q.requeues = t.requeues + 1 ∧
             q.lo = t.lo ∧ q.hi = t.hi ∧ s.now < q.notBefore ∧ q.inNode = false ∧ (getCtx u c x).status = .free ∧ (getCtx u c x).live = (getCtx s c x).live)))) ∧
  (∀ (s : State) (d : Nat),
     ((getDie s d).clearing = none → exec (.dieClearDone d) s = .next s) ∧
     ∀ p e, (getDie s d).clearing = some (p, e) →
       (s.now < e → exec (.dieClearDone d) s = .next s) ∧
       (e ≤ s.now → ∃ t, exec (.dieClearDone d) s = .next t ∧ (getDie t d).tag = some p ∧ (getDie t d).clearing = none ∧
         (∀ a, t.mem.read a = if onDie d a then 0 else s.mem.read a) ∧
         (∀ c, dieOf c = d → isMgmt c = false → (getCore t c).z = .empty ∧ (getCore t c).zwp = .empty ∧ (getCore t c).sqa = .reset ∧
           (getCore t c).sqb = .reset ∧ (getCore t c).ctxs = (getCore s c).ctxs) ∧
         (∀ c, dieOf c ≠ d ∨ isMgmt c = true → getCore t c = getCore s c) ∧
         (∀ k, (getDie t d).ckpt = some k → k.ctxs = [] ∧ k.map = [] ∧ (getDie t d).log = []) ∧ (getDie t d).capture = none ∧ t.serai = s.serai ∧ t.host = s.host ∧ t.pairs = s.pairs))

/-- R218, R226, R228, Table 9.8: at a bundle boundary with no allowance left a fixed task takes the allowance fault; a divisible task that
belongs to no caravan gives way to its two halves along its widest axis, at the depth below, under two entries of the table.
R323: PREWAIT_EXPIRY asks the context that the rule chooses to stop at its next bundle boundary, and does nothing where no task has
waited PREWAIT cycles for a context of lower priority. -/
def Obligations.AllowanceEnds : Prop :=
  (∀ (s : State) (c x : Nat),
     (allowOut s c x = false → exec (.allowExpiry c x) s = .next s) ∧
     ∀ e t, allowOut s c x = true → (getCtx s c x).task = some e → getTask s e = some t →
       (t.fixed = true → exec (.allowExpiry c x) s =
         .next (takeTrap s c x ⟨0x0F, 0, false, Config.freeInfo s.fresh, (getCtx s c x).pc⟩)) ∧
       (∀ m a, t.fixed = false → t.car = none → manifestOf s t.seq = some m → t.depth ≠ 255 → widest m t (splitCands m t) = some a →
         ∃ u f p q, exec (.allowExpiry c x) s = .next u ∧ f ≠ e ∧ getTask u e = some p ∧ getTask u f = some q ∧
           let cut := t.lo.getD a 0 + lowerExtent (axisExtent t a) (axisGrain m a)
           p.lo = t.lo ∧ p.hi = setAt t.hi a cut ∧ q.lo = setAt t.lo a cut ∧ q.hi = t.hi ∧
           p.depth = t.depth + 1 ∧ q.depth = t.depth + 1 ∧ p.index = t.index ∧ q.index = t.index ∧ p.seq = t.seq ∧ q.seq = t.seq ∧
           p.shadows = [] ∧ q.shadows = [])) ∧
  (∀ (s : State) (cl : Nat),
     (prewaitVictim s cl = none → exec (.prewaitExpiry cl) s = .next s) ∧
     ∀ v, prewaitVictim s cl = some v →
       v.st = .placed ∧ clusterOf v.core = cl ∧ s.pkg.prewait ≠ 0 ∧ (∀ u ∈ victims s cl, v.prio ≤ u.prio) ∧
       (∃ e ∈ s.serai.tasks.cells, v.prio < e.2.prio ∧ e.2.since + s.pkg.prewait.toNat ≤ s.now) ∧
       ∃ t, exec (.prewaitExpiry cl) s = .next t ∧ (getCtx t v.core v.x).preempting.isSome = true ∧
         { t with cores := s.cores } = s ∧ ∀ c x, (getCtx t c x).live = (getCtx s c x).live ∧ (getCtx t c x).status = (getCtx s c x).status)

/-- R201, R222, R256: a halted context whose stores, copies, loads and late faults are done frees its hardware context, and its task goes
on to publication with its block counts; one that a replay runs again after its retirement leaves its context and nothing else (the model's
reading of R348, log entry 18); a task's frame is swapped in for a tile that may be published: the tile's entry names the frame as resident and
the index lists the tile. Each does nothing where its condition does not hold. -/
def Obligations.TasksRetire : Prop :=
  ∀ (s : State) (c x e : Nat) (t : Task), getTask s e = some t →
    let k := getCtx s c x
    (retires s c x = false → exec (.taskRetirement c x) s = .next s) ∧
    (retires s c x = true → k.ghost = true → x < 4 → ∃ u, exec (.taskRetirement c x) s = .next u ∧ (getCtx u c x).status = .free ∧
      u.serai.tasks = s.serai.tasks ∧ u.serai.indices = s.serai.indices) ∧
    (retires s c x = true → k.ghost = false → k.task = some e → t.car = none → t.index < outerBase → k.outFrames = [] → x < 4 → ∃ u, exec (.taskRetirement c x) s = .next u ∧
      (getCtx u c x).status = .free ∧ (getCtx u c x).task = none ∧ (getCtx u c x).live = Regs.reset ∧
      getTask u e = some { t with st := .publishing, under := k.live.underzero, sat := k.live.satblk, spares := [] } ∧ u.mem = s.mem) ∧
    (pubMoves s e = false → exec (.tilePublication e) s = .next s) ∧
    (∀ ix key f l, pubMoves s e = true → getIndex s (taskKey t) = some ix → ix.isLive = true →
      (runTiles (taskRuns s t)).all (ix.published ++ (publishable s t).filter fun a => !ix.published.contains a).contains = false →
      t.shadows = [(key, f)] → key ∈ publishable s t → (getProc s t.pid).tensors.find (key / 2 ^ 48) = some l → f < 2 ^ 40 →
      ∃ u, exec (.tilePublication e) s = .next u ∧
        entryAt u l (key % 2 ^ 48) = 2 ^ 62 + pkgNo s * 2 ^ 48 + f / 65536 * 65536 ∧
        getIndex u (taskKey t) = some { ix with published := ix.published ++ (publishable s t).filter fun a => !ix.published.contains a } ∧
        getTask u e = some { t with shadows := [] } ∧ u.host = s.host ∧ u.procs = s.procs)

/-- R196, R210, R217, R223: a host's launch whose image the Serai accepts takes the next sequence number and, with room in the dependence
table and an instance to run in, enters: each of its indices is live with its task at depth 0; a malformed image completes its manifest
at once with the root event. With no launch waiting nothing happens. (A launch waits while the report store is full, R311.) -/
def Obligations.ManifestsEnter : Prop :=
  ∀ (s : State), (s.serai.launches = [] → exec .manifestEntry s = .next s) ∧
    ∀ l, s.serai.launches = [l] → l.seq = none → l.byTask = false → l.fabric = false → s.host.reports.length < Config.reportStore →
      let q := s.serai.mseq
      let v := { s with serai := { s.serai with mseq := q + 1 } }
      let r := readManifest v l.pid l.pid l.addr l.cap q
      let m : Manifest := { r.1 with fabric := false, bad := !r.2 }
      let w := { v with serai := { v.serai with manifests := v.serai.manifests.set q.toNat m, launches := [{ l with seq := some q }] } }
      (r.2 = false → ∃ u pay, exec .manifestEntry s = .next u ∧ u.serai.mseq = q + 1 ∧ u.serai.launches = [] ∧
        manifestOf u q = none ∧ (0x0D, false, [pay]) ∈ u.serai.raised ∧
        (pay = BitVec.ofNat 64 (q.toNat * 2 ^ 32 + 15) ∨ pay = BitVec.ofNat 64 (q.toNat * 2 ^ 32 + 31))) ∧
      (∀ i, r.2 = true → indexCount m + (outerTasks w m).length ≤ (freeEntries w).length → chooseInstance w m { l with seq := some q } = some i →
        ∃ u m', exec .manifestEntry s = .next u ∧ u.serai.mseq = q + 1 ∧ u.serai.launches = [] ∧ manifestOf u q = some m' ∧
          m'.entered = true ∧ m'.root = indexCount m + (outerTasks w m).length ∧ m'.inst0 = i ∧ m'.entry = m.entry ∧ ((getProc s m.pid).pool = none → u.mem = s.mem) ∧ u.host = s.host ∧
          ∀ n, n < m.ntask → ∃ ix f t, getIndex u (idxKey q n) = some ix ∧ ix.isLive = true ∧ ix.live = 1 ∧
            (recFor m n).expcnt ≤ ix.counter ∧ getTask u f = some t ∧ t.seq = q ∧ t.index = n ∧ t.depth = 0 ∧ t.lo = (recFor m n).origin)

/-- R198, R221, R290: a signal whose stores have been performed counts its index down by one, and at 0 makes the index ready; one for an
index that has ended, or whose counter is 0, is a dependence underflow, reported to the context that signalled. -/
def Obligations.SignalsApply : Prop :=
  ∀ (s : State), (s.serai.dsigs = [] → exec .dsigApply s = .next s) ∧
    ∀ d ix m, s.serai.dsigs = [d] → storesDone s d.task d.core d.x d.place = true → mayPass s (coreEnd d.core) 16 = true →
      let q : BitVec 32 := d.v.extractLsb' 32 32
      let n := d.v.toNat / 256 % 2 ^ 24
      manifestOf s q = some m → m.entered = true → n < m.ntask → getIndex s (idxKey q n) = some ix →
      (ix.isLive = true → 1 < ix.counter → ∃ u, exec .dsigApply s = .next u ∧ u.serai.dsigs = [] ∧
        getIndex u (idxKey q n) = some { ix with counter := ix.counter - 1 } ∧
        (∀ k, k ≠ idxKey q n → getIndex u k = getIndex s k) ∧ u.serai.tasks = s.serai.tasks) ∧
      (ix.isLive = true → ix.counter = 1 → ∃ u, exec .dsigApply s = .next u ∧ u.serai.dsigs = [] ∧
        getIndex u (idxKey q n) = some { ix with counter := 0, isReady := true }) ∧
      (∀ c x, ix.isLive = false ∨ ix.counter = 0 → standsAt s d.task d.core d.x = some (c, x) → x < 4 →
        ∃ u, exec .dsigApply s = .next u ∧ u.serai.dsigs = [] ∧ u.serai.indices = s.serai.indices ∧
          (getCtx u c x).late = (getCtx s c x).late ++ [⟨0x10, d.slot, true, d.v, d.pc⟩])

/-- R264 to R267, Table 11.2: the K-th usable return starts the time of DEADLINE, and under policy 1 no return of a later master cycle is taken;
CARAVAN_DECODE does nothing while its caravan can still wait or awaits a decoder unit; a member lost again fails the whole caravan; under
policy 1 the surplus members are cancelled first; under policy 2 a consistent decode before its deadline records what it took up; returns that
agree are published: the caravan goes, and every data task goes on to publication with the frames of its return. DEADLINE_EXPIRY before its
time does nothing. How many returns are enough is log entry 54, at which returns policy 2 decodes 56, the decoder's units and order 60, and a
replicated caravan with a lost copy 123: these are the model's choices. -/
def Obligations.CaravansDecode : Prop :=
  ∀ (s : State) (q : BitVec 32) (v : Nat),
    (getCaravan s q v = none ∨ manifestOf s q = none →
      exec (.caravanDecode q.toNat v) s = .next s ∧ exec (.deadlineExpiry q.toNat v) s = .next s) ∧
    ∀ c m, getCaravan s q v = some c → manifestOf s q = some m → m.seq = q → c.seq = q →
      let b := if surplusDue s m v c then cancelAll s q v (awaitedMembers s m v c) else s
      let us := usableReturns b q v m.pid c
      let again := (lostMembers s m v c).any c.reissued.contains
      (∀ r, getCaravan (putReturn s m v c r) q v = some
        (if policyOf m = 1 ∧ ∃ k, c.kth = some k ∧ k < s.now then c
        else
          let c1 := { c with returns := c.returns ++ [r] }
          if c.kth = none ∧ suffice m v c.q ((usableReturns s q v m.pid c1).map (·.member)) = true then
            { c1 with kth := some s.now, deadline := c.deadline || deadlineOf m == 0 } else c1)) ∧
      (caravanDue s m v c = false → exec (.caravanDecode q.toNat v) s = .next s) ∧
      (c.done = false → again = true → ∃ u, exec (.caravanDecode q.toNat v) s = .next u ∧ getCaravan u q v = none) ∧
      (∀ fs loc, again = false → stillPossible s m v c = true → decodeNow s m v c = true → hasUnit b (carKey q v) = true →
        isReplica m v c.q = false → decodeCoded b m v us = .publish fs loc →
        (publishNow b m v c = false → ∃ u, exec (.caravanDecode q.toNat v) s = .next u ∧
          getCaravan u q v = some { c with seen := us.map (·.member) } ∧ u.serai.tasks = s.serai.tasks ∧ u.mem = s.mem) ∧
        (publishNow b m v c = true → fs = [] → v ≠ outerNo → outerCoded m = false → risingKeys b.serai.tasks.cells = true →
          (∀ e ∈ b.serai.tasks.cells, e.1 < Config.depEntries) →
          (∀ j, j < codeK m → us.any (fun r => r.member == j) = true) → ∃ u, exec (.caravanDecode q.toNat v) s = .next u ∧
          getCaravan u q v = none ∧
          ∀ j e t r, j < codeK m → (carTasks b q v).find? (fun o => o.2.member == j) = some (e, t) → us.find? (fun o => o.member == j) = some r →
            getTask u e = some { t with st := .publishing, shadows := r.frames, under := r.under, sat := r.sat })) ∧
      (again = false → stillPossible s m v c = true → surplusDue s m v c = true → hasUnit b (carKey q v) = false →
        exec (.caravanDecode q.toNat v) s = .next b) ∧
      ((c.kth = none ∨ policyOf m ≠ 2 ∨ ∀ k, c.kth = some k → s.now < k + deadlineOf m) → exec (.deadlineExpiry q.toNat v) s = .next s) ∧
      (∀ k, c.kth = some k → policyOf m = 2 → k + deadlineOf m ≤ s.now → ∃ u, exec (.deadlineExpiry q.toNat v) s = .next u ∧
        exec (.deadlineExpiry q.toNat v) s = exec (.caravanDecode q.toNat v) (putCaravan s q v { c with deadline := true }))

/-- R194, R195, R310, Table 8.3: a page request whose tile is not being evicted is settled by the first case that holds: status 3 for a
tensor that is none, 1 beyond its extent, 0 for a resident tile and for an unplaced one, which is placed; for a tile that is not resident it
waits for the driver, and the first request for the tile is reported; an entry of state 3 counts as not resident (the model's choice, log entry
78). A posted reply makes its context's request no longer outstanding, and its record says the status. -/
def Obligations.PagesServed : Prop :=
  (∀ (s : State), s.serai.pageReqs = [] → exec .pageRequestService s = .next s) ∧
  (∀ (s : State) (p : PageReq), s.serai.pageReqs = [p] → settles s p = true →
    let u := setSerai (carry s (coreEnd p.core) 16 .plain) fun r => { r with pageReqs := [] }
    (layoutOf s p.pid (refTid p.ref) = none → exec .pageRequestService s = .next (postReply u p 3)) ∧
    ∀ l, layoutOf s p.pid (refTid p.ref) = some l →
      (locate s (procCtx p.pid) p.ref = none → exec .pageRequestService s = .next (postReply u p 1)) ∧
      ∀ tile off, locate s (procCtx p.pid) p.ref = some (tile, off) →
        let placed := placeTile u p.core (procCtx p.pid) (refTid p.ref) tile
        (entryAt s l tile / 2 ^ 62 = 1 → exec .pageRequestService s = .next (postReply u p 0)) ∧
        (entryAt s l tile / 2 ^ 62 = 0 → entryAt placed l tile / 2 ^ 62 = 1 → exec .pageRequestService s = .next (postReply placed p 0)) ∧
        (2 ≤ entryAt s l tile / 2 ^ 62 → ∃ t, exec .pageRequestService s = .next t ∧ t.serai.pageReqs = [] ∧
          t.serai.pending = s.serai.pending ++ [p] ∧ t.mem = s.mem ∧
          t.host.reports.length = s.host.reports.length +
            if s.serai.pending.any (fun o => o.pid == p.pid && reqTile s o == some (tileKey (refTid p.ref) tile)) then 0 else 1)) ∧
  (∀ (s : State) (p : PageReq) (st e c x : Nat), (p.task = none → postReply s p st = s) ∧
    (p.task = some e → standsAt s p.task p.core p.x = some (c, x) → x < 4 → underReplay s (coreEnd c) = false →
      (getCtx (postReply s p st) c x).rqout = (getCtx s c x).rqout.filter (fun n => n != p.seq)) ∧
    ∀ b, p.task = some e →
      let a := refIdx p.cmpla + 16 * (p.seq.toNat % 256)
      let s1 := (seraiWrite s p.pid a (replyRef s p).toNat 8).1
      tensorZero s1 p.pid (a + 8) true = (s1, some b) → st < 256 →
        (postReply s p st).mem.readN b 8 = p.seq.toNat * 2 ^ 32 + st * 2 ^ 24)

/-- R301, R302, R304 to R306, R311, R313, Tables 17.1 and 17.2: what a write to each register of the window does, and what a host access of
memory does, a checkpoint area left out (R341); a queue with entries that waits for a place among the held ones takes one that is free. The
model's choices: where the window stands (log entry 72), what a narrow write leaves in the other bytes (73), and that a queue is held at its
enable and the lowest waiting one takes a free place (75). -/
def Obligations.HostAccesses : Prop :=
  ∀ (s : State) (n rg ad sz : Nat) (v : Word),
    let q := getQueue s n
    let d := (v.extractLsb' 32 32 - q.tseq).toNat
    let room := (q.tail - q.head).toNat ≤ (v.setWidth 32 - q.head).toNat ∧ (v.setWidth 32 - q.head).toNat ≤ ringSize q.base
    let refuse := fun (t : State) => report t 0x12 (BitVec.ofNat 64 n) ((v.extractLsb' 32 32).setWidth 64) ((v.setWidth 32).setWidth 64)
    (n = 63 → exec (.mqtailWrite n v) s = .next (refuse s)) ∧
    (n ≠ 63 → (d = 0 ∨ 2 ^ 31 ≤ d) → exec (.mqtailWrite n v) s = .next s) ∧
    (n ≠ 63 → 0 < d → d < 2 ^ 31 → room → exec (.mqtailWrite n v) s =
      .next (fillHeld (setQueue s n { q with tseq := v.extractLsb' 32 32, tail := v.setWidth 32 }))) ∧
    (Config.heldQueues ≤ heldCount s ∨ (∀ k, k < 64 → waitsOut (getQueue s k) = false) → fillHeld s = s) ∧
    (∀ k, k < 64 → heldCount s < Config.heldQueues → waitsOut (getQueue s k) = true → (∀ j, j < k → waitsOut (getQueue s j) = false) →
      fillHeld s = setQueue s k { getQueue s k with held := true, idleSince := s.now }) ∧
    (n ≠ 63 → 0 < d → d < 2 ^ 31 → ¬ room → exec (.mqtailWrite n v) s =
      .next (refuse (setQueue s n { q with tseq := v.extractLsb' 32 32 }))) ∧
    (∃ t, exec (.mqctlWrite n v) s = .next t ∧ (getQueue t n).pid = v.toNat / 2 ^ 48 ∧ (getQueue t n).en = v.toNat % 8 ∧
      (v.toNat % 8 = 0 → (getQueue t n).held = false ∧ (getQueue t n).stop = false) ∧
      (v.toNat % 8 ≠ 0 → (getQueue t n).stop = q.stop ∧ ((getQueue t n).held = true ↔ q.held = true ∨ heldCount s < Config.heldQueues)) ∧
      (getQueue t n).tail = q.tail ∧ (getQueue t n).head = q.head ∧ (getQueue t n).base = q.base ∧ t.mem = s.mem ∧ t.serai = s.serai) ∧
    (exec (.cmdtailWrite v) s = .next { s with host := { s.host with cmdtail := v.setWidth 32, cmdstop := false } }) ∧
    (exec (.rpackWrite v) s = .next { s with host := { s.host with rpack := v.setWidth 32 } }) ∧
    ((ringEmpty s rg = false ∨ 12 ≤ v.toNat % 16) → exec (.ringBaseWrite rg v) s =
      .next (report s 0x11 (BitVec.ofNat 64 (if rg < 64 then 0x1000 + 0x40 * rg else if rg = 64 then 0 else 0x18)) 0 0)) ∧
    (ringEmpty s rg = true → v.toNat % 16 < 12 → ∃ t, exec (.ringBaseWrite rg v) s = .next t ∧
      { t with host := s.host } = s ∧ t.host.reports = s.host.reports ∧
      (rg < 64 → (getQueue t rg).base = baseValue v) ∧ (rg = 64 → t.host.cmdbase = baseValue v) ∧ (64 < rg → t.host.rpbase = some (baseValue v))) ∧
    (carried ad sz = false → exec (.hostMemoryWrite ad sz v) s = .next s ∧ exec (.hostMemoryRead ad sz) s = .next s) ∧
    (carried ad sz = true → ad + sz ≤ 2 ^ 40 →
      (inArea ad = true → exec (.hostMemoryWrite ad sz v) s = .next s) ∧
      (inArea ad = false → ∃ t, exec (.hostMemoryWrite ad sz v) s = .next t ∧ t.mem.readN ad sz = v.toNat % 2 ^ (8 * sz) ∧
        (∀ a, (a < ad ∨ ad + sz ≤ a) → t.mem.read a = s.mem.read a) ∧ t.serai = s.serai ∧ t.host = s.host) ∧
      (∃ t, exec (.hostMemoryRead ad sz) s = .next t ∧ t.host.readVal = BitVec.ofNat 64 (s.mem.readN ad sz) ∧
        { t with host := { t.host with readVal := s.host.readVal } } = s)) ∧
    (n < 64 → exec (.hostMemoryWrite (2 ^ 40 + 0x1000 + 0x40 * n) 8 v) s = exec (.ringBaseWrite n v) s ∧
      exec (.hostMemoryWrite (2 ^ 40 + 0x1008 + 0x40 * n) 8 v) s = exec (.mqctlWrite n v) s ∧
      exec (.hostMemoryWrite (2 ^ 40 + 0x1010 + 0x40 * n) 8 v) s = exec (.mqtailWrite n v) s) ∧
    exec (.hostMemoryWrite (2 ^ 40 + 8) 8 v) s = exec (.cmdtailWrite v) s ∧
    exec (.hostMemoryWrite (2 ^ 40 + 0x28) 8 v) s = exec (.rpackWrite v) s

/-- R303, R305 to R307, R311: an entry of a held queue that is next in sequence becomes a launch, an older one is passed over, a gap stops
the queue with its report; a queue that waits takes the place of the queue idle longest; a command that is next in sequence runs as the row
of its OP, and one of an unlisted OP is refused; a report that the ring has room for is written into its entry. In which entry a report stands
is log entry 74, what an entry of queue 63 holds log entry 83: the model's choices. -/
def Obligations.RingsAdvance : Prop :=
  ∀ (s : State) (n m : Nat),
    let q := getQueue s n
    let a := ringEntry q.base 16 q.head.toNat
    let w0 := s.mem.readN a 8
    let h := BitVec.ofNat 32 (s.mem.readN (a + 8) 8)
    (entryReady s n = false → exec (.manifestQueueTake n) s = .next s) ∧
    (entryReady s n = true →
      (seqTest q.hseq h = .next → ∃ t l, exec (.manifestQueueTake n) s = .next t ∧ t.serai = { s.serai with launches := s.serai.launches ++ [l] } ∧
        l.addr = w0 % 2 ^ 48 ∧ l.cap = q.en ∧ l.pid = (if n = 63 then w0 / 2 ^ 48 else q.pid) ∧ l.byTask = false ∧ l.seq = none ∧
        (getQueue t n).head = q.head + 1 ∧ (getQueue t n).hseq = h ∧ (getQueue t n).tail = q.tail ∧ t.mem = s.mem ∧
        t.timers = s.timers ++ [(s.now + nextDelay s, .manifestEntry)]) ∧
      (seqTest q.hseq h = .old → ∃ t, exec (.manifestQueueTake n) s = .next t ∧ (getQueue t n).head = q.head + 1 ∧
        (getQueue t n).hseq = q.hseq ∧ t.serai = s.serai ∧ t.host.reports = s.host.reports) ∧
      (seqTest q.hseq h = .gap → exec (.manifestQueueTake n) s = .next (report (setQueue s n { q with stop := true }) 0x13
        (BitVec.ofNat 64 n) ((q.hseq + 1).setWidth 64) (h.setWidth 64)))) ∧
    ((waitsOut (getQueue s m) = false ∨ longestIdle s ≠ some n) → exec (.queueSwitch m n) s = .next s) ∧
    (waitsOut (getQueue s m) = true → longestIdle s = some n → ∃ t, exec (.queueSwitch m n) s = .next t ∧ (getQueue t m).held = true ∧
      (getQueue t n).held = false ∧ (∀ k, k ≠ m → k ≠ n → getQueue t k = getQueue s k) ∧ { t with host := { t.host with mq := s.host.mq } } = s) ∧
    (let c := headCommand s
     let h := c.1.extractLsb' 32 32
     let took := { s with host := { s.host with cmdseq := h, cmdhead := s.host.cmdhead + 1 } }
     (commandReady s = false → exec .commandRingTake s = .next s) ∧
     (commandReady s = true →
       (seqTest s.host.cmdseq h = .old → exec .commandRingTake s = .next { s with host := { s.host with cmdhead := s.host.cmdhead + 1 } }) ∧
       (seqTest s.host.cmdseq h = .gap → exec .commandRingTake s = .next (report { s with host := { s.host with cmdstop := true } } 0x13 64
         ((s.host.cmdseq + 1).setWidth 64) (h.setWidth 64))) ∧
       (seqTest s.host.cmdseq h = .next →
         (cmdOp c.1 = 1 → exec .commandRingTake s = exec (.tensor c.1 c.2.1 c.2.2) took) ∧
         (cmdOp c.1 = 2 → exec .commandRingTake s = exec (.map c.1 c.2.1 c.2.2) took) ∧
         (cmdOp c.1 = 3 → exec .commandRingTake s = exec (.evict c.1 c.2.1 c.2.2) took) ∧
         (cmdOp c.1 = 4 → exec .commandRingTake s = exec (.delete c.1 c.2.1 c.2.2) took) ∧
         (cmdOp c.1 = 5 → exec .commandRingTake s = exec (.refuse c.1 c.2.1 c.2.2) took) ∧
         (cmdOp c.1 = 6 → exec .commandRingTake s = exec (.evack c.1 c.2.1 c.2.2) took) ∧
         (cmdOp c.1 = 7 → exec .commandRingTake s = exec (.rqpool c.1 c.2.1 c.2.2) took) ∧
         (cmdOp c.1 = 0 ∨ 8 ≤ cmdOp c.1 → exec .commandRingTake s = .next (cmdDone took c.1 1))))) ∧
    (canWriteReport s = false → exec .reportWrite s = .next s) ∧
    (∀ b r rest, canWriteReport s = true → s.host.rpbase = some b → s.host.reports = r :: rest → r.words.length = 4 →
      ∃ t, exec .reportWrite s = .next t ∧ t.host.reports = rest ∧ t.host.rphead = r.dseq ∧
        (∀ i, i < 4 → t.mem.readN (ringEntry b 32 r.dseq.toNat + 8 * i) 8 = (r.words.getD i 0).toNat) ∧
        (∀ p, (p < ringEntry b 32 r.dseq.toNat ∨ ringEntry b 32 r.dseq.toNat + 32 ≤ p) → (inArea p = false ∨ ∀ a, waitsCopy s a = false) →
          t.mem.read p = s.mem.read p))

/-- R243, R307 to R311, Table 17.6: what each command does, and the status its done report gives: 0 done, 1 refused, 2 as it stands already. A
MAP, an EVICT, a DELETE and a RQPOOL go through the steps of R243, waiting at steps 1 and 4 for the accesses in their way, and end with their
replies and reports; a DELETE's tensor is gone, its pending requests answered with status 3. The model's choices: the steps' pace (log entry
76), reserved bits of a layout (77), EVACK of an event that is not open (80), a REFUSE with nothing pending (81), the tiles of a pool (82, 108),
and that no MAP names a checkpoint area (40). -/
def Obligations.CommandsRun : Prop :=
  ∀ (s : State) (w0 w1 w2 : Word),
    let pid := cmdPid w0
    let done := fun (t : State) (st : Nat) => report t 1 (w0 >>> 32) (BitVec.ofNat 64 st) 0
    let tid := w1.toNat % 2 ^ 16
    let k := getProc s pid
    let rec_ := w2.toNat % 2 ^ 48
    let good := if tid = 0 then layoutZeroOk s rec_ else layoutOk s rec_
    let key := w1.toNat
    let tile := key % 2 ^ 48
    let answered := fun (t : State) (hit : PageReq → Bool) (st : Nat) =>
      (t.serai.pending.filter hit).foldl (fun u p => postReply u p st)
        { t with serai := { t.serai with pending := t.serai.pending.filter fun p => !hit p } }
    let forTile := fun (t : State) (p : PageReq) => p.pid == pid && reqTile t p == some key
    let removed := fun (t : State) =>
      let u := answered t (fun p => p.pid == pid && refTid p.ref == tid) 3
      { u with procs := u.procs.set pid { getProc u pid with tensors := (getProc u pid).tensors.erase tid } }
    ((k.tensors.find tid).isSome = true ∨ 0xFFF0 ≤ tid ∨ good = false → exec (.tensor w0 w1 w2) s = .next (done s 1)) ∧
    (k.tensors.find tid = none → tid < 0xFFF0 → good = true → ∃ t, exec (.tensor w0 w1 w2) s = .next (done t 0) ∧
      layoutOf t pid tid = some (readLayout s rec_).1 ∧ (∀ j, j ≠ tid → layoutOf t pid j = layoutOf s pid j) ∧ { t with procs := s.procs } = s) ∧
    (beingEvicted s pid key = true ∨ s.serai.mapping.isSome = true → exec (.map w0 w1 w2) s = .next s) ∧
    (beingEvicted s pid key = true ∨ beingMapped s pid key = true → exec (.evict w0 w1 w2) s = .next s) ∧
    (beingEvicted s pid key = false → s.serai.mapping = none → layoutOf s pid (key / 2 ^ 48) = none →
      exec (.map w0 w1 w2) s = .next (done s 1) ∧ exec (.evict w0 w1 w2) s = .next (done s 1)) ∧
    (∀ l, beingEvicted s pid key = false → s.serai.mapping = none → layoutOf s pid (key / 2 ^ 48) = some l →
      let mp : Mapping := ⟨w0, w1, w2, false⟩
      let misses := anyCtx s (stillMisses pid (key / 2 ^ 48))
      (l.ntile ≤ tile → exec (.map w0 w1 w2) s = .next (done s 1) ∧ exec (.evict w0 w1 w2) s = .next (done s 1)) ∧
      (areaFrame s w2 = true → exec (.map w0 w1 w2) s = .next (done s 1)) ∧
      (tile < l.ntile →
        (areaFrame s w2 = false →
          (entryAt s l tile / 2 ^ 62 = 1 → exec (.map w0 w1 w2) s = .next (done s 2)) ∧
          (entryAt s l tile / 2 ^ 62 ≠ 1 → mapBlocked s mp = true →
            exec (.map w0 w1 w2) s = .next { s with serai := { s.serai with mapping := some mp } }) ∧
          (entryAt s l tile / 2 ^ 62 ≠ 1 → mapBlocked s mp = false → ∃ u,
            entryAt u l tile = 2 ^ 62 + w2.toNat / 2 ^ 48 % 2 ^ 8 * 2 ^ 48 + w2.toNat / 2 ^ 16 % 2 ^ 24 * 2 ^ 16 ∧
            (∀ a, (a < l.ttab + 8 * tile ∨ l.ttab + 8 * tile + 8 ≤ a) → u.mem.read a = s.mem.read a) ∧ u.procs = s.procs ∧ u.host = s.host ∧
            u.serai.pending = s.serai.pending ∧ u.serai.mapping = none ∧
            exec (.map w0 w1 w2) s = .next (if misses then { u with serai := { u.serai with mapping := some { mp with written := true } } }
              else done (answered u (forTile u) 0) 0))) ∧
        (inPool s pid key = true → exec (.evict w0 w1 w2) s = .next (done s 1)) ∧
        (inPool s pid key = false → entryAt s l tile / 2 ^ 62 ≠ 1 → exec (.evict w0 w1 w2) s = .next (done s 2)) ∧
        (inPool s pid key = false → entryAt s l tile / 2 ^ 62 = 1 → ∃ t, exec (.evict w0 w1 w2) s = .next t ∧
          t.serai = { s.serai with evicting := s.serai.evicting ++ [(w0, w1)] } ∧
          t.timers = s.timers ++ [(s.now + nextDelay s, .evictionDone w0 w1)] ∧ t.mem = s.mem ∧ t.host = s.host))) ∧
    (let again : Nat × Due := (s.now + 1, .evictionDone w0 w1)
     let left := s.serai.leaving.find? fun v => v.w0 == w0 && v.w1 == w1
     let fs := evictSet s w0 w1
     let v0 : Leaving := ⟨w0, w1, fs.map fun f => (f.1, f.2, entryOf s pid f.1)⟩
     let reached := anyCtx s (reachesTiles s pid (fs.map (·.1)) (fs.map (·.2)))
     let reads := fun (t : State) (v : Leaving) => anyCtx t (stillReads t pid (v.tiles.map (·.1)) (v.tiles.map (·.2.1)))
     let gone := s.serai.evicting.filter fun c => c != (w0, w1)
     let ended := fun (t : State) (v : Leaving) =>
       let u := handFrames { t with serai := { t.serai with evicting := gone, leaving := t.serai.leaving.filter fun q => q != v } } v.tiles
       done (if cmdOp w0 = 4 then removed u else u) 0
     let ent := fun (l : Layout) (f : Nat × Nat) => l.ttab + 8 * (f.1 % 2 ^ 48)
     (s.serai.evicting.contains (w0, w1) = false → exec (.evictionDone w0 w1) s = .next s) ∧
     (s.serai.evicting.contains (w0, w1) = true → left = none →
       (reached = true → exec (.evictionDone w0 w1) s = .next { s with timers := s.timers ++ [again] }) ∧
       (reached = false → fs.any (fun f => inPool s pid f.1) = true →
         exec (.evictionDone w0 w1) s = .next (done { s with serai := { s.serai with evicting := gone } } 1)) ∧
       (reached = false → fs.any (fun f => inPool s pid f.1) = false → ∃ u,
         (∀ l, layoutOf s pid (if cmdOp w0 = 4 then tid else key / 2 ^ 48) = some l →
           (∀ f ∈ fs, (∀ i, i < 8 → inArea (ent l f + i) = false) ∧ ∀ g ∈ fs, ent l f + 8 ≤ g.2 ∨ g.2 + 65536 ≤ ent l f) →
           ∀ f ∈ fs, entryAt u l (f.1 % 2 ^ 48) = 2 ^ 63) ∧
         (∀ l, cmdOp w0 ≠ 4 → layoutOf s pid (key / 2 ^ 48) = some l → entryAt s l tile / 2 ^ 62 = 1 → entryAt u l tile = 2 ^ 63) ∧
         u.procs = s.procs ∧ u.host = s.host ∧ u.timers = s.timers ∧ u.serai.pending = s.serai.pending ∧
         u.serai.evicting = s.serai.evicting ∧ u.serai.leaving = s.serai.leaving ++ [v0] ∧
         exec (.evictionDone w0 w1) s = .next (if reads s v0 then { u with timers := u.timers ++ [again] } else ended u v0) ∧
         (∀ l, cmdOp w0 ≠ 4 → layoutOf s pid (key / 2 ^ 48) = some l → entryAt s l tile / 2 ^ 62 = 1 →
           ∃ r1 r2, (ended u v0).host.reports = s.host.reports ++ [r1, r2] ∧
             r1.words = [BitVec.ofNat 64 ((s.host.dseq + 1).toNat * 2 ^ 32 + 3 * 256), BitVec.ofNat 64 (tileKey (key / 2 ^ 48) tile),
               BitVec.ofNat 64 (entryAt s l tile % 2 ^ 56 / 2 ^ 48 * 2 ^ 48 + entryAt s l tile % 2 ^ 40 / 2 ^ 16 * 2 ^ 16), 0] ∧
             r2.words = [BitVec.ofNat 64 ((s.host.dseq + 2).toNat * 2 ^ 32 + 256), w0 >>> 32, 0, 0]))) ∧
     (∀ v, s.serai.evicting.contains (w0, w1) = true → left = some v →
       exec (.evictionDone w0 w1) s = .next (if reads s v then { s with timers := s.timers ++ [again] } else ended s v)) ∧
     (∀ u : State, cmdOp w0 = 4 → layoutOf (removed u) pid tid = none)) ∧
    (let waits := s.serai.evicting.any fun c => cmdPid c.1 == pid && (if cmdOp c.1 = 4 then c.2.toNat % 2 ^ 16 else namedTile c.2 / 2 ^ 48) == tid
     (waits = true → exec (.delete w0 w1 w2) s = .next s) ∧
     (waits = false → (layoutOf s pid tid = none ∨ (tid = 0 ∧ procBusy s pid = true ∧ k.pool.isSome = true)) →
       exec (.delete w0 w1 w2) s = .next (done s 1)) ∧
     (waits = false → (layoutOf s pid tid).isSome = true → (tid ≠ 0 ∨ procBusy s pid = false ∨ k.pool = none) →
       ∃ t, exec (.delete w0 w1 w2) s = .next t ∧ t.serai = { s.serai with evicting := s.serai.evicting ++ [(w0, w1)] } ∧
         t.timers = s.timers ++ [(s.now + nextDelay s, .evictionDone w0 w1)] ∧ t.mem = s.mem ∧ t.host = s.host)) ∧
    (tensorTiles s pid (key / 2 ^ 48) = none → exec (.refuse w0 w1 w2) s = .next (done s 1)) ∧
    (∀ n, tensorTiles s pid (key / 2 ^ 48) = some n → (n ≤ tile ∨ w2.toNat % 2 ^ 8 = 0 ∨ 3 < w2.toNat % 2 ^ 8 →
        exec (.refuse w0 w1 w2) s = .next (done s 1)) ∧
      (tile < n → 0 < w2.toNat % 2 ^ 8 → w2.toNat % 2 ^ 8 ≤ 3 → (answered s (forTile s) (w2.toNat % 2 ^ 8)).serai.pending =
          s.serai.pending.filter (fun p => !forTile s p) ∧
        exec (.refuse w0 w1 w2) s = .next (done (answered s (forTile s) (w2.toNat % 2 ^ 8)) 0))) ∧
    (∀ src, (s.host.openEvents.find? fun e => e.2 == w1.setWidth 32) = some (src, w1.setWidth 32) →
      ∃ t, exec (.evack w0 w1 w2) s = .next (done t 0) ∧ t.host.openEvents = s.host.openEvents.filter (fun e => e.2 != w1.setWidth 32) ∧
        (src = 0x0C → t.serai.watch.opened = false) ∧ (src ≠ 0x0C → t.serai = s.serai) ∧ t.mem = s.mem) ∧
    ((s.host.openEvents.find? fun e => e.2 == w1.setWidth 32) = none → exec (.evack w0 w1 w2) s = .next (done s
      (if w1.setWidth 32 ≠ (0 : BitVec 32) ∧ (w1.setWidth 32 : BitVec 32).toNat < s.serai.evseq.toNat then 2 else 1))) ∧
    (let a := w2.toNat
     let held := s.serai.mapping.isSome || (poolTiles a).any (beingEvicted s pid)
     let s0 := { s with procs := s.procs.set pid { k with pool := some (mkRef 0 a) } }
     let mp : Mapping := ⟨w0, 0, w2, false⟩
     (held = true → exec (.rqpool w0 w1 w2) s = .next s) ∧
     (held = false → (a % 4096 ≠ 0 ∨ (k.pool.isSome = true ∧ procBusy s pid = true) ∨ k.tensors.find 0 = none ∨
         ∃ l, k.tensors.find 0 = some l ∧ l.ntile * 65536 < a + 2 ^ 26) → exec (.rqpool w0 w1 w2) s = .next (done s 1)) ∧
     (∀ l, held = false → a % 4096 = 0 → k.tensors.find 0 = some l → a + 2 ^ 26 ≤ l.ntile * 65536 → (k.pool = none ∨ procBusy s pid = false) →
       (poolBlocked s0 mp = true → exec (.rqpool w0 w1 w2) s = .next { s0 with serai := { s0.serai with mapping := some mp } }) ∧
       (poolBlocked s0 mp = false → ∃ t, (getProc t pid).pool = some (mkRef 0 a) ∧ (getProc t pid).tensors = k.tensors ∧
         t.serai.mapping = none ∧ t.host = s.host ∧
         exec (.rqpool w0 w1 w2) s = .next (if anyCtx t (stillMisses pid 0) then
           { t with serai := { t.serai with mapping := some { mp with written := true } } } else done t 0))))

/-- R321 to R323, R318, R330, R331, R346, R364, Table 18.4: a request's progress word takes its MSEQ as it is taken, and its source 0x03
event says whether it was done or refused; what each request does when it is done. The model's choices: a PREEMPT before POOL is refused (log
entry 150), a POOL in a checkpoint area too (40), unusual states (86), what THAW drops (87), and a forced MOVE out of the task's instance (127). -/
def Obligations.MailboxRequests : Prop :=
  ∀ (s : State) (ms : Nat) (w1 w2 w3 : Word),
    let u := takenMail s ms
    let ends := fun (t : State) (st : Nat) => event t 0x03 [BitVec.ofNat 64 (ms % 2 ^ 32 * 2 ^ 32 + st)]
    let c := w1.toNat % 2 ^ 11
    let x := w1.toNat / 2 ^ 11 % 4
    let sl := w1.toNat % 2 ^ 16
    let ix := w1.toNat % 2 ^ 10
    (u.mem.readN 0x4000 8 = ms % 2 ^ 32 ∧ u.host = { s.host with mseq := BitVec.ofNat 32 ms } ∧
      ∀ a, (a < 0x4000 ∨ 0x4008 ≤ a) → u.mem.read a = s.mem.read a) ∧
    (0 < s.serai.slots ∨ w1.toNat % 2 ^ 21 ≠ 0 ∨ poolInArea w1.toNat (w2.toNat % 2 ^ 16 + 1) = true →
      exec (.pool ms w1 w2) s = .next (ends u 1)) ∧
    (s.serai.slots = 0 → w1.toNat % 2 ^ 21 = 0 → poolInArea w1.toNat (w2.toNat % 2 ^ 16 + 1) = false → exec (.pool ms w1 w2) s =
      .next (ends { u with serai := { u.serai with poolBase := w1.toNat, slots := w2.toNat % 2 ^ 16 + 1 } } 0)) ∧
    (s.serai.slots = 0 ∨ (getCtx s c x).status = .free ∨ isFrozen (getCtx s c x) = true → exec (.preempt ms w1 w2) s = .next (ends u 1)) ∧
    (preemptable s c x = true → ∃ t, exec (.preempt ms w1 w2) s = .next (ends t 0) ∧ (getCtx t c x).preempting.isSome = true ∧
      (getCtx t c x).live = (getCtx s c x).live ∧ (getCtx t c x).wp = (getCtx s c x).wp) ∧
    (s.serai.images.find sl = none → exec (.mailboxResume ms w1 w2) s = .next (ends u 1) ∧ exec (.mailboxEnd ms w1 w2) s = .next (ends u 1) ∧
      exec (.move ms w1 w2) s = .next (ends u 1)) ∧
    (∀ i, s.serai.images.find sl = some i → i.saving = false →
      (i.trapped = false → (i.frozen = false ∨ i.cause ≠ 0x20) → exec (.mailboxResume ms w1 w2) s = .next (ends u 1)) ∧
      (i.trapped = true → i.cause ≠ 0x0F → i.cause ≠ 0x0E → ∃ t i', exec (.mailboxResume ms w1 w2) s = .next (ends t 0) ∧
        t.serai.images.find sl = some i' ∧ i'.trapped = false ∧ i'.frozen = false ∧ i'.cause = 0 ∧ i'.ctx = { i.ctx with pend := none } ∧
        (∀ e k m, i.task = some e → getTask s e = some k → manifestOf s k.seq = some m → ∃ k', getTask t e = some k' ∧ k'.st = .saved ∧ k'.slot = sl)) ∧
      (∀ e k, i.task = some e → getTask s e = some k → k.st = .saved → k.slot = sl → ∃ t, exec (.mailboxEnd ms w1 w2) s = .next (ends t 0) ∧
        t.serai.images.find sl = none ∧
        (∀ n, getIndex s (taskKey k) = some n → n.isLive = true → 1 < n.live →
          (s.serai.indices.cells.any fun y => y.2.deps.contains (taskKey k)) = false →
          ∃ n', getIndex t (taskKey k) = some n' ∧ n'.failed = some (k.depth, 2) ∧ n'.live = n.live - 1)) ∧
      (i.task = none → ∃ t, exec (.mailboxEnd ms w1 w2) s = .next (ends t 0) ∧ t.serai.images.find sl = none) ∧
      (sl < 0x8000 → exec (.thaw ms w1 w2) s = exec (.mailboxEnd ms w1 w2) s) ∧
      (canMove u sl (w2.toNat % 2 ^ 11) i (w2.getLsbD 16) = false → exec (.move ms w1 w2) s = .next (ends u 1)) ∧
      (∀ y, canMove u sl (w2.toNat % 2 ^ 11) i (w2.getLsbD 16) = true → freeCtx u i (w2.toNat % 2 ^ 11) = some y → i.core = w2.toNat % 2 ^ 11 →
        i.coretied = true → i.task = none → i.ctx.task = none → coreReady u i.core i.ctx.pid i.ctx.vregs = (u, true) →
        ∃ t, exec (.move ms w1 w2) s = .next (ends t 0) ∧ t.serai.images.find sl = none ∧ (getCtx t i.core y).live = (wakeRestored i.ctx).live ∧
          (getCtx t i.core y).pc = i.ctx.pc)) ∧
    (0x8000 ≤ sl → sl < 0x8800 → (getCore s (sl - 0x8000)).engineFrozen = false → exec (.thaw ms w1 w2) s = .next (ends u 1)) ∧
    (0x8000 ≤ sl → sl < 0x8800 → (getCore s (sl - 0x8000)).engineFrozen = true → ∃ t, exec (.thaw ms w1 w2) s = .next (ends t 0) ∧
      (getCore t (sl - 0x8000)).engineFrozen = false) ∧
    (resetRefused s (w1.toNat % 2 ^ 4) = true → exec (.diereset ms w1 w2) s = .next (ends u 1)) ∧
    (resetRefused s (w1.toNat % 2 ^ 4) = false → ∃ t, exec (.diereset ms w1 w2) s = .next (ends t 0) ∧ (getDie t (w1.toNat % 2 ^ 4)).rphase = 1 ∧
      (getDie t (w1.toNat % 2 ^ 4)).around = true) ∧
    (setRegs.contains ix = false ∨ valueOk ix w2 = false → exec (.setreg ms w1 w2) s = .next (ends u 1)) ∧
    (setRegs.contains ix = true → valueOk ix w2 = true → ∃ t, exec (.setreg ms w1 w2) s = .next (ends t 0) ∧
      (ix ≠ 0x1C4 → getregValue t ix w3 = some w2) ∧ { t with pkg := u.pkg, timers := u.timers } = u) ∧
    (getRegs.contains ix = false → exec (.getreg ms w1 w3) s = .next (ends u 1)) ∧
    (∀ v, getregValue u ix w3 = some v → ∃ t, exec (.getreg ms w1 w3) s = .next (ends t 0) ∧ t.mem.readN (ms % 256 * 64 + 16) 8 = v.toNat ∧
      (∀ a, (a < ms % 256 * 64 + 16 ∨ ms % 256 * 64 + 24 ≤ a) → t.mem.read a = u.mem.read a) ∧ t.host = u.host)

/-- R313, R371: an image of the scheduler node that fits a free slot of queue 63 stands in the queue's ring region, with its entry, before
the tail moves past it; a residency query is answered with counts, and the timer's report is one for no tensors. Where the image stands (log
entry 83), what is not taken (84) and the order of a report's words (85) are the model's choices. -/
def Obligations.SchedulerNode : Prop :=
  ∀ (s : State) (pid : Nat) (hs : BitVec 32) (img : List (BitVec 8)) (tids : List Nat),
    let q := getQueue s 63
    let a := imageAt q q.tail.toNat
    let e := ringEntry q.base 16 q.tail.toNat
    (65536 < img.length ∨ ringSize q.base ≤ (q.tail - q.head).toNat → exec (.fabricManifest pid hs img) s = .next s) ∧
    (img.length ≤ 65536 → (q.tail - q.head).toNat < ringSize q.base → ∃ t, exec (.fabricManifest pid hs img) s = .next (fillHeld t) ∧
      getQueue t 63 = { q with tail := q.tail + 1 } ∧ (∀ n, n ≠ 63 → getQueue t n = getQueue s n) ∧
      (∀ i, i < img.length → t.mem.read (a + i) = img.getD i 0) ∧ t.mem.readN e 8 = pid % 2 ^ 16 * 2 ^ 48 + a % 2 ^ 48 ∧
      t.mem.readN (e + 8) 8 = hs.toNat ∧
      (∀ p, (p < a ∨ a + 65536 ≤ p) → (p < e ∨ e + 16 ≤ p) → (inArea p = false ∨ ∀ b, waitsCopy s b = false) →
        t.mem.read p = s.mem.read p) ∧ t.serai = s.serai) ∧
    (∃ w, exec (.resquery pid tids) s = .next { s with host := { s.host with nodeOut := s.host.nodeOut ++ [w] } } ∧
      w.length = 16 + 3 * Nat.min tids.length 32 ∧
      (∀ m, m < 16 → w.getD m 0 = BitVec.ofNat 64 (freeCount s m)) ∧
      ∀ n, n < 32 → n < tids.length → w.getD (16 + 3 * n) 0 = BitVec.ofNat 64 (countState s pid (tids.getD n 0) 1) ∧
        w.getD (17 + 3 * n) 0 = BitVec.ofNat 64 (countState s pid (tids.getD n 0) 2) ∧
        w.getD (18 + 3 * n) 0 = BitVec.ofNat 64 (countState s pid (tids.getD n 0) 0)) ∧
    (∃ w, exec .residencyReportTimer s = .next { s with
      host := { s.host with nodeOut := s.host.nodeOut ++ [w] }
      serai := { s.serai with nodeAt := s.now } } ∧ w.length = 16)

/-- R337 to R339: a message with the expected number is delivered, and the next number is expected; an older one is dropped; one further on
is held while there is room; its source, which sends nothing new while its retransmit buffer is full, keeps it for resending, and a message
that finds it full comes again. For a die held
in reset it is kept alone. A gap that lasts GAPWAIT is answered with a resend request; the source then sends every kept message from
that number on again; an acknowledgement frees what it covers; a request unanswered for 2^20 cycles breaks the pair, with its event, and
the accesses of the destination's contexts, saved ones among them, that await data from the source end with a late fault. The endpoints, and
what a message of the script shows of its source, are the model's (log entry 17). -/
def Obligations.MessagesFlow : Prop :=
  ∀ (s : State) (a b : Nat) (sq : BitVec 32) (m : Word),
    let l := getLink s a b
    let old := fun (n : BitVec 32) => decide (2 ^ 31 ≤ (n - l.expected).toNat)
    let kept := fun (t : State) =>
      if isOld sq l.next then (getLink t a b).kept = l.kept ∧ (getLink t a b).next = l.next
      else (sq, m) ∈ (getLink t a b).kept ∧ (getLink t a b).next = sq + 1
    (hasRoom s a b sq = false → exec (.messageArrival a b sq m) s =
      .next { s with timers := s.timers ++ [(s.now + 1, .messageArrival a b sq m)] }) ∧
    (hasRoom s a b sq = true → ∃ t, exec (.messageArrival a b sq m) s = .next t ∧ kept t ∧ t.mem = s.mem ∧ t.cores = s.cores ∧
      (∀ c d, pairKey c d ≠ pairKey a b → getLink t c d = getLink s c d) ∧
      (b < 16 ∧ dieHeld s b = true ∨ old sq = true →
        (getLink t a b).delivered = l.delivered ∧ (getLink t a b).expected = l.expected ∧ (getLink t a b).holds = l.holds) ∧
      (¬(b < 16 ∧ dieHeld s b = true) →
        (sq = l.expected → findMsg (sq + 1) l.holds = none →
          (getLink t a b).delivered = m :: l.delivered ∧ (getLink t a b).expected = sq + 1) ∧
        (sq ≠ l.expected → old sq = false → findMsg sq l.holds = none → l.holds.length < Config.heldMessages →
          (getLink t a b).delivered = l.delivered ∧ (getLink t a b).expected = l.expected ∧
          (getLink t a b).holds = l.holds ++ [(sq, m)] ∧ (getLink t a b).gapAt = some (l.gapAt.getD (s.now + gapWait s))))) ∧
    (l.gapAt = none → exec (.gapTimeout a b) s = .next s) ∧
    (∀ g, l.gapAt = some g →
      (s.now < g → exec (.gapTimeout a b) s = .next { s with timers := s.timers ++ [(s.now + (g - s.now), .gapTimeout a b)] }) ∧
      (g ≤ s.now → ∃ t n, exec (.gapTimeout a b) s = .next t ∧ (n, Due.resendRequest a b l.expected) ∈ t.timers ∧
        (s.now + gapWait s, Due.gapTimeout a b) ∈ t.timers ∧ (getLink t a b).gapAt = some (s.now + gapWait s) ∧
        (getLink t a b).delivered = l.delivered ∧ (getLink t a b).expected = l.expected)) ∧
    (∃ t, exec (.resendRequest a b sq) s = .next t ∧ { t with timers := s.timers, delays := s.delays } = s ∧
      t.timers.map (·.2) = s.timers.map (·.2) ++
        (l.kept.filter fun n => !decide (2 ^ 31 ≤ (n.1 - sq).toNat)).map fun n => Due.messageArrival a b n.1 n.2) ∧
    (old sq = false ∨ isOld sq l.acked = true → exec (.cumulativeAck a b sq) s = .next s) ∧
    (old sq = true → isOld sq l.acked = false → exec (.cumulativeAck a b sq) s = .next (setLink s a b { l with
      kept := l.kept.filter (fun n => !decide (2 ^ 31 ≤ (n.1 - (sq + 1)).toNat)), acked := sq, oldAt := s.now })) ∧
    (l.broken = true ∨ l.reqAt = none ∨ (∀ g, l.reqAt = some g → s.now < g + 2 ^ 20) → exec (.pairBroken a b) s = .next s) ∧
    (∀ g, l.broken = false → l.reqAt = some g → g + 2 ^ 20 ≤ s.now → ∃ t, exec (.pairBroken a b) s = .next t ∧
      getLink t a b = { l with broken := true } ∧ t.mem = s.mem ∧ t.serai.raised = s.serai.raised ++
        [(0x06, false, [BitVec.ofNat 64 (a % 65536 * 2 ^ 48 + b % 65536 * 2 ^ 32 + l.expected.toNat)])] ∧
      (∀ c x, getCtx t c x = if coreEnd c = b then breakAccesses s c a (getCtx s c x) else getCtx s c x) ∧
      (∀ sl i, s.serai.images.find sl = some i → t.serai.images.find sl =
        some (if coreEnd i.core = b then { i with ctx := breakAccesses s i.core a i.ctx } else i)) ∧
      ∀ c k, let r := breakAccesses s c a k
        r.live = k.live ∧ r.loads = k.loads.filter (fun q => !(farHomes s c q.scope (loadBytes q)).contains a) ∧
        (∀ q ∈ k.loads, (farHomes s c q.scope (loadBytes q)).contains a = true → brokenFault q.slot q.pc ∈ r.late) ∧
        ∀ q ∈ k.copyq, if q.done = false ∧ q.kind ≠ .cpout ∧ (copyHomes s q).contains a = true
          then brokenFault q.slot q.pc ∈ r.late ∧ q ∉ r.copyq else q ∈ r.copyq)

/-- R342 to R345: a checkpoint that is due takes its die's fixed-task contexts as a rollback would leave them, lists the written blocks of its
levels, and writes its L2 back; a block is copied to a free place of the die's area, the last of them makes the commit due, and the commit's
map replaces the old one, which it keeps for the blocks that it does not copy, with its event. Where the areas stand and what of a die is kept
as plain data is log entry 40. -/
def Obligations.CheckpointsCommit : Prop :=
  ∀ (s : State) (d bk : Nat),
    let k := getDie s d
    let old := match k.ckpt with | some o => o.map | none => []
    (captureDue s d = false → exec (.checkpointCapture d) s = .next s) ∧
    (captureDue s d = true → ∃ t c, exec (.checkpointCapture d) s = .next t ∧ (getDie t d).capture = some c ∧ c.epoch = k.epoch + 1 ∧
      c.at_ = s.now ∧ c.blocks = k.dirtyBlocks ∧ c.map = [] ∧ c.logged = k.log.length ∧
      c.ctxs = (fixedOn s d).map (fun q => (q.1, q.2, rolledBack s q.1 q.2)) ∧ (getDie t d).lastE = s.now ∧ (getDie t d).dirtyBlocks = [] ∧
      (getDie t d).dphase = (if c.blocks = [] then 2 else 1) ∧ t.mem = (writeBackAll s d).mem ∧
      t.timers.map (·.2) = s.timers.map (·.2) ++ (if c.blocks = [] then [.checkpointCommit d] else c.blocks.map (Due.droverBlockCopy d))) ∧
    (k.capture = none → exec (.droverBlockCopy d bk) s = .next s ∧ exec (.checkpointCommit d) s = .next s) ∧
    (∀ c, k.capture = some c →
      let place := freePlace c.map old
      let c1 := { c with map := c.map ++ [(bk, place)] }
      (k.dphase ≠ 1 ∨ c.blocks.contains bk = false ∨ ((findCell bk c.map).isSome = true ∧ allCopied c = false) →
        exec (.droverBlockCopy d bk) s = .next s) ∧
      (k.dphase = 1 → c.blocks.contains bk = true → findCell bk c.map = none → ∃ t, exec (.droverBlockCopy d bk) s = .next t ∧
        (getDie t d).capture = some c1 ∧ t.cores = s.cores ∧
        (∀ i, i < 4096 → t.mem.read (areaBase d + place * 4096 + i) = s.mem.read (bk * 4096 + i)) ∧
        (∀ a, (a < areaBase d + place * 4096 ∨ areaBase d + place * 4096 + 4096 ≤ a) → t.mem.read a = s.mem.read a) ∧
        (getDie t d).dphase = (if allCopied c1 then 2 else 1) ∧
        t.timers = s.timers ++ (if allCopied c1 then [(s.now + nextDelay s, .checkpointCommit d)] else [])) ∧
      (k.dphase = 1 → c.blocks.contains bk = true → (findCell bk c.map).isSome = true → allCopied c = true → ∃ t,
        exec (.droverBlockCopy d bk) s = .next t ∧ (getDie t d).dphase = 2 ∧ t.mem = s.mem ∧
        t.timers = s.timers ++ [(s.now + nextDelay s, .checkpointCommit d)]) ∧
      (k.dphase ≠ 2 → exec (.checkpointCommit d) s = .next s) ∧
      (k.dphase = 2 → exec (.checkpointCommit d) s = .next (event (setDie s d { k with
        ckpt := some { c with map := c.map ++ old.filter fun e => (findCell e.1 c.map).isNone }, capture := none, epoch := c.epoch, dphase := 0,
        log := k.log.drop c.logged }) 0x07 [BitVec.ofNat 64 (d % 16 * 2 ^ 56 + c.epoch.toNat)])))

/-- R340, R346 to R348, Table 19.4: the phases of a die's warm reset follow one another, each with its event; the drain waits for a commit
in progress, but no longer than DRAINTO; at RESET the die's contexts are free and its banks empty; with checkpointing on, RESTORE puts the
captured blocks back from the area, and REPLAY begins a captured context's run again where it was captured, with the inbound log before it;
the replay goes on until it has caught up; at the end the die is in service again, and what stayed with its sources has come in. How a run is
told from its replay is log entry 18, the area log entry 40: the model's choices.
R321, R337, R359: a package reset gives every part its reset state, but for wear, the located-fault totals and the bytes of memory above
the mailbox; after a thermal shutdown it is a cold one, and keeps wear alone. That memory and the totals stay, or go, is log entry 19. -/
def Obligations.DieResets : Prop :=
  (∀ (s : State) (d : Nat),
     let n := (getDie s d).rphase
     let on := s.pkg.drvctl.getLsbD 0
     let told := fun (t : State) (p : Nat) => (0x05, false, [BitVec.ofNat 64 (p * 2 ^ 60 + d % 16 * 2 ^ 56 + (getDie s d).epoch.toNat)]) ∈ t.serai.raised
     let enters := fun (t : State) (p : Nat) => (getDie t d).rphase = p ∧ told t p
     let held := fun (t : State) => enters t 3 ∧ t.mem = s.mem ∧
       ∀ c ∈ coresOfDie d, (getCore t c).z = .empty ∧ (getCore t c).mma = none ∧ (getCore t c).drain = none ∧
         ∀ x, x < 4 → (getCtx t c x).status = .free ∧ (getCtx t c x).live = Regs.reset ∧ ∀ w, ((getCtx t c x).w.get WReg.reset w).valid = false
     let again := { s with timers := s.timers ++ [(s.now + 1, Due.dieResetPhase d)] }
     (n = 0 ∨ 6 < n → exec (.dieResetPhase d) s = .next s) ∧
     (n ≠ 2 → exec (.transitDrainTimeout d) s = .next s) ∧
     (n = 2 → ∃ t, exec (.transitDrainTimeout d) s = .next t ∧ held t) ∧
     (n = 1 → ∃ t, exec (.dieResetPhase d) s = .next t ∧ enters t 2) ∧
     (n = 2 → commitsOn s d = true → exec (.dieResetPhase d) s = .next again) ∧
     (n = 2 → commitsOn s d = false → ∃ t, exec (.dieResetPhase d) s = .next t ∧ held t) ∧
     (n = 3 → ∃ t, exec (.dieResetPhase d) s = .next t ∧ enters t 4 ∧
       (on = false ∨ (getDie s d).ckpt = none → t.mem = s.mem) ∧
       (∀ c, on = true → (getDie s d).ckpt = some c →
         (∀ pre e post, c.map = pre ++ e :: post → d < 16 → (∀ q ∈ c.map, 2 ^ 44 ≤ q.1 * 4096 ∧ q.2 < Config.areaFrames * 16) →
           (∀ q ∈ post, q.1 ≠ e.1) → ∀ i, i < 4096 → t.mem.read (e.1 * 4096 + i) = s.mem.read (areaBase d + e.2 * 4096 + i)) ∧
         ∀ a, (∀ q ∈ c.map, a / 4096 ≠ q.1) → t.mem.read a = if onDie d a then 0 else s.mem.read a)) ∧
     (n = 4 → ∃ t, exec (.dieResetPhase d) s = .next t ∧ enters t 5 ∧
       (on = false ∨ (getDie s d).ckpt = none → t.cores = s.cores) ∧
       ∀ c y x k r, on = true → (getDie s d).ckpt = some c → c.ctxs = [(y, x, k)] → x < 4 → findRegs s y k.vregs = some r →
         (getDie t d).replay = (getDie s d).log ∧ (getCtx t y x).live = k.live ∧ (getCtx t y x).wp = k.wp ∧ (getCtx t y x).pc = k.pc ∧
         (getCtx t y x).run = k.run ∧
         (getCtx t y x).status = (if (k.pend.filter trapStands).isSome then .trapped else if k.ended then .halted else .running) ∧ (getCtx t y x).vbase = r) ∧
     (n = 5 → caughtUp s d = false → exec (.dieResetPhase d) s = .next again) ∧
     (n = 5 → caughtUp s d = true → ∃ t, exec (.dieResetPhase d) s = .next t ∧ enters t 6 ∧ (getDie t d).around = false ∧ (getDie t d).inbox = [] ∧
       t.mem = s.mem ∧
       ∀ c ∈ coresOfDie d, if d % 2 = 0 then (getPair t (pairOf c)).freeLower = s.now else (getPair t (pairOf c)).freeUpper = s.now) ∧
     (n = 6 → ∃ t, exec (.dieResetPhase d) s = .next t ∧ (getDie t d).rphase = 0 ∧ t.mem = s.mem)) ∧
  (∀ (s : State), ∃ t, exec .packageReset s = .next t ∧ t.off = false ∧
     { t with fresh := 0, inputs := [], delays := [], pieces := [], dies := .empty, cstacks := .empty, mem := ⟨[]⟩ } =
       { State.reset with fresh := 0, inputs := [], delays := [], pieces := [], dies := .empty, cstacks := .empty, mem := ⟨[]⟩ } ∧
     (∀ d, getDie t d = { Die.reset with wear := (getDie s d).wear }) ∧
     (s.off = false → (∀ a, t.mem.read a = if a < 0x4008 then 0 else s.mem.read a) ∧
       ∀ k, getStack t k = { Stack.reset with total := (getStack s k).total, resesc := (getStack s k).resesc }) ∧
     (s.off = true → t.mem = ⟨[]⟩ ∧ ∀ k, getStack t k = Stack.reset))

/-- Tables 2.1, 2.3 to 2.7, 17.2 to 17.4, 18.3, 19.3, 20.2 to 20.8, 21.2, R41 to R44, R273, R359: what the spec gives for package reset: no
context holds a task, its registers are 0 with no handle configured and no w register valid, the ordering scopes are 5, both arrays of
every pair are EXCL and free, and every register with a stated reset value reads it, from a task context and from a management context.
The memory is in its canonical form. Where the spec states none, the model's choice stands: BANKKEY, TRAPPC, TRAPINFO and THSEL are 0 (log entry
43), CYCLES is 0 before the first core cycle (32), and core 2048 is a management core (9). -/
def Obligations.ResetValues : Prop :=
  let s := State.reset
  let zero := [0x005, 0x006, 0x007, 0x008, 0x00F, 0x010, 0x011, 0x012, 0x013, 0x016, 0x01A, 0x020, 0x021, 0x022, 0x028, 0x02F, 0x030]
  s.mem.wf = true ∧ s.off = false ∧ s.now = 0 ∧
  (∀ c x, (getCtx s c x).status = .free ∧ (getCtx s c x).task = none ∧
    ∀ n, (getCtx s c x).live.g.get 0 n = 0 ∧ (getCtx s c x).live.v.get 0 n = 0 ∧ (getCtx s c x).live.p.get 0 n = 0 ∧
      ((getCtx s c x).live.tiles.get Tile.off n).v = false ∧ (getCtx s c x).live.epi.get 0 n = 0 ∧
      ((getCtx s c x).w.get WReg.reset n).val = 0 ∧ ((getCtx s c x).w.get WReg.reset n).valid = false) ∧
  (∀ pr, (getPair s pr).mode = false ∧ (getPair s pr).st = .free) ∧
  (∀ k, (getCluster s k).pat = 0xFFFF ∧ (getCluster s k).epat = 0xFFFF ∧ (getCluster s k).grant = 0 ∧ (getCluster s k).st = 0 ∧
    (getCluster s k).busy = false ∧ (getCluster s k).err = false) ∧
  (∀ d n, n < 4 → eprofOf s d n = 0x100804020100000A ∧ (getDie s d).wakereq = 0) ∧
  (∀ n, (getSensor s n).valid = false ∧ (getSensor s n).level = 0) ∧
  (∀ n, (getQueue s n).head = 0 ∧ (getQueue s n).tail = 0) ∧
  (zero.all fun r => crdValue s 8 0 r == 0) = true ∧
  crdValue s 8 0 0x003 = 0x55555555 ∧ crdValue s 8 0 0x004 = 0x55555555 ∧ crdValue s 8 0 0x014 = 0x10080402 ∧
  crdValue s 2048 0 0x110 = 4096 ∧ crdValue s 2048 0 0x111 = 65536 ∧ crdValue s 2048 0 0x140 = 0 ∧
  crdValue s 2048 0 0x141 = 0x0001000000001000 ∧ crdValue s 2048 0 0x181 = 0xFFFFFFFF ∧ crdValue s 2048 0 0x182 = 0 ∧
  crdValue s 2048 0 0x184 = 0x100804020100000A ∧ crdValue s 2048 0 0x188 = 0 ∧ crdValue s 2048 0 0x18F = 1 ∧
  crdValue s 2048 0 0x190 = 0 ∧ crdValue s 2048 0 0x191 = 0 ∧ crdValue s 2048 0 0x192 = 0x000055055F05690A ∧
  crdValue s 2048 0 0x193 = 0x000050055A05640A ∧ crdValue s 2048 0 0x194 = 0x05005258 ∧ crdValue s 2048 0 0x1A0 = 0 ∧
  crdValue s 2048 0 0x1A1 = 0 ∧ crdValue s 2048 0 0x1C0 = 0 ∧ crdValue s 2048 0 0x1C1 = 0 ∧ crdValue s 2048 0 0x1C4 = 0 ∧
  crdValue s 2048 0 0x1C5 = 0x00000E1000000003

/-- R242, log entry 3: every step keeps the memory in its canonical form, whatever else the state holds: each byte is listed at most once,
in rising order of its address, and only where it differs from what an unlisted byte reads as. -/
def Obligations.MemoryStaysCanonical : Prop :=
  ∀ s t : State, Safe s → step s = .next t → Safe t

/-- R9, R10, R86, R92: a step whose issue buffer begins with the words of a well-formed slot is that slot's instruction, run at that state;
words that decode to nothing trap with cause 0x10 or the reason's cause; a table word placed for the next step runs as that step. The
model's own step counter is all that the step adds. How a word is placed is log entry 14, what an undecodable word in the buffer does log entry
99. -/
def Obligations.StepRunsDecoded : Prop :=
  (∀ (s : State) (i : Instr) (rest : List Nat), i.wf = true → (slotInfo i).cls ≠ 8 → (∀ w r, rest = w :: r → classOf w ≠ 7) →
    (me s).vregs = 32 → s.latch.hold = false → s.latch.words = encode i ++ rest → step s = exec i (stepCount s)) ∧
  (∀ (s : State) (i : Instr) (rest : List Nat), s.latch.hold = false → decodeWords (me s).vregs s.latch.words = .ok (i, rest) →
    step s = exec i (stepCount s)) ∧
  (∀ (s : State) (r : Nat), s.latch.hold = false → s.latch.words ≠ [] → decodeWords (me s).vregs s.latch.words = .error r →
    step s = .next (takeTrap (stepCount s) s.focus (curX s) (undecodedTrap (stepCount s) r (me s).bpc))) ∧
  (∀ (s : State) (w : Nat) (i : Instr), decodeTableWord 32 w = some i → (me s).vregs = 32 →
    step (s.withFetchWord 32 w) = exec i { s.withFetchWord 32 w with fresh := s.fresh + 1 })

/-- R8, R302, R357: with no slot to run, an event of the input script whose time has come runs first, then the first event that is due,
then what the package has to do by itself; else a core with a turn left has its core cycle; with none left come the licence choices, task
completions, reports, decodes and wake-ups of the master cycle, and last it passes, its events stamped (R38, R224, R276, R285, R365).
The rows that the package starts by itself are those of the table. The order is the model's choice: log entries 1, 91, 93 and 94.
R357: no step stops, but one of a package that a thermal shutdown has switched off, with no slot in issue and nothing from outside to
come; only a package reset then acts. -/
def Obligations.StepRunsEvents : Prop :=
  ((∀ (s : State) (i : Instr) (r : List (Nat × Instr)), slotDue s = false → s.off = false → s.inputs = (0, i) :: r → (slotInfo i).cls = 8 →
     step s = exec i { stepCount s with inputs := r }) ∧
   (∀ (s : State) (d : Due) (r : List (Nat × Due)), slotDue s = false → s.off = false → (∀ i q, s.inputs ≠ (0, i) :: q) →
     dueTimer s.now s.timers = some (d, r) → step s = runDue d { stepCount s with timers := r }) ∧
   (∀ (s : State) (c : Nat) (r : List Nat), slotDue s = false → s.off = false → (∀ i q, s.inputs ≠ (0, i) :: q) →
     dueTimer s.now s.timers = none → agenda (stepCount s) = none → s.turns = c :: r →
     step s = exec .bundleFetch { stepCount s with focus := c, turns := r }) ∧
   (∀ (s : State), slotDue s = false → s.off = false → (∀ i q, s.inputs ≠ (0, i) :: q) → dueTimer s.now s.timers = none →
     agenda (stepCount s) = none → s.turns = [] →
     (let u := stepCount s
      (choiceTodo u <|> doneTodo u <|> reportTodo u <|> caravanTodo u <|> wakeTodo u <|> mailTodo u) = none →
        step s = .next (tick (stampCycle u)) ∧ (s.serai.raised = [] → (∀ e ∈ s.dies.cells, e.2.evq = []) → stampCycle u = u))) ∧
   (∀ (s : State), let t := tick s
     t.now = s.now + 1 ∧ t.mem = s.mem ∧ t.cores = s.cores ∧ t.serai = s.serai ∧ t.timers = s.timers ∧ t.latch.hold = false ∧
       (s.latch.words = [] → ∀ c, c ∈ t.turns ↔ ∃ k, (c, k) ∈ s.cores.cells ∧ coreActive k = true ∧ pulse t c = true)) ∧
   (∀ (s : State) (d : Due), RunsAsRow s d)) ∧
  ((∀ s : State, (∃ t, step s = .next t) ∨ (s.off = true ∧ s.inputs = [] ∧ slotDue s = false ∧ step s = .fault .packageOff)) ∧
   (∀ s : State, s.off = true → s.inputs = [] → slotDue s = false → step s = .fault .packageOff) ∧
   (∀ (s : State) (n : Nat) (r : List (Nat × Instr)), s.off = true → slotDue s = false → s.inputs = (n, .packageReset) :: r →
     step s = exec .packageReset { stepCount s with inputs := r }) ∧
   (∀ (i : Instr) (s : State), ∃ t, exec i s = .next t))

/-- R45, R83, R93, R128, R163, R182: words written out from the encoding tables decode to the instructions they stand for, an LX slot's
payload among them; unassigned opcodes, unused fields, register fields out of range and misplaced LX slots give the reasons of Table
4.8. -/
def Obligations.WordsDecode : Prop :=
  decodeWords 32 [0x02C00000] = .ok (.or ⟨0, false, 0⟩ 0 0 0, []) ∧
  decodeWords 32 [0x00000C85] = .ok (.add ⟨0, false, 0⟩ 3 4 5, []) ∧
  decodeWords 32 [0x00800C00, 0x70000123] = .ok (.addi ⟨0, false, 0⟩ 3 0 (.lx1 0x123), []) ∧
  decodeWords 32 [0x92C81840] = .ok (.lda ⟨2, 0⟩ 6 2 (.reg 0), []) ∧
  decodeWords 32 [0x20080000] = .ok (.vmov ⟨0, true, 0⟩ 0 0, []) ∧
  decodeWords 32 [0x4140041D] = .ok (.zclr ⟨0, false, 0⟩ 1 (.b 0x1D), []) ∧
  decodeWords 32 [0x40E208E0] = .ok (.mma 2 1 0 1 7 false false, []) ∧
  decodeWords 32 [0x43500909] = .ok (.cpout ⟨1, false, 0⟩ 2 8 9, []) ∧
  decodeWords 32 [0x50C008E0] = .ok (.twset ⟨0, false, 0⟩ 2 7, []) ∧
  decodeWords 32 [0x61009980] = .ok (.cwr ⟨0, false, 1⟩ 6 0x180, []) ∧
  decodeWords 32 [0xE0000000] = .ok (.waypt 0, []) ∧
  decodeWords 32 [0x0E400C00] = .error 0x10 ∧ decodeWords 32 [0x07000C81] = .error 0x11 ∧ decodeWords 16 [0x20404000] = .error 0x12 ∧
  decodeWords 32 [0x09804000] = .error 0x13 ∧ decodeWords 32 [0x00000C85, 0x70000000] = .error 0x14 ∧
  decodeWords 32 [0x41800002] = .error 0x15

/-- R9, R10, R45, R50, R83: decode and encode agree, with every operand at every value that the encoding admits: the words of a
well-formed slot followed by no LX word decode to it, and a word with its LX payloads that decodes is the word of the slot it gives. -/
def Obligations.EncodingsAgree : Prop :=
  (∀ (i : Instr) (rest : List Nat), i.wf = true → (slotInfo i).cls ≠ 8 → (∀ w r, rest = w :: r → classOf w ≠ 7) →
    decodeWords 32 (encode i ++ rest) = .ok (i, rest)) ∧
  (∀ (w : Nat) (lx : List (BitVec 28)) (i : Instr), w < 2 ^ 31 → lx.length ≤ 2 → decodeSlot 32 w lx = .ok i →
    encWord i = w ∧ encLxs i = lx ∧ i.wf = true)
end

