-- ==== Sys2Proof/Laws/Tab.lean ====
section
/-! SUPPORT. Laws of the sparse tables and of the memory: reading after writing, and the canonical form kept. -/

namespace Sys2Proof.Machine

/-! ### Cells -/

theorem findCell_putCell_self {α : Type} (k : Nat) (v : α) (l : List (Nat × α)) : findCell k (putCell k v l) = some v := by
  induction l with
  | nil => simp [putCell, findCell]
  | cons e r ih =>
    obtain ⟨j, w⟩ := e
    simp only [putCell]
    by_cases h1 : k < j
    · simp [h1, findCell]
    · by_cases h2 : j = k
      · simp [h2, findCell]
      · simp [h1, h2, findCell, ih]

theorem findCell_putCell_ne {α : Type} (j k : Nat) (v : α) (l : List (Nat × α)) (h : j ≠ k) :
    findCell j (putCell k v l) = findCell j l := by
  induction l with
  | nil => simp [putCell, findCell, Ne.symm h]
  | cons e r ih =>
    obtain ⟨i, w⟩ := e
    simp only [putCell]
    by_cases h1 : k < i
    · simp [h1, findCell, Ne.symm h]
    · by_cases h2 : i = k
      · subst h2; simp [findCell, Ne.symm h]
      · simp [h1, h2, findCell, ih]

theorem findCell_dropCell_ne {α : Type} (j k : Nat) (l : List (Nat × α)) (h : j ≠ k) :
    findCell j (dropCell k l) = findCell j l := by
  induction l with
  | nil => rfl
  | cons e r ih =>
    obtain ⟨i, w⟩ := e
    simp only [dropCell]
    by_cases h2 : i = k
    · subst h2; simp [findCell, Ne.symm h, ih]
    · simp [h2, findCell, ih]

/-- Every key of a list of cells lies above `n`. -/
def keysAbove {α : Type} (n : Nat) (l : List (Nat × α)) : Prop := ∀ e ∈ l, n < e.1

theorem risingKeys_cons {α : Type} (a : Nat × α) (l : List (Nat × α)) :
    risingKeys (a :: l) = true ↔ keysAbove a.1 l ∧ risingKeys l = true := by
  induction l generalizing a with
  | nil => simp [risingKeys, keysAbove]
  | cons b r ih =>
    simp only [risingKeys, Bool.and_eq_true, decide_eq_true_eq]
    constructor
    · rintro ⟨h1, h2⟩
      refine ⟨?_, h2⟩
      intro e he
      rcases List.mem_cons.mp he with rfl | he
      · exact h1
      · exact Nat.lt_trans h1 (((ih b).mp h2).1 e he)
    · rintro ⟨h1, h2⟩
      exact ⟨h1 b (by simp), h2⟩

theorem findCell_none_of_above {α : Type} (k n : Nat) (l : List (Nat × α)) (h : keysAbove n l) (hk : k ≤ n) :
    findCell k l = none := by
  induction l with
  | nil => rfl
  | cons e r ih =>
    have h1 := h e (by simp)
    have h2 : e.1 ≠ k := by omega
    simp [findCell, h2, ih fun x hx => h x (by simp [hx])]

theorem findCell_dropCell_self {α : Type} (k : Nat) (l : List (Nat × α)) : findCell k (dropCell k l) = none := by
  induction l with
  | nil => rfl
  | cons e r ih =>
    simp only [dropCell]
    by_cases hk : e.1 = k
    · simp only [hk, if_true]; exact ih
    · simp [hk, findCell, ih]

theorem mem_putCell {α : Type} (k : Nat) (v : α) (l : List (Nat × α)) (e : Nat × α) (h : e ∈ putCell k v l) : e = (k, v) ∨ e ∈ l := by
  induction l with
  | nil => simpa [putCell] using h
  | cons a r ih =>
    obtain ⟨j, w⟩ := a
    simp only [putCell] at h
    by_cases h1 : k < j
    · simp only [h1, if_true, List.mem_cons] at h ⊢; tauto
    · by_cases h2 : j = k
      · simp only [h2, if_true, List.mem_cons] at h ⊢; simp only [lt_irrefl, if_false, List.mem_cons] at h; tauto
      · simp only [h1, h2, if_false, List.mem_cons] at h ⊢
        rcases h with h | h
        · tauto
        · have := ih h; tauto

theorem mem_dropCell {α : Type} (k : Nat) (l : List (Nat × α)) (e : Nat × α) (h : e ∈ dropCell k l) : e ∈ l := by
  induction l with
  | nil => exact h
  | cons a r ih =>
    simp only [dropCell] at h
    by_cases h2 : a.1 = k
    · simp only [h2, if_true] at h; exact List.mem_cons_of_mem _ (ih h)
    · simp only [h2, if_false, List.mem_cons] at h ⊢
      rcases h with h | h
      · exact Or.inl h
      · exact Or.inr (ih h)

theorem risingKeys_putCell {α : Type} (k : Nat) (v : α) (l : List (Nat × α)) (h : risingKeys l = true) :
    risingKeys (putCell k v l) = true := by
  induction l with
  | nil => rfl
  | cons a r ih =>
    have h' := (risingKeys_cons a r).mp h
    obtain ⟨j, w⟩ := a
    simp only [putCell]
    by_cases h1 : k < j
    · simp only [h1, if_true]
      rw [risingKeys_cons]
      refine ⟨?_, h⟩
      intro e he
      rcases List.mem_cons.mp he with rfl | he
      · exact h1
      · exact Nat.lt_trans h1 (h'.1 e he)
    · by_cases h2 : j = k
      · subst h2
        simp only [lt_irrefl, if_true, if_false]
        rw [risingKeys_cons]
        exact h'
      · simp only [h1, h2, if_false]
        rw [risingKeys_cons]
        refine ⟨?_, ih h'.2⟩
        intro e he
        rcases mem_putCell k v r e he with rfl | he
        · simp only; omega
        · exact h'.1 e he

theorem risingKeys_dropCell {α : Type} (k : Nat) (l : List (Nat × α)) (h : risingKeys l = true) :
    risingKeys (dropCell k l) = true := by
  induction l with
  | nil => rfl
  | cons a r ih =>
    have h' := (risingKeys_cons a r).mp h
    simp only [dropCell]
    by_cases h2 : a.1 = k
    · simp only [h2, if_true]; exact ih h'.2
    · simp only [h2, if_false]
      rw [risingKeys_cons]
      exact ⟨fun e he => h'.1 e (mem_dropCell k r e he), ih h'.2⟩

theorem risingKeys_filter {α : Type} (p : Nat × α → Bool) (l : List (Nat × α)) (h : risingKeys l = true) :
    risingKeys (l.filter p) = true := by
  induction l with
  | nil => rfl
  | cons a r ih =>
    have h' := (risingKeys_cons a r).mp h
    by_cases hp : p a = true
    · rw [List.filter_cons_of_pos hp, risingKeys_cons]
      exact ⟨fun e he => h'.1 e (List.mem_filter.mp he).1, ih h'.2⟩
    · rw [List.filter_cons_of_neg hp]
      exact ih h'.2

/-! ### Tables -/

@[simp] theorem Tab.get_set_self {α : Type} (t : Tab α) (d : α) (k : Nat) (v : α) : (t.set k v).get d k = v := by
  simp [Tab.get, Tab.set, findCell_putCell_self]

theorem Tab.get_set_ne {α : Type} (t : Tab α) (d : α) (j k : Nat) (v : α) (h : j ≠ k) : (t.set k v).get d j = t.get d j := by
  simp [Tab.get, Tab.set, findCell_putCell_ne j k v t.cells h]

@[simp] theorem Tab.find_set_self {α : Type} (t : Tab α) (k : Nat) (v : α) : (t.set k v).find k = some v := by
  simp [Tab.find, Tab.set, findCell_putCell_self]

theorem Tab.find_set_ne {α : Type} (t : Tab α) (j k : Nat) (v : α) (h : j ≠ k) : (t.set k v).find j = t.find j := by
  simp [Tab.find, Tab.set, findCell_putCell_ne j k v t.cells h]

theorem putCell_putCell {α : Type} (k : Nat) (v w : α) (l : List (Nat × α)) : putCell k v (putCell k w l) = putCell k v l := by
  induction l with
  | nil => simp [putCell]
  | cons e r ih =>
    obtain ⟨j, u⟩ := e
    by_cases h1 : k < j
    · simp [putCell, h1]
    · by_cases h2 : j = k
      · simp [putCell, h2]
      · simp [putCell, h1, h2, ih]

@[simp] theorem Tab.set_set {α : Type} (t : Tab α) (k : Nat) (v w : α) : (t.set k w).set k v = t.set k v := by
  simp [Tab.set, putCell_putCell]

/-! ### Memory -/

theorem Memory.wf_iff (m : Memory) : m.wf = true ↔ risingKeys m.cells = true ∧ ∀ e ∈ m.cells, e.2 ≠ unlistedByte := by
  simp [Memory.wf, List.all_eq_true]

/-- A byte reads as it was last written. -/
theorem Memory.read_write_self (m : Memory) (a : Nat) (v : BitVec 8) : (m.write a v).read a = v := by
  unfold Memory.write Memory.read
  by_cases hv : v = unlistedByte
  · simp [hv, findCell_dropCell_self a m.cells]
  · simp [hv, findCell_putCell_self]

/-- A write leaves every other byte alone. -/
theorem Memory.read_write_ne (m : Memory) (a b : Nat) (v : BitVec 8) (h : b ≠ a) : (m.write a v).read b = m.read b := by
  unfold Memory.write Memory.read
  by_cases hv : v = unlistedByte
  · simp [hv, findCell_dropCell_ne b a m.cells h]
  · simp [hv, findCell_putCell_ne b a v m.cells h]

/-- A write keeps the canonical form. -/
theorem Memory.wf_write (m : Memory) (a : Nat) (v : BitVec 8) (h : m.wf = true) : (m.write a v).wf = true := by
  obtain ⟨h1, h2⟩ := (Memory.wf_iff m).mp h
  unfold Memory.write
  by_cases hv : v = unlistedByte
  · simp only [hv, if_true]
    exact (Memory.wf_iff _).mpr ⟨risingKeys_dropCell a m.cells h1, fun e he => h2 e (mem_dropCell a m.cells e he)⟩
  · simp only [hv, if_false]
    refine (Memory.wf_iff _).mpr ⟨risingKeys_putCell a v m.cells h1, fun e he => ?_⟩
    rcases mem_putCell a v m.cells e he with rfl | he
    · exact hv
    · exact h2 e he

theorem Memory.wf_writeCells (l : List (Nat × BitVec 8)) (m : Memory) (h : m.wf = true) : (m.writeCells l).wf = true := by
  induction l generalizing m with
  | nil => exact h
  | cons c r ih => exact ih _ (Memory.wf_write m c.1 c.2 h)

theorem Memory.wf_writeN (m : Memory) (a v n : Nat) (h : m.wf = true) : (m.writeN a v n).wf = true :=
  Memory.wf_writeCells _ m h

theorem Memory.wf_filter (m : Memory) (p : Nat × BitVec 8 → Bool) (h : m.wf = true) : Memory.wf ⟨m.cells.filter p⟩ = true := by
  obtain ⟨h1, h2⟩ := (Memory.wf_iff m).mp h
  exact (Memory.wf_iff _).mpr ⟨risingKeys_filter p m.cells h1, fun e he => h2 e (List.mem_filter.mp he).1⟩

theorem Memory.wf_clear (m : Memory) (a n : Nat) (h : m.wf = true) : (m.clear a n).wf = true := Memory.wf_filter m _ h

theorem Memory.wf_copy (m : Memory) (src dst n : Nat) (h : m.wf = true) : (m.copy src dst n).wf = true :=
  Memory.wf_writeCells _ _ (Memory.wf_clear m dst n h)

/-- A list of writes leaves every byte alone that it does not name. -/
theorem Memory.read_writeCells_of_not_mem (l : List (Nat × BitVec 8)) (m : Memory) (b : Nat) (h : ∀ c ∈ l, c.1 ≠ b) :
    (m.writeCells l).read b = m.read b := by
  induction l generalizing m with
  | nil => rfl
  | cons c r ih =>
    have h1 : b ≠ c.1 := fun e => h c (by simp) e.symm
    simp only [Memory.writeCells]
    rw [ih _ fun x hx => h x (by simp [hx]), Memory.read_write_ne m c.1 b c.2 h1]

end Sys2Proof.Machine
end

