-- ==== Sys2Proof/Laws/State.lean ====
section
/-! SUPPORT. What the accessors of the state read after each update: one lemma per field and update. -/

namespace Sys2Proof.Machine

/-! ### setCore -/

@[simp] theorem setCore_now (s : State) (c : Nat) (v : Core) : (setCore s c v).now = s.now := rfl
@[simp] theorem setCore_fresh (s : State) (c : Nat) (v : Core) : (setCore s c v).fresh = s.fresh := rfl
@[simp] theorem setCore_focus (s : State) (c : Nat) (v : Core) : (setCore s c v).focus = s.focus := rfl
@[simp] theorem setCore_turns (s : State) (c : Nat) (v : Core) : (setCore s c v).turns = s.turns := rfl
@[simp] theorem setCore_latch (s : State) (c : Nat) (v : Core) : (setCore s c v).latch = s.latch := rfl
@[simp] theorem setCore_inputs (s : State) (c : Nat) (v : Core) : (setCore s c v).inputs = s.inputs := rfl
@[simp] theorem setCore_timers (s : State) (c : Nat) (v : Core) : (setCore s c v).timers = s.timers := rfl
@[simp] theorem setCore_delays (s : State) (c : Nat) (v : Core) : (setCore s c v).delays = s.delays := rfl
@[simp] theorem setCore_pieces (s : State) (c : Nat) (v : Core) : (setCore s c v).pieces = s.pieces := rfl
@[simp] theorem setCore_pairs (s : State) (c : Nat) (v : Core) : (setCore s c v).pairs = s.pairs := rfl
@[simp] theorem setCore_clusters (s : State) (c : Nat) (v : Core) : (setCore s c v).clusters = s.clusters := rfl
@[simp] theorem setCore_dies (s : State) (c : Nat) (v : Core) : (setCore s c v).dies = s.dies := rfl
@[simp] theorem setCore_cstacks (s : State) (c : Nat) (v : Core) : (setCore s c v).cstacks = s.cstacks := rfl
@[simp] theorem setCore_procs (s : State) (c : Nat) (v : Core) : (setCore s c v).procs = s.procs := rfl
@[simp] theorem setCore_mem (s : State) (c : Nat) (v : Core) : (setCore s c v).mem = s.mem := rfl
@[simp] theorem setCore_serai (s : State) (c : Nat) (v : Core) : (setCore s c v).serai = s.serai := rfl
@[simp] theorem setCore_host (s : State) (c : Nat) (v : Core) : (setCore s c v).host = s.host := rfl
@[simp] theorem setCore_sensors (s : State) (c : Nat) (v : Core) : (setCore s c v).sensors = s.sensors := rfl
@[simp] theorem setCore_pkg (s : State) (c : Nat) (v : Core) : (setCore s c v).pkg = s.pkg := rfl
@[simp] theorem setCore_links (s : State) (c : Nat) (v : Core) : (setCore s c v).links = s.links := rfl
@[simp] theorem setCore_off (s : State) (c : Nat) (v : Core) : (setCore s c v).off = s.off := rfl

@[simp] theorem getCore_setCore_self (s : State) (c : Nat) (v : Core) : getCore (setCore s c v) c = v := by
  simp [getCore, setCore]
theorem getCore_setCore_ne (s : State) (c d : Nat) (v : Core) (h : d ≠ c) : getCore (setCore s c v) d = getCore s d := by
  simp [getCore, setCore, Tab.get_set_ne _ _ _ _ _ h]
@[simp] theorem getPair_setCore (s : State) (c p : Nat) (v : Core) : getPair (setCore s c v) p = getPair s p := rfl
@[simp] theorem getCluster_setCore (s : State) (c p : Nat) (v : Core) : getCluster (setCore s c v) p = getCluster s p := rfl
@[simp] theorem getDie_setCore (s : State) (c p : Nat) (v : Core) : getDie (setCore s c v) p = getDie s p := rfl
@[simp] theorem getStack_setCore (s : State) (c p : Nat) (v : Core) : getStack (setCore s c v) p = getStack s p := rfl
@[simp] theorem getProc_setCore (s : State) (c p : Nat) (v : Core) : getProc (setCore s c v) p = getProc s p := rfl

/-! ### setCtx -/

@[simp] theorem setCtx_now (s : State) (c x : Nat) (k : Ctx) : (setCtx s c x k).now = s.now := rfl
@[simp] theorem setCtx_fresh (s : State) (c x : Nat) (k : Ctx) : (setCtx s c x k).fresh = s.fresh := rfl
@[simp] theorem setCtx_focus (s : State) (c x : Nat) (k : Ctx) : (setCtx s c x k).focus = s.focus := rfl
@[simp] theorem setCtx_latch (s : State) (c x : Nat) (k : Ctx) : (setCtx s c x k).latch = s.latch := rfl
@[simp] theorem setCtx_timers (s : State) (c x : Nat) (k : Ctx) : (setCtx s c x k).timers = s.timers := rfl
@[simp] theorem setCtx_delays (s : State) (c x : Nat) (k : Ctx) : (setCtx s c x k).delays = s.delays := rfl
@[simp] theorem setCtx_pieces (s : State) (c x : Nat) (k : Ctx) : (setCtx s c x k).pieces = s.pieces := rfl
@[simp] theorem setCtx_pairs (s : State) (c x : Nat) (k : Ctx) : (setCtx s c x k).pairs = s.pairs := rfl
@[simp] theorem setCtx_clusters (s : State) (c x : Nat) (k : Ctx) : (setCtx s c x k).clusters = s.clusters := rfl
@[simp] theorem setCtx_dies (s : State) (c x : Nat) (k : Ctx) : (setCtx s c x k).dies = s.dies := rfl
@[simp] theorem setCtx_procs (s : State) (c x : Nat) (k : Ctx) : (setCtx s c x k).procs = s.procs := rfl
@[simp] theorem setCtx_mem (s : State) (c x : Nat) (k : Ctx) : (setCtx s c x k).mem = s.mem := rfl
@[simp] theorem setCtx_serai (s : State) (c x : Nat) (k : Ctx) : (setCtx s c x k).serai = s.serai := rfl
@[simp] theorem setCtx_host (s : State) (c x : Nat) (k : Ctx) : (setCtx s c x k).host = s.host := rfl
@[simp] theorem setCtx_pkg (s : State) (c x : Nat) (k : Ctx) : (setCtx s c x k).pkg = s.pkg := rfl

@[simp] theorem getCtx_setCtx_self (s : State) (c x : Nat) (k : Ctx) : getCtx (setCtx s c x k) c x = k := by
  simp [getCtx, setCtx]
theorem getCtx_setCtx_ne (s : State) (c x d y : Nat) (k : Ctx) (h : d ≠ c ∨ y ≠ x) : getCtx (setCtx s c x k) d y = getCtx s d y := by
  by_cases hd : d = c
  · subst hd
    have hy : y ≠ x := by rcases h with h | h; exact absurd rfl h; exact h
    simp [getCtx, setCtx, Tab.get_set_ne _ _ _ _ _ hy]
  · simp [getCtx, setCtx, getCore_setCore_ne _ _ _ _ hd]
theorem getCore_setCtx_ne (s : State) (c x d : Nat) (k : Ctx) (h : d ≠ c) : getCore (setCtx s c x k) d = getCore s d := by
  simp [setCtx, getCore_setCore_ne _ _ _ _ h]
@[simp] theorem getCore_setCtx_self (s : State) (c x : Nat) (k : Ctx) :
    getCore (setCtx s c x k) c = { getCore s c with ctxs := (getCore s c).ctxs.set x k } := by simp [setCtx]
@[simp] theorem getPair_setCtx (s : State) (c x p : Nat) (k : Ctx) : getPair (setCtx s c x k) p = getPair s p := rfl
@[simp] theorem getDie_setCtx (s : State) (c x p : Nat) (k : Ctx) : getDie (setCtx s c x k) p = getDie s p := rfl
@[simp] theorem getProc_setCtx (s : State) (c x p : Nat) (k : Ctx) : getProc (setCtx s c x k) p = getProc s p := rfl

/-! ### setMe -/

@[simp] theorem curX_setMe (s : State) (k : Ctx) : curX (setMe s k) = curX s := by simp [curX, setMe]
@[simp] theorem me_setMe (s : State) (k : Ctx) : me (setMe s k) = k := by
  simp only [me, curX_setMe]; simp [setMe]
@[simp] theorem setMe_focus (s : State) (k : Ctx) : (setMe s k).focus = s.focus := rfl
@[simp] theorem setMe_now (s : State) (k : Ctx) : (setMe s k).now = s.now := rfl
@[simp] theorem setMe_latch (s : State) (k : Ctx) : (setMe s k).latch = s.latch := rfl
@[simp] theorem setMe_mem (s : State) (k : Ctx) : (setMe s k).mem = s.mem := rfl
@[simp] theorem setMe_dies (s : State) (k : Ctx) : (setMe s k).dies = s.dies := rfl
@[simp] theorem setMe_clusters (s : State) (k : Ctx) : (setMe s k).clusters = s.clusters := rfl
@[simp] theorem setMe_pairs (s : State) (k : Ctx) : (setMe s k).pairs = s.pairs := rfl
@[simp] theorem setMe_serai (s : State) (k : Ctx) : (setMe s k).serai = s.serai := rfl
@[simp] theorem setMe_fresh (s : State) (k : Ctx) : (setMe s k).fresh = s.fresh := rfl
theorem getCore_setMe_ne (s : State) (c : Nat) (k : Ctx) (h : c ≠ s.focus) : getCore (setMe s k) c = getCore s c :=
  getCore_setCtx_ne _ _ _ _ _ h
theorem getCtx_setMe_ne (s : State) (x : Nat) (k : Ctx) (h : x ≠ curX s) : getCtx (setMe s k) s.focus x = getCtx s s.focus x :=
  getCtx_setCtx_ne _ _ _ _ _ _ (Or.inr h)
@[simp] theorem myCore_setMe (s : State) (k : Ctx) : myCore (setMe s k) = { myCore s with ctxs := (myCore s).ctxs.set (curX s) k } := by
  simp [myCore, setMe]

@[simp] theorem setCore_setCore (s : State) (c : Nat) (k l : Core) : setCore (setCore s c k) c l = setCore s c l := by
  simp [setCore]

theorem setCtx_setCtx (s : State) (c x : Nat) (k l : Ctx) : setCtx (setCtx s c x k) c x l = setCtx s c x l := by
  unfold setCtx
  rw [setCore_setCore]
  congr 1
  simp only [getCore_setCore_self, Tab.set_set]

@[simp] theorem setMe_setMe (s : State) (k l : Ctx) : setMe (setMe s k) l = setMe s l := by
  show setCtx (setMe s k) s.focus (curX (setMe s k)) l = _
  rw [curX_setMe]; exact setCtx_setCtx s _ _ k l

/-! ### setMyCore -/

@[simp] theorem myCore_setMyCore (s : State) (v : Core) : myCore (setMyCore s v) = v := by simp [myCore, setMyCore]
@[simp] theorem setMyCore_focus (s : State) (v : Core) : (setMyCore s v).focus = s.focus := rfl
@[simp] theorem setMyCore_latch (s : State) (v : Core) : (setMyCore s v).latch = s.latch := rfl
@[simp] theorem setMyCore_now (s : State) (v : Core) : (setMyCore s v).now = s.now := rfl
@[simp] theorem setMyCore_mem (s : State) (v : Core) : (setMyCore s v).mem = s.mem := rfl
theorem getCore_setMyCore_ne (s : State) (c : Nat) (v : Core) (h : c ≠ s.focus) : getCore (setMyCore s v) c = getCore s c :=
  getCore_setCore_ne _ _ _ _ h

/-! ### Pairs, clusters, dies, stacks, processes -/

@[simp] theorem getPair_setPair_self (s : State) (p : Nat) (v : Pair) : getPair (setPair s p v) p = v := by simp [getPair, setPair]
theorem getPair_setPair_ne (s : State) (p q : Nat) (v : Pair) (h : q ≠ p) : getPair (setPair s p v) q = getPair s q := by
  simp [getPair, setPair, Tab.get_set_ne _ _ _ _ _ h]
@[simp] theorem getCore_setPair (s : State) (p c : Nat) (v : Pair) : getCore (setPair s p v) c = getCore s c := rfl
@[simp] theorem getCtx_setPair (s : State) (p c x : Nat) (v : Pair) : getCtx (setPair s p v) c x = getCtx s c x := rfl
@[simp] theorem getCluster_setCluster_self (s : State) (p : Nat) (v : Cluster) : getCluster (setCluster s p v) p = v := by
  simp [getCluster, setCluster]
theorem getCluster_setCluster_ne (s : State) (p q : Nat) (v : Cluster) (h : q ≠ p) : getCluster (setCluster s p v) q = getCluster s q := by
  simp [getCluster, setCluster, Tab.get_set_ne _ _ _ _ _ h]
@[simp] theorem getDie_setDie_self (s : State) (p : Nat) (v : Die) : getDie (setDie s p v) p = v := by simp [getDie, setDie]
theorem getDie_setDie_ne (s : State) (p q : Nat) (v : Die) (h : q ≠ p) : getDie (setDie s p v) q = getDie s q := by
  simp [getDie, setDie, Tab.get_set_ne _ _ _ _ _ h]
@[simp] theorem getStack_setStack_self (s : State) (p : Nat) (v : Stack) : getStack (setStack s p v) p = v := by
  simp [getStack, setStack]
theorem getStack_setStack_ne (s : State) (p q : Nat) (v : Stack) (h : q ≠ p) : getStack (setStack s p v) q = getStack s q := by
  simp [getStack, setStack, Tab.get_set_ne _ _ _ _ _ h]
@[simp] theorem getProc_setProc_self (s : State) (p : Nat) (v : Proc) : getProc (setProc s p v) p = v := by simp [getProc, setProc]
theorem getProc_setProc_ne (s : State) (p q : Nat) (v : Proc) (h : q ≠ p) : getProc (setProc s p v) q = getProc s q := by
  simp [getProc, setProc, Tab.get_set_ne _ _ _ _ _ h]

/-! ### Links (R337) -/

@[simp] theorem getLink_setLink_self (s : State) (a b : Nat) (l : Link) : getLink (setLink s a b l) a b = l := by simp [getLink, setLink]
theorem getLink_setLink_ne (s : State) (a b c d : Nat) (l : Link) (h : pairKey c d ≠ pairKey a b) :
    getLink (setLink s a b l) c d = getLink s c d := by
  simp [getLink, setLink, Tab.get_set_ne _ _ _ _ _ h]
@[simp] theorem setLink_now (s : State) (a b : Nat) (l : Link) : (setLink s a b l).now = s.now := rfl
@[simp] theorem setLink_cores (s : State) (a b : Nat) (l : Link) : (setLink s a b l).cores = s.cores := rfl
@[simp] theorem setLink_pairs (s : State) (a b : Nat) (l : Link) : (setLink s a b l).pairs = s.pairs := rfl
@[simp] theorem setLink_clusters (s : State) (a b : Nat) (l : Link) : (setLink s a b l).clusters = s.clusters := rfl
@[simp] theorem setLink_dies (s : State) (a b : Nat) (l : Link) : (setLink s a b l).dies = s.dies := rfl
@[simp] theorem setLink_procs (s : State) (a b : Nat) (l : Link) : (setLink s a b l).procs = s.procs := rfl
@[simp] theorem setLink_mem (s : State) (a b : Nat) (l : Link) : (setLink s a b l).mem = s.mem := rfl
@[simp] theorem setLink_serai (s : State) (a b : Nat) (l : Link) : (setLink s a b l).serai = s.serai := rfl
@[simp] theorem setLink_host (s : State) (a b : Nat) (l : Link) : (setLink s a b l).host = s.host := rfl
@[simp] theorem setLink_timers (s : State) (a b : Nat) (l : Link) : (setLink s a b l).timers = s.timers := rfl
@[simp] theorem setLink_delays (s : State) (a b : Nat) (l : Link) : (setLink s a b l).delays = s.delays := rfl
@[simp] theorem setLink_pieces (s : State) (a b : Nat) (l : Link) : (setLink s a b l).pieces = s.pieces := rfl
@[simp] theorem setLink_latch (s : State) (a b : Nat) (l : Link) : (setLink s a b l).latch = s.latch := rfl
@[simp] theorem setLink_focus (s : State) (a b : Nat) (l : Link) : (setLink s a b l).focus = s.focus := rfl
@[simp] theorem getCore_setLink (s : State) (a b c : Nat) (l : Link) : getCore (setLink s a b l) c = getCore s c := rfl
@[simp] theorem getCtx_setLink (s : State) (a b c x : Nat) (l : Link) : getCtx (setLink s a b l) c x = getCtx s c x := rfl
@[simp] theorem getPair_setLink (s : State) (a b p : Nat) (l : Link) : getPair (setLink s a b l) p = getPair s p := rfl
@[simp] theorem getDie_setLink (s : State) (a b d : Nat) (l : Link) : getDie (setLink s a b l) d = getDie s d := rfl

end Sys2Proof.Machine
end

