-- ==== Sys2Proof/Laws/Issue.lean ====
section
/-! SUPPORT. What the issue of a slot does, said once: how a slot runs, what it pays, and what reading a byte depends on. -/

namespace Sys2Proof.Machine

/-- A slot that issues performs, pays and leaves the issue buffer. -/
theorem runSlot_of_issues (i : Instr) (f : State → State) (s : State) (h : Issues s i) : runSlot i f s = .next (issueSlot i f s) := by
  unfold runSlot
  rcases h with h | ⟨h1, h2, h3, h4⟩
  · simp [h]
  · split
    · rfl
    · simp [h1, h2, h3, Nat.not_lt.mpr h4]

/-- A slot always answers a next state. -/
theorem runSlot_next (i : Instr) (f : State → State) (s : State) : ∃ t, runSlot i f s = .next t := by
  unfold runSlot
  split
  · exact ⟨_, rfl⟩
  · split
    · exact ⟨_, rfl⟩
    · split
      · exact ⟨_, rfl⟩
      · split <;> exact ⟨_, rfl⟩

theorem issueSlot_of_lanes (i : Instr) (f : State → State) (s : State) (h : lanesOf s i ≠ 0) :
    issueSlot i f s = endSlot (charge (f s) i) := by
  unfold issueSlot
  rw [if_neg h]

theorem issueSlot_of_no_lane (i : Instr) (f : State → State) (s : State) (h : lanesOf s i = 0) :
    issueSlot i f s = endSlot (charge s i) := by
  unfold issueSlot
  rw [if_pos h]

/-- The weight of a slot depends on the energy profiles, the grants and the master cycle alone (R351). -/
theorem slotWeight_congr (s t : State) (c : Nat) (i : Instr) (h1 : t.dies = s.dies) (h2 : t.clusters = s.clusters)
    (h3 : t.now = s.now) : slotWeight t c i = slotWeight s c i := by
  unfold slotWeight profileOf getDie getCluster
  rw [h1, h2, h3]

/-- Where a byte stands depends on memory, the process tables, the tasks and the package's number. -/
theorem resolve_congr (s t : State) (a : Nat) (h1 : t.mem = s.mem) (h2 : t.procs = s.procs) (h3 : t.serai.tasks = s.serai.tasks)
    (h4 : t.pkg = s.pkg) : resolve t a = resolve s a := by
  simp [resolve, shadowFrame, publishedFrame, getProc, entryAt, frameOf, pkgNo, h1, h2, h3, h4]

/-- A read depends on memory, the caches, the process tables, the tasks and the package's number. -/
theorem readAt_congr (s t : State) (c sc a : Nat) (h1 : t.mem = s.mem) (h2 : t.procs = s.procs) (h3 : t.serai.tasks = s.serai.tasks)
    (h4 : t.pkg = s.pkg) (h5 : t.dies = s.dies) (h6 : (getCore t c).l1 = (getCore s c).l1) : readAt t c sc a = readAt s c sc a := by
  simp only [readAt, resolve_congr s t a h1 h2 h3 h4]
  cases resolve s a with
  | none => rfl
  | some p => simp [readPlace, readL1, readL2, getDie, h1, h5, h6]

/-- The state that a slot leaves, from the state `u` its own effect leaves: it pays, and the issue buffer moves on. -/
theorem issued_of (b u : State) (i : Instr) (hf : u.focus = b.focus)
    (hx : ∀ x, x ≠ curX b → getCtx u b.focus x = getCtx b b.focus x)
    (he : (myCore u).ebal = (myCore b).ebal) (hn : (myCore u).floorcnt = (myCore b).floorcnt)
    (hd : ∀ c, c ≠ b.focus → getCore u c = getCore b c) (hl : u.latch = b.latch)
    (hw : slotWeight u b.focus i = slotWeight b b.focus i) (hr : ∀ c sc a, readAt u c sc a = readAt b c sc a) :
    Issued b (endSlot (charge u i)) i (me u) (myCore u) u := by
  have hm : ∀ c, getCore (endSlot (charge u i)) c = getCore (charge u i) c := fun _ => rfl
  have hself : myCore (charge u i) = { myCore u with
      ebal := (myCore u).ebal - slotWeight u u.focus i
      floorcnt := if belowFloor i then (myCore u).floorcnt + 1 else (myCore u).floorcnt } := by simp [charge]
  have hcur : curX (charge u i) = curX u := by simp only [curX]; exact (congrArg (fun k : Core => k.cur.val) hself :)
  constructor
  · show getCtx (charge u i) u.focus (curX (charge u i)) = me u
    rw [hcur]; simp only [getCtx, me]
    exact (congrArg (fun k : Core => k.ctxs.get Ctx.reset (curX u)) hself :)
  · intro x hx'
    rw [← hx x hx', ← hf]
    exact (congrArg (fun k : Core => k.ctxs.get Ctx.reset x) hself :)
  · show coreRest (myCore (charge u i)) = _
    rw [hself]; rfl
  · show (myCore (charge u i)).ebal = _
    rw [hself]; simp only [he, hf, hw]
  · show (myCore (charge u i)).floorcnt = _
    rw [hself]; simp only [hn]
  · intro c hc'
    rw [← hd c hc']
    show getCore (charge u i) c = _
    simp [charge, getCore_setMyCore_ne _ _ _ (hf ▸ hc')]
  · rfl
  · show nextSlot (charge u i).latch = _
    simp [charge, hl]
  · intro c sc a
    rw [← hr c sc a]
    apply readAt_congr <;> try rfl
    by_cases h : c = u.focus
    · subst h; exact (congrArg Core.l1 hself :)
    · show (getCore (charge u i) c).l1 = _
      simp [charge, getCore_setMyCore_ne _ _ _ h]

/-- A slot whose own effect is on the current context. -/
theorem issuedCtx_setMe (b : State) (i : Instr) (k : Ctx) : IssuedCtx b (endSlot (charge (setMe b k) i)) i k := by
  have h := issued_of b (setMe b k) i rfl (fun x hx => getCtx_setMe_ne b x k hx) (by simp) (by simp)
    (fun c hc => getCore_setMe_ne b c k hc) rfl (slotWeight_congr b _ _ i rfl rfl rfl)
    (fun c sc a => readAt_congr b _ c sc a rfl rfl rfl rfl rfl (by
      by_cases hc : c = b.focus
      · subst hc; exact (congrArg Core.l1 (myCore_setMe b k) :)
      · rw [getCore_setMe_ne b c k hc]))
  rw [me_setMe] at h
  exact { h with core := by rw [h.core, myCore_setMe]; rfl, package := h.package.trans rfl }

/-- A slot that changes nothing of its own. -/
theorem issuedCtx_same (b : State) (i : Instr) : IssuedCtx b (endSlot (charge b i)) i (me b) :=
  issued_of b b i rfl (fun _ _ => rfl) rfl rfl (fun _ _ => rfl) rfl rfl (fun _ _ _ => rfl)

/-! ### Results -/

theorem addFlight_empty (s : State) (d : Dest) (v : Vec) (w : Nat) : addFlight s d v 0 w 0 false = s := by simp [addFlight]

theorem addFlight_some (s : State) (d : Dest) (v : Vec) (m : Pred) (w : Nat) (f : BitVec 16) (h : ¬(m = 0 ∧ f = 0)) :
    addFlight s d v m w f false = setMe s (withFlight s [inWindow s d v m w f]) := by
  simp only [addFlight]
  rw [if_neg (by intro hc; exact h ⟨hc.1, hc.2.1⟩)]
  rfl

theorem withFlight_nil (s : State) : withFlight s [] = me s := by simp [withFlight]

/-- A slot whose own effect is a change of the current context. -/
theorem runSlot_ctx (i : Instr) (f : State → State) (s : State) (k : Ctx) (h : Issues s i)
    (hf : lanesOf s i ≠ 0 → f s = setMe s k) :
    ∃ t, runSlot i f s = .next t ∧ IssuedCtx s t i (if lanesOf s i = 0 then me s else k) := by
  refine ⟨_, runSlot_of_issues i f s h, ?_⟩
  by_cases hl : lanesOf s i = 0
  · rw [issueSlot_of_no_lane i f s hl, if_pos hl]; exact issuedCtx_same s i
  · rw [issueSlot_of_lanes i f s hl, if_neg hl, hf hl]; exact issuedCtx_setMe s i k

/-- A slot whose own effect is one result. -/
theorem runSlot_flight (i : Instr) (f : State → State) (s : State) (d : Dest) (v : Vec) (m : Pred) (w : Nat) (fl : BitVec 16)
    (h : Issues s i) (hf : lanesOf s i ≠ 0 → f s = addFlight s d v m w fl false) :
    ∃ t, runSlot i f s = .next t ∧
      IssuedCtx s t i (withFlight s (if lanesOf s i = 0 ∨ (m = 0 ∧ fl = 0) then [] else [inWindow s d v m w fl])) := by
  by_cases hm : m = 0 ∧ fl = 0
  · refine ⟨_, runSlot_of_issues i f s h, ?_⟩
    rw [if_pos (Or.inr hm), withFlight_nil]
    by_cases hl : lanesOf s i = 0
    · rw [issueSlot_of_no_lane i f s hl]; exact issuedCtx_same s i
    · rw [issueSlot_of_lanes i f s hl, hf hl, hm.1, hm.2, addFlight_empty]; exact issuedCtx_same s i
  · obtain ⟨t, h1, h2⟩ := runSlot_ctx i f s (withFlight s [inWindow s d v m w fl]) h (fun hl => by
      rw [hf hl, addFlight_some s d v m w fl hm])
    refine ⟨t, h1, ?_⟩
    by_cases hl : lanesOf s i = 0
    · rw [if_pos hl] at h2; rw [if_pos (Or.inl hl), withFlight_nil]; exact h2
    · rw [if_neg hl] at h2; rw [if_neg (by tauto)]; exact h2

/-- A slot that performs from a base state, and then changes the current context. -/
theorem runSlot_from (i : Instr) (f : State → State) (s b : State) (k : Ctx) (h : Issues s i) (hl : lanesOf s i ≠ 0)
    (hf : f s = setMe b k) : ∃ t, runSlot i f s = .next t ∧ IssuedCtx b t i k := by
  refine ⟨_, runSlot_of_issues i f s h, ?_⟩
  rw [issueSlot_of_lanes i f s hl, hf]; exact issuedCtx_setMe b i k

/-- The same, with a row that falls due later. -/
theorem runSlot_later (i : Instr) (f : State → State) (s b : State) (k : Ctx) (d : Due) (h : Issues s i) (hl : lanesOf s i ≠ 0)
    (hf : f s = later (setMe b k) d) : ∃ t, runSlot i f s = .next t ∧ Issued b t i k (myCore b) (later b d) := by
  refine ⟨_, runSlot_of_issues i f s h, ?_⟩
  rw [issueSlot_of_lanes i f s hl, hf]
  have a := issuedCtx_setMe b i k
  exact ⟨a.ctx, a.others, a.core, a.energy, a.floorcnt, a.cores, rfl, a.buffer, a.bytes⟩

end Sys2Proof.Machine
end

