-- ==== Sys2Proof/Tests/Slice0.lean ====
section
/-! SUPPORT. Small tests. -/

namespace Sys2Proof.Tests
open Sys2Proof Sys2Proof.Machine

set_option Elab.async false

/-- Each word decodes to the instruction beside it. -/
def readsAs (l : List (Nat × Instr)) : Bool := l.all fun p => decodeTableWord 32 p.1 == some p.2

theorem test_decode_scalar_0 : readsAs [
    (0x002C8C85, .add ⟨2, true, 9⟩ 3 4 5), (0x006C8C85, .sub ⟨2, true, 9⟩ 3 4 5), (0x00AC8C85, .addi ⟨2, true, 9⟩ 3 4 (.b 5)),
    (0x00EC8C85, .mul ⟨2, true, 9⟩ 3 4 5), (0x012C8C85, .mulh ⟨2, true, 9⟩ 3 4 5), (0x016C8C85, .mulhn ⟨2, true, 9⟩ 3 4 5),
    (0x01AC8C85, .div ⟨2, true, 9⟩ 3 4 5), (0x01EC8C85, .divn ⟨2, true, 9⟩ 3 4 5), (0x022C8C85, .rem ⟨2, true, 9⟩ 3 4 5),
    (0x026C8C85, .remn ⟨2, true, 9⟩ 3 4 5), (0x02AC8C85, .and ⟨2, true, 9⟩ 3 4 5), (0x02EC8C85, .or ⟨2, true, 9⟩ 3 4 5),
    (0x032C8C85, .xor ⟨2, true, 9⟩ 3 4 5), (0x036C8C85, .andn ⟨2, true, 9⟩ 3 4 5), (0x03AC8C85, .andi ⟨2, true, 9⟩ 3 4 (.b 5)),
    (0x03EC8C85, .ori ⟨2, true, 9⟩ 3 4 (.b 5)), (0x042C8C85, .xori ⟨2, true, 9⟩ 3 4 (.b 5)), (0x046C8C85, .shl ⟨2, true, 9⟩ 3 4 5),
    (0x04AC8C85, .shr ⟨2, true, 9⟩ 3 4 5), (0x04EC8C85, .sha ⟨2, true, 9⟩ 3 4 5), (0x052C8C85, .shli ⟨2, true, 9⟩ 3 4 (.b 5)),
    (0x056C8C85, .shri ⟨2, true, 9⟩ 3 4 (.b 5)), (0x05AC8C85, .shai ⟨2, true, 9⟩ 3 4 (.b 5)), (0x05EC8C85, .rot ⟨2, true, 9⟩ 3 4 5),
    (0x062C8C85, .min ⟨2, true, 9⟩ 3 4 5), (0x066C8C85, .max ⟨2, true, 9⟩ 3 4 5), (0x06AC8C85, .minn ⟨2, true, 9⟩ 3 4 5),
    (0x06EC8C85, .maxn ⟨2, true, 9⟩ 3 4 5), (0x072C8C80, .abs ⟨2, true, 9⟩ 3 4), (0x076C8C80, .clz ⟨2, true, 9⟩ 3 4)] = true := by decide

theorem test_decode_scalar_1 : readsAs [
    (0x07AC8C80, .ctz ⟨2, true, 9⟩ 3 4), (0x07EC8C80, .popc ⟨2, true, 9⟩ 3 4), (0x082C8C85, .bext ⟨2, true, 9⟩ 3 4 (.b 5)),
    (0x086C8C85, .bins ⟨2, true, 9⟩ 3 4 (.b 5)), (0x08AC8C85, .sext ⟨2, true, 9⟩ 3 4 (.b 5)),
    (0x08EC8C85, .zext ⟨2, true, 9⟩ 3 4 (.b 5)), (0x092C8C85, .sel ⟨2, true, 9⟩ 3 4 5), (0x096C8C05, .movi ⟨2, true, 9⟩ 3 (.b 5)),
    (0x09AC8C85, .cmpeq ⟨2, true, 9⟩ 3 4 5), (0x09EC8C85, .cmpne ⟨2, true, 9⟩ 3 4 5), (0x0A2C8C85, .cmplt ⟨2, true, 9⟩ 3 4 5),
    (0x0A6C8C85, .cmple ⟨2, true, 9⟩ 3 4 5), (0x0AAC8C85, .cmpltn ⟨2, true, 9⟩ 3 4 5), (0x0AEC8C85, .cmplen ⟨2, true, 9⟩ 3 4 5),
    (0x0B2C8C85, .cmpeqi ⟨2, true, 9⟩ 3 4 (.b 5)), (0x0B6C8C85, .cmplti ⟨2, true, 9⟩ 3 4 (.b 5)),
    (0x0BAC8C85, .pand ⟨2, true, 9⟩ 3 4 5), (0x0BEC8C85, .por ⟨2, true, 9⟩ 3 4 5), (0x0C2C8C85, .pxor ⟨2, true, 9⟩ 3 4 5),
    (0x0C6C8C85, .pandn ⟨2, true, 9⟩ 3 4 5), (0x0CAC8C80, .pany ⟨2, true, 9⟩ 3 4), (0x0CEC8C80, .pall ⟨2, true, 9⟩ 3 4),
    (0x0D2C8C80, .pset ⟨2, true, 9⟩ 3 4), (0x0D6C8C80, .pget ⟨2, true, 9⟩ 3 4), (0x0DAC8C80, .pcnt ⟨2, true, 9⟩ 3 4)] = true := by decide

theorem test_decode_memory_and_branch_0 : readsAs [
    (0x10170C85, .ldb ⟨5, 6⟩ 3 4 (.reg 5)), (0x10570C85, .ldbn ⟨5, 6⟩ 3 4 (.reg 5)), (0x10970C85, .ldh ⟨5, 6⟩ 3 4 (.reg 5)),
    (0x10D70C85, .ldhn ⟨5, 6⟩ 3 4 (.reg 5)), (0x11170C85, .ldw ⟨5, 6⟩ 3 4 (.reg 5)), (0x11570C85, .ldwn ⟨5, 6⟩ 3 4 (.reg 5)),
    (0x11970C85, .ldd ⟨5, 6⟩ 3 4 (.reg 5)), (0x11D70C85, .stb ⟨5, 6⟩ 3 4 (.reg 5)), (0x12170C85, .sth ⟨5, 6⟩ 3 4 (.reg 5)),
    (0x12570C85, .stw ⟨5, 6⟩ 3 4 (.reg 5)), (0x12970C85, .std ⟨5, 6⟩ 3 4 (.reg 5)), (0x12D70C85, .lda ⟨5, 6⟩ 3 4 (.reg 5)),
    (0x13170C85, .stl ⟨5, 6⟩ 3 4 (.reg 5)), (0x13570C85, .aadd ⟨5, 6⟩ 3 4 (.reg 5)), (0x13970C85, .aand ⟨5, 6⟩ 3 4 (.reg 5)),
    (0x13D70C85, .aor ⟨5, 6⟩ 3 4 (.reg 5)), (0x14170C85, .axor ⟨5, 6⟩ 3 4 (.reg 5)), (0x14570C85, .amin ⟨5, 6⟩ 3 4 (.reg 5)),
    (0x14970C85, .amax ⟨5, 6⟩ 3 4 (.reg 5)), (0x14D70C85, .aswp ⟨5, 6⟩ 3 4 (.reg 5)), (0x15171885, .acas ⟨5, 6⟩ 3 4 (.reg 5)),
    (0x15430005, .fnc 6 (.b 5)), (0x15830885, .pfl 6 2 4 (.reg 5)), (0x15EC9234, .br ⟨2, true, 9⟩ 4660),
    (0x162C9234, .brl ⟨2, true, 9⟩ 4660), (0x166C8080, .jr ⟨2, true, 9⟩ 4), (0x16AC8080, .jrl ⟨2, true, 9⟩ 4),
    (0x16EC8C05, .loop ⟨2, true, 9⟩ 3 (.b 5))] = true := by decide

theorem test_decode_vector_0 : readsAs [
    (0x202C8C80, .vmov ⟨2, true, 9⟩ 3 4), (0x206C8C85, .vadd ⟨2, true, 9⟩ 3 4 5), (0x20AC8C85, .vsub ⟨2, true, 9⟩ 3 4 5),
    (0x20EC8C85, .vadds ⟨2, true, 9⟩ 3 4 5), (0x212C8C85, .vsubs ⟨2, true, 9⟩ 3 4 5), (0x216C8C85, .vmul ⟨2, true, 9⟩ 3 4 5),
    (0x21AC8C85, .vmulh ⟨2, true, 9⟩ 3 4 5), (0x21EC8C85, .vmad ⟨2, true, 9⟩ 3 4 5), (0x222C8C85, .vand ⟨2, true, 9⟩ 3 4 5),
    (0x226C8C85, .vor ⟨2, true, 9⟩ 3 4 5), (0x22AC8C85, .vxor ⟨2, true, 9⟩ 3 4 5), (0x22EC8C85, .vandn ⟨2, true, 9⟩ 3 4 5),
    (0x232C8C85, .vshl ⟨2, true, 9⟩ 3 4 5), (0x236C8C85, .vshr ⟨2, true, 9⟩ 3 4 5), (0x23AC8C85, .vsha ⟨2, true, 9⟩ 3 4 5),
    (0x23EC8C85, .vmin ⟨2, true, 9⟩ 3 4 5), (0x242C8C85, .vmax ⟨2, true, 9⟩ 3 4 5), (0x246C8C85, .vminn ⟨2, true, 9⟩ 3 4 5),
    (0x24AC8C85, .vmaxn ⟨2, true, 9⟩ 3 4 5), (0x24EC8C80, .vabs ⟨2, true, 9⟩ 3 4), (0x252C8C85, .vcmpeq ⟨2, true, 9⟩ 3 4 5),
    (0x256C8C85, .vcmplt ⟨2, true, 9⟩ 3 4 5), (0x25AC8C85, .vcmple ⟨2, true, 9⟩ 3 4 5), (0x25EC8C85, .vcmpltn ⟨2, true, 9⟩ 3 4 5),
    (0x262C8C85, .vsel ⟨2, true, 9⟩ 3 4 5), (0x266C8C85, .vfadd ⟨2, true, 9⟩ 3 4 5), (0x26AC8C85, .vfsub ⟨2, true, 9⟩ 3 4 5),
    (0x26EC8C85, .vfmul ⟨2, true, 9⟩ 3 4 5), (0x272C8C85, .vfma ⟨2, true, 9⟩ 3 4 5), (0x276C8C85, .vfnma ⟨2, true, 9⟩ 3 4 5)] = true := by decide

theorem test_decode_vector_1 : readsAs [
    (0x27AC8C85, .vfdiv ⟨2, true, 9⟩ 3 4 5), (0x27EC8C80, .vfsqrt ⟨2, true, 9⟩ 3 4), (0x282C8C85, .vfmin ⟨2, true, 9⟩ 3 4 5),
    (0x286C8C85, .vfmax ⟨2, true, 9⟩ 3 4 5), (0x28AC8C85, .vfcmpeq ⟨2, true, 9⟩ 3 4 5), (0x28EC8C85, .vfcmplt ⟨2, true, 9⟩ 3 4 5),
    (0x292C8C85, .vfcmple ⟨2, true, 9⟩ 3 4 5), (0x296C8C85, .vdadd ⟨2, true, 9⟩ 3 4 5), (0x29AC8C85, .vdmul ⟨2, true, 9⟩ 3 4 5),
    (0x29EC8C85, .vdfma ⟨2, true, 9⟩ 3 4 5), (0x2A2C8C85, .vddiv ⟨2, true, 9⟩ 3 4 5), (0x2A6C8C85, .vdcmplt ⟨2, true, 9⟩ 3 4 5),
    (0x2AAC8C82, .vfcvt ⟨2, true, 9⟩ 3 4 2), (0x2AEC8C80, .vftoi ⟨2, true, 9⟩ 3 4), (0x2B2C8C80, .vitof ⟨2, true, 9⟩ 3 4),
    (0x2B6C8C82, .vqnt ⟨2, true, 9⟩ 3 4 2), (0x2BAC8C82, .vbexp ⟨2, true, 9⟩ 3 4 2), (0x2BEC8C82, .vpack ⟨2, true, 9⟩ 3 4 2),
    (0x2C2C8C82, .vunpk ⟨2, true, 9⟩ 3 4 2), (0x2C6C8C80, .vlgenc ⟨2, true, 9⟩ 3 4), (0x2CAC8C80, .vlgdec ⟨2, true, 9⟩ 3 4),
    (0x2CEC8C80, .vradd ⟨2, true, 9⟩ 3 4), (0x2D2C8C80, .vrmax ⟨2, true, 9⟩ 3 4), (0x2D6C8C80, .vrmin ⟨2, true, 9⟩ 3 4),
    (0x2DAC8C85, .vperm ⟨2, true, 9⟩ 3 4 5), (0x2DEC8C85, .vrotl ⟨2, true, 9⟩ 3 4 5), (0x2E2C8C80, .viota ⟨2, true, 9⟩ 3 4),
    (0x2E6C8C80, .vnrm ⟨2, true, 9⟩ 3 4)] = true := by decide

theorem test_decode_vector_memory_0 : readsAs [
    (0x30170C85, .vld ⟨5, 6⟩ 3 4 (.reg 5)), (0x30570C85, .vldx8 ⟨5, 6⟩ 3 4 (.reg 5)), (0x30970C85, .vldx16 ⟨5, 6⟩ 3 4 (.reg 5)),
    (0x30D70C85, .vst ⟨5, 6⟩ 3 4 (.reg 5)), (0x31170C85, .vstn8 ⟨5, 6⟩ 3 4 (.reg 5)), (0x31570C85, .vstn16 ⟨5, 6⟩ 3 4 (.reg 5)),
    (0x31830C85, .vlds 6 3 4 (.reg 5)), (0x31C30C85, .vsts 6 3 4 (.reg 5)), (0x32170C85, .vgth ⟨5, 6⟩ 3 4 5),
    (0x32570C85, .vsct ⟨5, 6⟩ 3 4 5), (0x32970C85, .vlda ⟨5, 6⟩ 3 4 (.reg 5)), (0x32D70C85, .vstl ⟨5, 6⟩ 3 4 (.reg 5)),
    (0x33170C85, .vaadd ⟨5, 6⟩ 3 4 (.reg 5)), (0x33570C85, .vamin ⟨5, 6⟩ 3 4 (.reg 5)), (0x33970C85, .vamax ⟨5, 6⟩ 3 4 (.reg 5)),
    (0x33D70C85, .vaswp ⟨5, 6⟩ 3 4 (.reg 5))] = true := by decide

theorem test_decode_matrix_0 : readsAs [
    (0x402C8C80, .tcfg ⟨2, true, 9⟩ 3 4), (0x406C8C80, .tstat ⟨2, true, 9⟩ 3 4), (0x40AC8C00, .tfree ⟨2, true, 9⟩ 3),
    (0x40E77542, .mma 2 3 5 6 42 true false), (0x41277542, .mmat 2 3 5 6 42 true false), (0x416C8C05, .zclr ⟨2, true, 9⟩ 3 (.b 5)),
    (0x41A77540, .zst 2 3 5 6 42), (0x41E74540, .zld 2 3 5 42), (0x422C8C80, .zadd ⟨2, true, 9⟩ 3 4),
    (0x426C8C00, .zfree ⟨2, true, 9⟩ 3), (0x42AC8480, .sqld ⟨2, true, 9⟩ true 4), (0x42EC8400, .sqclr ⟨2, true, 9⟩ true),
    (0x432C8C85, .cpin ⟨2, true, 9⟩ 3 4 5), (0x436C8C85, .cpout ⟨2, true, 9⟩ 3 4 5), (0x43AC8C85, .cpcl ⟨2, true, 9⟩ 3 4 5),
    (0x43EC8C85, .cpmc ⟨2, true, 9⟩ 3 4 5), (0x442C8C8A, .cpenc ⟨2, true, 9⟩ 3 4 5), (0x446C8C85, .cpsc ⟨2, true, 9⟩ 3 4 5),
    (0x44AC8C00, .trel ⟨2, true, 9⟩ 3), (0x44EC8C00, .arrwTile ⟨2, true, 9⟩ 3), (0x44ECAC80, .arrwCounter ⟨2, true, 9⟩ 3 4),
    (0x452C8080, .publ ⟨2, true, 9⟩ 4), (0x456C8000, .licq ⟨2, true, 9⟩), (0x45AC8000, .licr ⟨2, true, 9⟩),
    (0x45EC8000, .licx ⟨2, true, 9⟩), (0x462C8000, .zxt ⟨2, true, 9⟩)] = true := by decide

theorem test_decode_transfer_0 : readsAs [
    (0x502C8C80, .vsplat ⟨2, true, 9⟩ 3 4), (0x506C8C85, .vins ⟨2, true, 9⟩ 3 4 5), (0x50AC8C85, .vext ⟨2, true, 9⟩ 3 4 5),
    (0x50EC8C80, .twset ⟨2, true, 9⟩ 3 4), (0x512C8C80, .twget ⟨2, true, 9⟩ 3 4), (0x516C8C00, .twclr ⟨2, true, 9⟩ 3)] = true := by decide

theorem test_decode_system_0 : readsAs [
    (0x60200000, .waypt 2), (0x606C8005, .trap ⟨2, true, 9⟩ (.b 5)), (0x60AC8080, .resume ⟨2, true, 9⟩ 4),
    (0x60EC8C85, .crd ⟨2, true, 9⟩ 3 133), (0x612C8C85, .cwr ⟨2, true, 9⟩ 3 133), (0x616C8085, .mona ⟨2, true, 9⟩ 4 5),
    (0x61AC8C80, .mnap ⟨2, true, 9⟩ 3 4), (0x61EC8C85, .rqpg ⟨2, true, 9⟩ 3 4 5), (0x622C8C80, .taskl ⟨2, true, 9⟩ 3 4),
    (0x626C8000, .taskr ⟨2, true, 9⟩), (0x62AC8080, .dsig ⟨2, true, 9⟩ 4), (0x62EC8880, .claim ⟨2, true, 9⟩ 2 4),
    (0x632C8000, .yield ⟨2, true, 9⟩), (0x636C8085, .seal ⟨2, true, 9⟩ 4 5), (0x63AC8085, .unseal ⟨2, true, 9⟩ 4 5),
    (0x63EC8000, .vjoin ⟨2, true, 9⟩), (0x642C8080, .dcflLine ⟨2, true, 9⟩ 4), (0x642C8400, .dcflL2 ⟨2, true, 9⟩),
    (0x646C8080, .dcinvLine ⟨2, true, 9⟩ 4), (0x646C8400, .dcinvL2 ⟨2, true, 9⟩), (0x64AC8000, .icinv ⟨2, true, 9⟩),
    (0x64EC8000, .halt ⟨2, true, 9⟩), (0x652C8080, .evsig ⟨2, true, 9⟩ 4)] = true := by decide
/-! ### States for the tests -/

def th : TH := ⟨0, false, 0⟩
def mh : MH := ⟨0, 0⟩
/-- A guard that fails: p0 negated. -/
def off : TH := ⟨0, true, 0⟩

/-- Core 8 in focus, its context 0 running, with a bundle that BUNDLE_FETCH has checked. -/
def calm : State :=
  let s := { State.reset with focus := 8, latch := { State.reset.latch with checked := true } }
  setMe s { me s with status := .running, pid := 1 }

/-- The same with some registers of the context changed. -/
def withRegs (s : State) (f : Regs → Regs) : State := setMe s { me s with live := f (me s).live }
def withG (s : State) (n : Nat) (v : Word) : State := withRegs s fun r => { r with g := r.g.set n v }
def withV (s : State) (n : Nat) (v : Vec) : State := withRegs s fun r => { r with v := r.v.set n v }

/-- Sixteen tiles of tensor 0 of process 1, its table at 0x20_0000; tile 0 stands in the frame at 0x30_0000, tile 1 is absent. -/
def lay : Layout := { scale := 0, ro := false, elem := 0, rank := 0, dims := [], tiles := [], ttab := 0x200000, ntile := 16 }
def wired : State :=
  { setProc calm 1 ⟨Tab.empty.set 0 lay, none⟩ with
    mem := ⟨[(0x200002, 0x30), (0x200007, 0x40), (0x20000F, 0x80)]⟩ }

/-- The state that a slot or an event leaves. -/
def ran (i : Instr) (s : State) : State := match exec i s with | .next t => t | _ => s
/-- The value of the last result in flight. -/
def got (i : Instr) (s : State) : Vec := match (me (ran i s)).flight.getLast? with | some f => f.val | none => 0
def gotFlags (i : Instr) (s : State) : BitVec 16 := match (me (ran i s)).flight.getLast? with | some f => f.flags | none => 0

/-! ### Arithmetic (hand calculation from chapters 3, 5 and 6) -/

def sc (a b : Word) : State := withG (withG calm 4 a) 5 b
def lanes2 (a b : Nat) : State := withV (withV calm 4 (ofLanes fun _ => BitVec.ofNat 32 a)) 5 (ofLanes fun _ => BitVec.ofNat 32 b)

theorem test_add_wraps : got (.add th 3 4 5) (sc (BitVec.allOnes 64) 2) = 1 := by decide +kernel
theorem test_sub_below_zero : got (.sub th 3 4 5) (sc 1 2) = (BitVec.allOnes 64).setWidth 1024 := by decide +kernel
theorem test_addi_negative : got (.addi th 3 4 (.b 0x1F)) (sc 5 0) = 4 := by decide +kernel
theorem test_mulh_signed : got (.mulh th 3 4 5) (sc (BitVec.allOnes 64) 2) = (BitVec.allOnes 64).setWidth 1024 := by decide +kernel
theorem test_mulhn_unsigned : got (.mulhn th 3 4 5) (sc (BitVec.allOnes 64) 2) = 1 := by decide +kernel
theorem test_div_overflow : got (.div th 3 4 5) (sc (BitVec.intMin 64) (BitVec.allOnes 64)) = (BitVec.intMin 64).setWidth 1024 := by
  decide +kernel
theorem test_div_truncates : got (.div th 3 4 5) (sc (BitVec.ofInt 64 (-7)) 2) = (BitVec.ofInt 64 (-3)).setWidth 1024 := by decide +kernel
theorem test_rem_by_zero : got (.rem th 3 4 5) (sc 7 0) = 7 := by decide +kernel
theorem test_andn : got (.andn th 3 4 5) (sc 0xF 0x5) = 0xA := by decide +kernel
theorem test_sha_fills : got (.sha th 3 4 5) (sc (BitVec.intMin 64) 127) = (BitVec.allOnes 64).setWidth 1024 := by decide +kernel
theorem test_rot_left : got (.rot th 3 4 5) (sc (BitVec.intMin 64) 1) = 1 := by decide +kernel
theorem test_clz_zero : got (.clz th 3 4) (sc 0 0) = 64 := by decide +kernel
theorem test_bext_width_zero : got (.bext th 3 4 (.b 8)) (sc 0xABCD 0) = 0xAB := by decide +kernel
theorem test_sext_byte : got (.sext th 3 4 (.b 8)) (sc 0x80 0) = (BitVec.ofInt 64 (-128)).setWidth 1024 := by decide +kernel
theorem test_movi_two_lx : got (.movi th 3 (.lx2 5 0x1F 0x1 0xFFFFFFF)) calm = 0xBFFFFFFFF0000001 := by decide +kernel
theorem test_guard_off : (me (ran (.add off 3 4 5) (sc 1 1))).flight = [] := by decide +kernel
theorem test_g0_discards : (me (ran (.add th 0 4 5) (sc 1 1))).flight = [] := by decide +kernel
theorem test_cmplt_signed : got (.cmplt th 3 4 5) (sc (BitVec.allOnes 64) 0) = 0xFFFFFFFF := by decide +kernel
theorem test_pall_p0 : got (.pall th 3 0) calm = 0xFFFFFFFF := by decide +kernel

theorem test_vadds_saturates : lane (got (.vadds th 3 4 5) (lanes2 0x7FFFFFFF 1)) 31 = 0x7FFFFFFF ∧
    gotFlags (.vadds th 3 4 5) (lanes2 0x7FFFFFFF 1) = flSAT := by decide +kernel
theorem test_vmulh : lane (got (.vmulh th 3 4 5) (lanes2 0xFFFFFFFF 2)) 0 = 0xFFFFFFFF := by decide +kernel
theorem test_vradd_all_lanes : lane (got (.vradd th 3 4) (lanes2 3 0)) 7 = 96 := by decide +kernel
theorem test_vfadd_ties_to_even : lane (got (.vfadd th 3 4 5) (lanes2 0x4B800000 0x3F800000)) 0 = 0x4B800000 := by decide +kernel
theorem test_vfdiv_third : lane (got (.vfdiv th 3 4 5) (lanes2 0x3F800000 0x40400000)) 0 = 0x3EAAAAAB := by decide +kernel
theorem test_vfdiv_by_zero : gotFlags (.vfdiv th 3 4 5) (lanes2 0x3F800000 0) = flDZ := by decide +kernel
theorem test_vfsqrt_two : lane (got (.vfsqrt th 3 4) (lanes2 0x40000000 0)) 0 = 0x3FB504F3 := by decide +kernel
theorem test_vfma_zero_times_infinity : lane (got (.vfma th 3 4 5) (lanes2 0 0x7F800000)) 0 = 0x7FC00000 ∧
    gotFlags (.vfma th 3 4 5) (lanes2 0 0x7F800000) = flNV := by decide +kernel
theorem test_vcmpltn_unsigned : got (.vcmpltn th 3 4 5) (lanes2 0 0xFFFFFFFF) = 0xFFFFFFFF := by decide +kernel
theorem test_vitof : lane (got (.vitof th 3 4) (lanes2 0xFFFFFFFF 0)) 0 = 0xBF800000 := by decide +kernel
theorem test_vins_lane : (me (ran (.vins th 3 4 31) (sc 9 0))).flight.map (·.mask) = [0x80000000] := by decide +kernel

/-- Words with what the spec's listings say they stand for (Tables 7.11, 8.5, 12.1, 20.10, chapters 14 to 16). -/
def listed (l : List (List Nat × Instr)) : Bool := l.all fun p => decodeWords 32 p.1 == .ok (p.2, [])

theorem test_listed_engine : listed
    [([0xC140041D], .zclr ⟨0, false, 0⟩ 1 (.b 0x1D)), ([0xC19283E0], .zst 1 1 2 0 31), ([0xC2400400], .zfree ⟨0, false, 0⟩ 1),
     ([0x45400000], .licq ⟨0, false, 0⟩), ([0x45800000], .licr ⟨0, false, 0⟩), ([0x45C00000], .licx ⟨0, false, 0⟩), ([0x46100000], .zxt ⟨1, false, 0⟩),
     ([0x45C10000], .licx ⟨0, false, 2⟩), ([0xC0000360], .tcfg ⟨0, false, 0⟩ 0 27), ([0x4310831E], .cpin ⟨1, false, 1⟩ 0 24 30),
     ([0x442880B2], .cpenc ⟨2, true, 1⟩ 0 5 9), ([0xC4C021E0], .arrwCounter ⟨0, false, 0⟩ 0 15), ([0xC0E008E0], .mma 2 0 0 1 7 false false),
     ([0x43500B2E], .cpout ⟨1, false, 0⟩ 2 25 14), ([0x439035D3], .cpcl ⟨1, false, 0⟩ 13 14 19), ([0xC2900000], .sqld ⟨1, false, 0⟩ false 0),
     ([0xC29005A0], .sqld ⟨1, false, 0⟩ true 13), ([0xC140001F], .zclr ⟨0, false, 0⟩ 0 (.b 0x1F))] = true := by decide

theorem test_listed_scalar : listed
    [([0x12C81840], .lda ⟨2, 0⟩ 6 2 (.reg 0)), ([0x13081440], .stl ⟨2, 0⟩ 5 2 (.reg 0)), ([0x0A00040C], .cmplt ⟨0, false, 0⟩ 1 0 12),
     ([0x1188E357], .ldd ⟨2, 1⟩ 24 26 (.reg 23)), ([0x15081B5C], .acas ⟨2, 0⟩ 3 26 (.reg 28)), ([0x16CA7400, 0x7FFFFFEC], .loop ⟨0, true, 4⟩ 29 (.lx1 0xFFFFFEC)),
     ([0x0900EF7A], .sel ⟨0, false, 1⟩ 27 27 26), ([0x16488020], .jr ⟨0, true, 1⟩ 1), ([0x16C05C10], .loop ⟨0, false, 0⟩ 23 (.b 0x10)),
     ([0x0A400B5D], .cmple ⟨0, false, 0⟩ 2 26 29)] = true := by decide

theorem test_listed_system : listed
    [([0x61809D00], .mnap ⟨0, false, 1⟩ 7 8), ([0x64C00000], .halt ⟨0, false, 0⟩), ([0xE1000980], .cwr ⟨0, false, 0⟩ 2 0x180),
     ([0xE0C019A1], .crd ⟨0, false, 0⟩ 6 0x1A1), ([0x60410002], .trap ⟨0, false, 2⟩ (.b 2)), ([0xE0C05402], .crd ⟨0, false, 0⟩ 21 0x002),
     ([0x628183A0], .dsig ⟨0, false, 3⟩ 29), ([0x620018A0], .taskl ⟨0, false, 0⟩ 6 5), ([0xE1005C28], .cwr ⟨0, false, 0⟩ 23 0x028),
     ([0xE1400040], .mona ⟨0, false, 0⟩ 2 0), ([0x50C008E0], .twset ⟨0, false, 0⟩ 2 7), ([0x51002440], .twget ⟨0, false, 0⟩ 9 2),
     ([0x64C00000], .halt ⟨0, false, 0⟩), ([0xE0000000], .waypt 0)] = true := by decide

/-! ### Ill-formed slots: each check refuses one -/

theorem test_ill_formed_slots :
    ([.fnc 0 (.lx1 0x10000), .pfl 0 3 1 (.reg 0), .vfcvt th 3 4 4, .vqnt th 3 4 3, .vbexp th 3 4 3, .vpack th 3 4 3, .vunpk th 3 4 3,
      .zclr th 1 (.lx1 512), .claim th 3 4] : List Instr).all (fun i => !i.wf) = true := by decide

theorem test_ill_formed_events :
    ([.l1Eviction 2056 0, .waypointCommit 8 4, .l2Writeback 16 0, .passingGapEnd 1024, .quiesce 256, .clockChange 8,
      .hostMemoryWrite 0x1001 2 0, .hostMemoryRead 0x1000 3, .mqtailWrite 64 0, .ringBaseWrite 66 0, .relayDelivery 8 0 1 8, .eprofWrite 0 4 0,
      .bankTransitionDone 8 4, .thermalPoll [0]] : List Instr).all (fun i => !i.wf) = true := by decide

theorem test_well_formed_edges :
    ([.fnc 0 (.lx1 0xFFFF), .pfl 0 2 1 (.reg 0), .vfcvt th 3 4 3, .vqnt th 3 4 2, .l1Eviction 2055 0, .waypointCommit 8 3, .l2Writeback 15 0,
      .passingGapEnd 1023, .quiesce 255, .clockChange 7, .hostMemoryRead 0x1000 8, .mqtailWrite 63 0, .ringBaseWrite 65 0] : List Instr).all
      (fun i => i.wf) = true := by decide

/-! ### Witnesses: each shows a state and operands that meet the hypotheses of a statement, clause by clause -/

/-- In the states built from `calm` every slot issues: BUNDLE_FETCH has checked the bundle. -/
theorem calm_issues (i : Instr) : Issues calm i := Or.inl rfl
theorem wired_issues (i : Instr) : Issues wired i := Or.inl rfl

/-- A slot issues in a state of which nothing says that it was checked. -/
theorem issues_by_its_own_checks :
    Issues { calm with latch := { calm.latch with checked := false }, cores := (setCore calm 8 { myCore calm with ebal := 100 }).cores } (.add th 3 4 5) :=
  Or.inr (by decide +kernel)

theorem meets_ScalarResults :
    (∃ d v n, scalarRule (sc 2 3) (.add th 3 4 5) = some (d, v, n) ∧ Issues (sc 2 3) (.add th 3 4 5)) ∧
    (∃ d v n, scalarRule (sc 2 3) (.rem off 0 4 5) = some (d, v, n) ∧ Issues (sc 2 3) (.rem off 0 4 5)) ∧
    (∃ d f, predRule calm (.pall th 3 0) = some (d, f) ∧ Issues calm (.pall th 3 0)) :=
  ⟨⟨_, _, _, rfl, Or.inl rfl⟩, ⟨_, _, _, rfl, Or.inl rfl⟩, _, _, rfl, Or.inl rfl⟩

theorem meets_VectorResults : ∃ d f w n, vectorRule calm (.vins th 3 4 31) = some (d, f, w, n) ∧ Issues calm (.vins th 3 4 31) :=
  ⟨_, _, _, _, rfl, Or.inl rfl⟩

/-- Residue mode on, with a fault in the core's adders that inverts bit 31. -/
def faulty : State :=
  let s := withRegs calm fun r => { r with cstat := 0x4000 }
  setCore s 8 { myCore s with aluFault := BitVec.twoPow 32 31 }

theorem meets_CheckedResults :
    (∃ d f, exactRule calm (.vadd th 3 4 5) = some (d, f) ∧ Issues calm (.vadd th 3 4 5) ∧
      (cstatRES (me calm).live.cstat = false ∨ (myCore calm).aluFault = 0)) ∧
    (∃ d f, exactRule faulty (.vmad th 3 4 5) = some (d, f) ∧ Issues faulty (.vmad th 3 4 5) ∧ lanesOf faulty (.vmad th 3 4 5) ≠ 0 ∧
      cstatRES (me faulty).live.cstat = true ∧ (myCore faulty).aluFault = BitVec.twoPow 32 31) :=
  ⟨⟨_, _, rfl, Or.inl rfl, by decide +kernel⟩, _, _, rfl, Or.inl rfl, by decide +kernel⟩

theorem meets_CompareResults :
    (∃ d f, compareRule calm (.vcmplt th 3 4 5) = some (d, f) ∧ Issues calm (.vcmplt th 3 4 5)) ∧
    (∃ d f w, floatCompareRule calm (.vdcmplt th 0 4 5) = some (d, f, w) ∧ Issues calm (.vdcmplt th 0 4 5)) :=
  ⟨⟨_, _, rfl, Or.inl rfl⟩, _, _, _, rfl, Or.inl rfl⟩

theorem meets_FloatResults :
    (∃ d f n, floatRule calm (.vfma th 3 4 5) = some (d, f, n) ∧ Issues calm (.vfma th 3 4 5)) ∧
    (∃ d f n, doubleRule calm (.vddiv th 3 4 5) = some (d, f, n) ∧ Issues calm (.vddiv th 3 4 5)) :=
  ⟨⟨_, _, _, rfl, Or.inl rfl⟩, _, _, _, rfl, Or.inl rfl⟩

theorem meets_BlockResults : Issues calm (.vbexp th 3 4 0) ∧ Issues calm (.vqnt th 3 4 2) ∧ Issues calm (.vnrm th 3 4) :=
  ⟨Or.inl rfl, Or.inl rfl, Or.inl rfl⟩

theorem meets_BranchesAndTwins :
    Issues calm (.br th 4) ∧ Issues calm (.loop off 3 (.b 1)) ∧ (Issues calm (.twset th 2 7) ∧ lanesOf calm (.twset th 2 7) ≠ 0) ∧
    (Issues calm (.twclr off 2) ∧ lanesOf calm (.twclr off 2) = 0) ∧ Issues calm (.twget th 3 2) :=
  ⟨Or.inl rfl, Or.inl rfl, ⟨Or.inl rfl, by decide +kernel⟩, ⟨Or.inl rfl, by decide +kernel⟩, Or.inl rfl⟩

theorem meets_FirstTouch :
    (layoutOf wired 1 0 = some lay ∧ entryAt wired lay 0 / 2 ^ 62 ≠ 0) ∧
    (entryAt wired lay 2 / 2 ^ 62 = 0 ∧ (frameFrom wired (stackOrder 8 2)).any (fun p =>
      decide ((p.2 + 65536 ≤ lay.ttab + 8 * 2 ∨ lay.ttab + 8 * 2 + 8 ≤ p.2) ∧ p.2 / 65536 < 2 ^ 24 ∧ p.2 % 65536 = 0)) = true) := by
  decide +kernel

/-- References: byte 16 of the resident tile 0, a byte of the non-resident tile 1, one of the unplaced tile 2, and the slice window. -/
def g6 (r : Nat) : State := withG wired 6 (BitVec.ofNat 64 r)

theorem meets_LoadSlots :
    (∃ f, scalarLoad (g6 16) (.ldd mh 3 6 (.reg 0)) = some f ∧ Issues (g6 16) (.ldd mh 3 6 (.reg 0)) ∧
      lanesOf (g6 16) (.ldd mh 3 6 (.reg 0)) ≠ 0 ∧ onChip (refTid f.ref) = false ∧ f.dest ≠ 0) ∧
    (∃ f, scalarLoad (g6 65536) (.ldb mh 0 6 (.reg 0)) = some f ∧ Issues (g6 65536) (.ldb mh 0 6 (.reg 0)) ∧
      onChip (refTid f.ref) = false ∧ f.dest = 0 ∧ f.acquire = false) ∧
    (∃ f, scalarLoad (g6 0xFFF0000000000000) (.lda mh 3 6 (.reg 0)) = some f ∧ Issues (g6 0xFFF0000000000000) (.lda mh 3 6 (.reg 0)) ∧
      lanesOf (g6 0xFFF0000000000000) (.lda mh 3 6 (.reg 0)) ≠ 0 ∧ onChip (refTid f.ref) = true) ∧
    (∃ f, vectorLoad (g6 16) (.vld mh 3 6 (.reg 0)) = some f ∧ Issues (g6 16) (.vld mh 3 6 (.reg 0)) ∧
      lanesOf (g6 16) (.vld mh 3 6 (.reg 0)) ≠ 0 ∧ isLong f.ref = true) ∧
    (∃ f, vectorLoad (g6 0xFFF1000000000000) (.vlds 0 3 6 (.reg 0)) = some f ∧ Issues (g6 0xFFF1000000000000) (.vlds 0 3 6 (.reg 0)) ∧
      isLong f.ref = false) :=
  ⟨⟨_, rfl, Or.inl rfl, by decide +kernel⟩, ⟨_, rfl, Or.inl rfl, by decide +kernel⟩, ⟨_, rfl, Or.inl rfl, by decide +kernel⟩,
    ⟨_, rfl, Or.inl rfl, by decide +kernel⟩, _, rfl, Or.inl rfl, by decide +kernel⟩

theorem meets_StoreSlots :
    (∃ f, scalarStore (g6 16) (.std mh 3 6 (.reg 0)) = some f ∧ Issues (g6 16) (.std mh 3 6 (.reg 0)) ∧
      lanesOf (g6 16) (.std mh 3 6 (.reg 0)) ≠ 0 ∧ (scalarPlace (g6 16) f.ref f.width).2 ≠ []) ∧
    (∃ f, scalarStore (g6 65536) (.stb mh 3 6 (.reg 0)) = some f ∧ Issues (g6 65536) (.stb mh 3 6 (.reg 0)) ∧
      (scalarPlace (g6 65536) f.ref f.width).2 = []) ∧
    (∃ f, vectorStore (g6 16) (.vst mh 3 6 (.reg 0)) = some f ∧ Issues (g6 16) (.vst mh 3 6 (.reg 0)) ∧
      lanesOf (g6 16) (.vst mh 3 6 (.reg 0)) ≠ 0) ∧
    (Issues (g6 16) (.vstl mh 3 6 (.reg 0)) ∧ lanesOf (g6 16) (.vstl mh 3 6 (.reg 0)) ≠ 0) :=
  ⟨⟨_, rfl, Or.inl rfl, by decide +kernel⟩, ⟨_, rfl, Or.inl rfl, by decide +kernel⟩, ⟨_, rfl, Or.inl rfl, by decide +kernel⟩,
    Or.inl rfl, by decide +kernel⟩

theorem meets_ReleasesAndAtomics :
    (Issues (g6 16) (.stl mh 3 6 (.reg 0)) ∧ lanesOf (g6 16) (.stl mh 3 6 (.reg 0)) ≠ 0) ∧
    (∃ f, scalarAtomic (g6 16) (.acas mh 2 6 (.reg 0)) = some f ∧ Issues (g6 16) (.acas mh 2 6 (.reg 0)) ∧
      lanesOf (g6 16) (.acas mh 2 6 (.reg 0)) ≠ 0) ∧
    (∃ f, vectorAtomic (g6 16) (.vaadd mh 3 6 (.reg 0)) = some f ∧ Issues (g6 16) (.vaadd mh 3 6 (.reg 0)) ∧
      lanesOf (g6 16) (.vaadd mh 3 6 (.reg 0)) ≠ 0) :=
  ⟨⟨Or.inl rfl, by decide +kernel⟩, ⟨_, rfl, Or.inl rfl, by decide +kernel⟩, _, rfl, Or.inl rfl, by decide +kernel⟩

/-- The same state with the bundle unchecked. -/
def bare (s : State) : State := { s with latch := { s.latch with checked := false } }
/-- No energy left in the core. -/
def broke : State := bare (setCore calm 8 { myCore calm with ebal := 0 })

/-- The twin core holds the pair's licence. -/
def lent : State := bare (setPair calm (pairOf 8) { getPair calm (pairOf 8) with st := .upper, holder := some (136, 0) })

theorem meets_SlotChecks :
    ((slotInfo (.add off 3 4 5)).cls ≠ 8 ∧ Issues calm (.add off 3 4 5) ∧ lanesOf calm (.add off 3 4 5) = 0) ∧
    ((bare calm).latch.checked = false ∧ (issueFault (bare calm) (.resume th 1)).isSome = true) ∧
    (issueFault lent (.licq th) = none ∧ (issueBlock lent (.licq th)).isSome = true) ∧
    (issueFault broke (.add th 3 4 5) = none ∧ issueBlock broke (.add th 3 4 5) = none ∧
      (myCore broke).ebal < slotWeight broke broke.focus (.add th 3 4 5)) :=
  ⟨⟨by decide, Or.inl rfl, by decide +kernel⟩, by decide +kernel, by decide +kernel, by decide +kernel⟩

theorem meets_RecordedSlots :
    (∃ a, recordedAct calm (.halt th) = some a ∧ Issues calm (.halt th)) ∧ Issues calm (.dcinvLine th 6) ∧
    ((Issues (g6 0) (.taskl th 3 6) ∧ lanesOf (g6 0) (.taskl th 3 6) ≠ 0 ∧ (scalarPlace (g6 0) (mkRef 0 (refIdx (readG (g6 0) 6))) 1).2 ≠ []) ∧
      (scalarPlace (g6 65536) (mkRef 0 (refIdx (readG (g6 65536) 6))) 1).2 = []) ∧
    (∃ r, recordedRelease (.tfree th 2) = some r ∧ Issues calm (.tfree th 2)) ∧ Issues calm (.publ th 6) :=
  ⟨⟨_, rfl, Or.inl rfl⟩, Or.inl rfl, ⟨⟨Or.inl rfl, by decide +kernel⟩, by decide +kernel⟩, ⟨_, rfl, Or.inl rfl⟩, Or.inl rfl⟩

theorem meets_OrderingSlots :
    Issues calm (.waypt 0) ∧ Issues calm (.icinv th) ∧
    (Issues (g6 3) (.pfl 0 1 6 (.reg 0)) ∧ onChip (refTid (scalarRef (g6 3) 6 (.reg 0))) = false ∧ lanesOf (g6 3) (.pfl 0 1 6 (.reg 0)) ≠ 0 ∧
      underReplay (g6 3) (dieOf 8) = false ∧ lineAddr (g6 3) (scalarRef (g6 3) 6 (.reg 0)) = some 0x300003 ∧ 0x300003 < hbmTop) ∧
    (Issues calm (.fnc 0 (.b 0)) ∧ lanesOf calm (.fnc 0 (.b 0)) ≠ 0 ∧ (Imm.zval (.b 0)).setWidth 16 = (0 : BitVec 16)) ∧
    (Issues calm (.fnc 0 (.b 1)) ∧ (Imm.zval (.b 1)).setWidth 16 ≠ (0 : BitVec 16) ∧ 4 ≤ maskScope (me calm).live 1 ∧
      isMgmt calm.focus = false) ∧
    (let s := withRegs calm fun r => { r with ocs0 := 0 }
     Issues s (.fnc 0 (.b 1)) ∧ maskScope (me s).live 1 < 4) :=
  ⟨Or.inl rfl, Or.inl rfl, ⟨Or.inl rfl, by decide +kernel⟩, ⟨Or.inl rfl, by decide +kernel⟩, ⟨Or.inl rfl, by decide +kernel⟩, Or.inl rfl, by decide +kernel⟩

/-- A dirty line in the die's L2: byte 3 of line 0xC000, the first line of tile 0's frame. -/
def cached : State := setDie (g6 3) 0 { getDie (g6 3) 0 with l2 := Tab.empty.set 0xC000 ⟨0xAB000000, 8, 8⟩ }

theorem meets_CacheFlushes :
    (Issues cached (.dcflLine th 6) ∧ lanesOf cached (.dcflLine th 6) ≠ 0) ∧ lineAddr (g6 65536) (readG (g6 65536) 6) = none ∧
    (lineAddr cached (readG cached 6) = some 0x300003 ∧ resolve cached 0x300003 = some 0x300003 ∧ 0x300003 / 64 = 0xC000 ∧ isMgmt cached.focus = false) ∧
    (Issues cached (.dcflL2 th) ∧ lanesOf cached (.dcflL2 th) ≠ 0) ∧
    (∃ l, (getDie cached 0).l2.find 0xC000 = some l ∧ l.dirty.getLsbD 3 = true ∧ l.dirty.getLsbD 2 = false) :=
  ⟨⟨Or.inl rfl, by decide +kernel⟩, by decide +kernel, by decide +kernel, ⟨Or.inl rfl, by decide +kernel⟩, _, rfl, by decide +kernel⟩

theorem meets_ControlRegisters :
    Issues calm (.crd th 3 0x005) ∧
    (Issues calm (.cwr th 3 0x013) ∧ lanesOf calm (.cwr th 3 0x013) ≠ 0 ∧ ctxHeld 0x013 = false) ∧
    (Issues calm (.cwr th 3 0x005) ∧ ctxHeld 0x005 = true) ∧ (Issues calm (.cwr th 3 0x190) ∧ ctxHeld 0x190 = true) :=
  ⟨Or.inl rfl, ⟨Or.inl rfl, by decide +kernel⟩, ⟨Or.inl rfl, by decide⟩, Or.inl rfl, by decide⟩

/-- A claim of 8,192 bytes, and TCFG words that bind 4,096 bytes and 16 KiB from byte 0 on. -/
def claimed : State := withRegs calm fun r => { r with claimb := 8192 }

theorem meets_EngineSetup :
    (let s := withG claimed 6 (BitVec.ofNat 64 (4096 * 2 ^ 32))
     Issues s (.tcfg th 1 6) ∧ overClaim s 1 (readG s 6) = false ∧ cfgBytes (readG s 6) = 4096) ∧
    Issues calm (.tstat th 3 1) ∧ Issues calm (.mma 2 1 0 1 7 false false) ∧
    (Issues calm (.zclr th 1 (.b 0x1D)) ∧ lanesOf calm (.zclr th 1 (.b 0x1D)) ≠ 0) ∧
    (Issues calm (.sqld th true 6) ∧ lanesOf calm (.sqld th true 6) ≠ 0) :=
  ⟨⟨Or.inl rfl, by decide +kernel⟩, Or.inl rfl, Or.inl rfl, ⟨Or.inl rfl, by decide +kernel⟩, Or.inl rfl, by decide +kernel⟩

theorem meets_EngineTransfers :
    (Issues calm (.zst 2 1 2 0 31) ∧ lanesOf calm (.zst 2 1 2 0 31) ≠ 0) ∧ (Issues calm (.zld 2 1 2 31) ∧ lanesOf calm (.zld 2 1 2 31) ≠ 0) ∧
    (Issues calm (.zadd th 1 2) ∧ lanesOf calm (.zadd th 1 2) ≠ 0) :=
  ⟨⟨Or.inl rfl, by decide +kernel⟩, ⟨Or.inl rfl, by decide +kernel⟩, Or.inl rfl, by decide +kernel⟩

theorem meets_CopySlots :
    ∃ f, copySlot wired (.cpin th 2 8 9) = some f ∧ Issues wired (.cpin th 2 8 9) ∧ lanesOf wired (.cpin th 2 8 9) ≠ 0 :=
  ⟨_, rfl, Or.inl rfl, by decide +kernel⟩

/-- Context 0 of core 8 holds its pair's licence. -/
def holding : State := setPair calm (pairOf 8) { getPair calm (pairOf 8) with st := .lower, holder := some (8, 0) }

theorem meets_LicenceRequests :
    (Issues calm (.licq th) ∧ lanesOf calm (.licq th) ≠ 0 ∧ licMine calm 8 (curX calm) = false) ∧
    (Issues holding (.licq th) ∧ licMine holding 8 (curX holding) = true) :=
  ⟨⟨Or.inl rfl, by decide +kernel⟩, Or.inl rfl, by decide +kernel⟩

theorem meets_MonitorsAndRequests :
    (Issues (g6 16) (.mona th 6 0) ∧ lanesOf (g6 16) (.mona th 6 0) ≠ 0 ∧ locate (g6 16) (me (g6 16)) 16 = some (0, 16) ∧
      monitorLine (g6 16) 16 0 16 ≠ []) ∧
    (locate (g6 65536) (me (g6 65536)) 65536 = some (1, 0) ∧ monitorLine (g6 65536) 65536 1 0 = []) ∧
    (Issues wired (.rqpg th 3 6 0) ∧ lanesOf wired (.rqpg th 3 6 0) ≠ 0) ∧
    (let s := withG calm 6 64
     Issues s (.claim th 0 6) ∧ lanesOf s (.claim th 0 6) ≠ 0 ∧ claimFails s 0 (readG s 6).toNat = false ∧ claimFails s 2 (readG s 6).toNat = false) :=
  ⟨⟨Or.inl rfl, by decide +kernel⟩, by decide +kernel, ⟨Or.inl rfl, by decide +kernel⟩, Or.inl rfl, by decide +kernel⟩

/-- Context `x` of core 8 changed. -/
def withCtx (s : State) (x : Nat) (f : Ctx → Ctx) : State := setCtx s 8 x (f (getCtx s 8 x))

/-- A matrix state of context 0 of core 8 that its save has parked. -/
def parkedState : Parked := { core := 8, x := 0, banks := .empty, sqa := .reset, sqb := .reset, tiles := .empty, cmds := [], bySave := true }

theorem meets_TrapEntry :
    (isMgmt 8 = false ∧ (0x0F : BitVec 8) ≠ 0x20 ∧ (0x0F : BitVec 8) ≠ 0x21) ∧ (isMgmt 2048 = true ∧ (getCtx calm 2048 0).hmode = false) ∧
    (let s := setCtx calm 2048 3 { getCtx calm 2048 3 with hmode := true }
     isMgmt 2048 = true ∧ (getCtx s 2048 3).hmode = true ∧ (getCtx s 2048 3).pend = none) ∧
    ((getCtx calm 8 0).pend = none ∧ inFlight calm 8 0 = false ∧ inFlight (withCtx calm 0 fun k => { k with flight := [inWindow calm (.g 3) 7 allLanes 1 0] }) 8 0 = true) ∧
    (withCtx calm 0 fun k => { k with pend := some ⟨0x0F, 0, false, 0, 0⟩ }).cores ≠ calm.cores ∧
    (getCtx (withCtx calm 0 fun k => { k with pend := some ⟨0x0F, 0, false, 0, 0⟩ }) 8 0).pend ≠ none ∧
    (let s := withCtx calm 0 fun k => { k with mstate := some parkedState }
     (getCtx s 8 0).unpark = none ∧ (getCtx s 8 0).grantInInterval = false ∧ (parkedOf s 8 0).any (·.bySave) = true) := by decide +kernel

/-- A due result for g3 and one for p0, and a result of v1 that is not due. -/
def landing : State :=
  withCtx calm 0 fun k => { k with flight :=
    [{ inWindow calm (.g 3) 7 allLanes 1 0 with left := 0 }, { inWindow calm (.p 0) 7 allLanes 1 flNV with left := 0 },
     { inWindow calm (.v 1) 7 allLanes 4 0 with left := 2 }] }

/-- Due results for lanes 4 to 7 of v1 and for bits 0 to 3 of p2, after one for all of v1. -/
def lanesLand : State :=
  withCtx calm 0 fun k => { k with flight :=
    [{ inWindow calm (.v 1) 5 allLanes 4 0 with left := 0 }, { inWindow calm (.v 1) 7 0xF0 4 0 with left := 0 },
     { inWindow calm (.p 2) 3 0xF 1 0 with left := 0 }] }

theorem meets_ResultsLand :
    (getAny landing 8 0).flight.find? (fun f => f.residueBad && f.left == 0) = none ∧
    (let f : Flight := { inWindow calm (.v 3) 7 allLanes 2 0 with left := 0, residueBad := true }
     (getAny (withCtx calm 0 fun k => { k with flight := [f] }) 8 0).flight.find? (fun f => f.residueBad && f.left == 0) = some f) ∧
    (let l := (getCtx landing 8 0).flight
     ∃ f post, l = [] ++ f :: post ∧ f.left = 0 ∧ f.dest = .g 3 ∧ f.mask ≠ 0 ∧ ∀ q ∈ post, ¬(q.left = 0 ∧ q.dest = .g 3 ∧ q.mask ≠ 0)) ∧
    (∀ f ∈ (getCtx landing 8 0).flight, ¬(f.left = 0 ∧ f.dest = .v 1)) ∧
    (let l := (getCtx lanesLand 8 0).flight
     (∃ f post, l = l.take 1 ++ f :: post ∧ f.left = 0 ∧ f.dest = .v 1 ∧ f.mask.getLsbD 4 = true ∧
        ∀ q ∈ post, ¬(q.left = 0 ∧ q.dest = .v 1 ∧ q.mask.getLsbD 4 = true)) ∧
      (∃ f post, l = l.take 2 ++ f :: post ∧ f.left = 0 ∧ f.dest = .p 2 ∧ f.mask.getLsbD 3 = true ∧
        ∀ q ∈ post, ¬(q.left = 0 ∧ q.dest = .p 2 ∧ q.mask.getLsbD 3 = true)) ∧
      (∀ f ∈ l, ¬(f.left = 0 ∧ f.dest = .p 2 ∧ f.mask.getLsbD 4 = true)) ∧ ∀ f ∈ l, ¬(f.left = 0 ∧ f.dest = .v 2 ∧ f.mask.getLsbD 0 = true)) :=
  ⟨by decide +kernel, by decide +kernel, ⟨_, _, rfl, by decide +kernel⟩, by decide +kernel, ⟨_, _, rfl, by decide +kernel⟩,
    ⟨_, _, rfl, by decide +kernel⟩, by decide +kernel⟩

/-- The pair of memory stack 0 and die 0 is broken. -/
def severed (s : State) : State := setLink s 17 0 { Link.reset with broken := true }

/-- A context with a plain long load, a cancelled one and an atomic on the scoreboard. -/
def plainLoad : LongLoad := scalarEntryOf (g6 16) ⟨3, 16, 8, false, false, 0⟩ ((List.range 8).map (0x300010 + ·))
def rmw : LongLoad :=
  { atomicEntryOf (g6 16) ⟨.add, 3, 16, 1, 0, 0⟩ ((List.range 8).map (0x300010 + ·)) with id := 2, handed := true, committed := true }
def loading : State := withCtx wired 0 fun k => { k with loads := [plainLoad, { plainLoad with id := 1, cancelled := true }], nload := 2 }
def atomics : State := withCtx wired 0 fun k => { k with loads := [rmw], nload := 3 }

theorem meets_LongLoadsReturn :
    ((getCtx loading 8 0).loads.find? fun l => l.id == 7) = none ∧
    (∃ l, ((getCtx loading 8 0).loads.find? fun l => l.id == 1) = some l ∧ l.cancelled = true) ∧
    (let k := getCtx loading 8 0
     (k.loads.find? fun l => l.id == 0) = some plainLoad ∧ plainLoad.atomic = none ∧ plainLoad.cancelled = false ∧ plainLoad.handed = true ∧
       ((getAny loading 8 0).wbuf.any fun e => e.committed && e.cls == plainLoad.cls && decide (e.seq < plainLoad.id)) = false ∧
       mayPerform loading 8 0 plainLoad = true ∧ takeReplay loading 8 (isReply k.run plainLoad.id) = none ∧
       (getDie loading (dieOf 8)).l2.cells.length + plainLoad.parts.length ≤ Config.l2Lines ∧
       (getCore loading 8).l1.cells.length + plainLoad.parts.length ≤ Config.l1Lines) ∧
    (let s := withCtx loading 0 fun k => { k with loads := [{ plainLoad with id := 5 }, { plainLoad with id := 6 }] }
     mayPerform s 8 0 { plainLoad with id := 6 } = false) ∧
    (let s := setDie loading 0 { getDie loading 0 with replay := [⟨0, 0, .reply 0 0 9 []⟩] }
     (takeReplay s 8 (isReply (getCtx s 8 0).run plainLoad.id)).map (·.1) = some (9, []) ∧ mayPerform s 8 0 plainLoad = true ∧
       brokenHome s 8 (farHomes s 8 plainLoad.scope (loadBytes plainLoad)) = false) ∧
    (let s := severed loading
     (getCtx s 8 0).loads.find? (fun l => l.id == 0) = some plainLoad ∧
       brokenHome s 8 (farHomes s 8 plainLoad.scope (loadBytes plainLoad)) = true) :=
  ⟨by decide +kernel, ⟨_, rfl, by decide +kernel⟩, by decide +kernel, by decide +kernel, by decide +kernel, by decide +kernel⟩

/-- Two bytes stored, committed and not yet performed. -/
def pair2 : StoreEntry := { scalarEntry (me wired) 16 [0x300010, 0x300011] 2 0xBEEF 0 false with committed := true }
def storing : State := withCtx wired 0 fun k => { k with wbuf := [pair2], nload := 1 }

/-- An atomic of the management core 2048 with the same bytes; a lane atomic of lanes 0 and 5 on two words; each handed to memory. -/
def mgmtRmw : LongLoad := { rmw with scope := 5 }
def mgmtAtomics : State := setCtx wired 2048 0 { getCtx wired 2048 0 with status := .running, loads := [mgmtRmw], nload := 3 }
def laneRmw : LongLoad :=
  { rmw with width := 4, vec := true, sext := false, mask := 0x21,
             parts := [⟨0, (List.range 4).map (0x300010 + ·), []⟩, ⟨5, (List.range 4).map (0x300020 + ·), []⟩] }
def laneAtomics (c : Nat) : State := setCtx wired c 0 { getCtx wired c 0 with status := .running, loads := [laneRmw], nload := 3 }

theorem meets_MemoryPerforms :
    (∀ p ∈ [(atomics, 8, rmw), (mgmtAtomics, 2048, mgmtRmw), (laneAtomics 8, 8, laneRmw), (laneAtomics 2048, 2048, laneRmw)],
      atomicReturns p.1 p.2.1 0 2 p.2.2 .add ∧ (getDie p.1 (dieOf p.2.1)).l2.cells.length + 8 ≤ Config.l2Lines) ∧
    (∀ l ∈ [rmw, mgmtRmw], l.width = 8 ∧ l.vec = false ∧ l.parts = [⟨0, (List.range 8).map (0x300010 + ·), []⟩]) ∧
    (((List.range 8).map (0x300010 + ·)).Nodup ∧ (∀ a ∈ (List.range 8).map (0x300010 + ·), a < hbmTop ∧ waitsCopy atomics a = false)) ∧
    (let as := laneRmw.parts.flatMap (·.addrs)
     laneRmw.width = 4 ∧ laneRmw.vec = true ∧ laneRmw.sext = false ∧ (∀ p ∈ laneRmw.parts, p.lane < 32 ∧ p.addrs.length = 4) ∧
       (laneRmw.parts.map (·.lane)).Nodup ∧ as.Nodup ∧ ∀ a ∈ as, a < hbmTop ∧ waitsCopy (laneAtomics 8) a = false) ∧
    atomicScope (getCtx atomics 8 0) { rmw with scope := 3 } < 4 ∧
    oldestEntry (getCtx calm 8 0) = none ∧
    (oldestEntry (getCtx storing 8 0) = some pair2 ∧ storeReady (getCtx storing 8 0) pair2 = true ∧ pair2.release = false ∧
      storePasses storing 8 (getCtx storing 8 0) pair2 = true ∧ (pair2.cells.any fun w => waitsCopy storing w.1) = false ∧
      sentBefore storing 8 0 pair2.seq 0 = false ∧ (getDie storing (dieOf 8)).l2.cells.length + pair2.cells.length ≤ Config.l2Lines ∧
      (∀ w ∈ pair2.cells, w.1 < shadowTop) ∧ pair2.cells = [] ++ (0x300010, 0xEF) :: [(0x300011, 0xBE)]) ∧
    storeReady { getCtx storing 8 0 with loads := [plainLoad] } { pair2 with release := true, seq := 5 } = false := by
  unfold atomicReturns; decide +kernel

/-- Context 0 asleep at an MNAP of 5 master cycles. -/
def napping (m : MonState) : State := withCtx calm 0 fun k => { k with nap := some 3, napEnd := 5, mon := ⟨[0x40], m, true⟩ }

theorem meets_MonitorsAndNaps :
    (∀ m, (getCtx (napping m) 8 0).nap = some 3 ∧ (getCtx (napping m) 8 0).mon.st = m) ∧
    (getCtx { napping .armed with now := 5 } 8 0).napEnd ≤ ({ napping .armed with now := 5 } : State).now ∧ (getCtx calm 8 0).nap = none :=
  ⟨fun m => by cases m <;> decide +kernel, by decide +kernel⟩

/-- A waypoint bundle's commit in progress, with what it recorded. -/
def ending (as : List Act) : State := withCtx calm 0 fun k => { k with committing := true, acts := as }

theorem meets_WaypointsCommit :
    commitMoves calm 8 0 = false ∧
    (∀ a ∈ ([none, some (.trap 7 0), some .halt, some (.resume 64)] : List (Option Act)),
      let s := ending a.toList
      let k := getCtx s 8 0
      commitReady s 8 0 = true ∧ k.handedOver = false ∧ k.acts = a.toList ∧ k.releases = [] ∧ k.post = [] ∧ k.watch = [] ∧
        licHolds s 8 0 = false ∧ ((banksOf k.vbase k.vregs).all fun b => bankSt (getCore s 8) b != 1) = true) := by decide +kernel

/-- A command of a context's queue that has `left` bytes of 64 to deliver, in rows of 32. -/
def cmd (kind : CopyKind) (left : Nat) (started done : Bool) : CopyCmd :=
  { copyCommand (g6 0) ⟨kind, 2, 0, 0, 0x0001000000000004, 0, [], 2⟩ [] with
    id := 9, started := started, done := done, bytes := 64, rows := 2, wide := 32, todo := wholeRun left }

/-- Acts that a commit performs at once, and acts that it waits with: a full copy queue, launch queue, event queue and seal table. -/
def acts : List Act :=
  [.stl { pair2 with committed := false, release := true }, .atomic 2, .copy { cmd .cpcl 64 false false with id := 0 }, .mnap 3 5, .taskl 3 0x1000,
   .dsig 7 0, .evsig 7, .seal 0 1, .unseal 0 1, .dcinvLine 0x300000, .dcinvL2 0, .cwr 0x012 3 0 0]
def full (a : Act) : State :=
  let s := ending [a]
  let s1 := withCtx s 0 fun k => { k with copyq := List.replicate Config.copyEntries (cmd .cpcl 64 true false) }
  let d := getDie s1 0
  let s2 := setDie s1 0 { d with evq := List.replicate Config.eventQueue ⟨8, 0, none, 0, []⟩ }
  { s2 with serai := { s2.serai with
      launches := List.replicate Config.launchQueue ⟨1, 0, 0, 8, 0, none, 0, 3, true, none, false⟩
      seals := List.replicate Config.sealTable ⟨0, 0, 1, 1⟩ } }

theorem meets_ActsPerform :
    (∀ a ∈ acts, plainCommit (ending [a]) 8 0 ∧ licHolds (ending [a]) 8 0 = false ∧ (getCtx (ending [a]) 8 0).acts = [a] ∧
      (getCtx (ending [a]) 8 0).releases = [] ∧ actWaits (ending [a]) 8 0 a = false ∧
      (∀ k ∈ ([.taskl, .dsig, .evsig, .seal] : List SendKind), sentBefore (ending [a]) 8 0 (getCtx (ending [a]) 8 0).nload k.code = false) ∧
      takeReplay (ending [a]) 8 (isAnswer (getCtx (ending [a]) 8 0).run (getCtx (ending [a]) 8 0).nload) = none) ∧
    (∀ a ∈ ([.copy (cmd .cpcl 64 false false), .taskl 3 0, .evsig 7, .seal 0 1] : List Act),
      plainCommit (full a) 8 0 ∧ licHolds (full a) 8 0 = false ∧ (getCtx (full a) 8 0).acts = [a] ∧ (getCtx (full a) 8 0).releases = [] ∧
      actWaits (full a) 8 0 a = true) ∧
    (sealOf wired (getCtx wired 8 0) 0 1).isSome = true ∧ resolve wired 0x300000 = some 0x300000 ∧
    (∀ m, let s := withCtx (ending [.mnap 3 5]) 0 fun k => { k with mon := ⟨[0x40], m, true⟩ }
      plainCommit s 8 0 ∧ (getCtx s 8 0).mon.st = m ∧ actWaits s 8 0 (.mnap 3 5) = false) := by
  unfold plainCommit; refine ⟨by decide +kernel, by decide +kernel, by decide +kernel, by decide +kernel, fun m => ?_⟩
  cases m <;> decide +kernel

/-- A commit that releases, of the holder of the pair's licence or not. -/
def releasing (s : State) (rs : List Release) : State :=
  withCtx s 0 fun k => { k with committing := true, releases := rs, live := { k.live with
    tiles := (Tab.empty.set 2 { Tile.off with v := true, st := .ready, bytes := 64 }) } }

theorem meets_ReleasesPerform :
    (∀ r ∈ ([.tfree 2, .trel 2, .publ 0 4 3, .zfree 1] : List Release),
      plainCommit (releasing calm [r]) 8 0 ∧ licHolds (releasing calm [r]) 8 0 = false ∧ (getCtx (releasing calm [r]) 8 0).acts = [] ∧
      (getCtx (releasing calm [r]) 8 0).releases = [r] ∧ (getPair (releasing calm [r]) (pairOf 8)).moving.contains 8 = false) ∧
    (∀ rs ∈ ([[], [.zfree 1], [.sqclr true], [.sqclr false], [.licr], [.licx]] : List (List Release)),
      plainCommit (releasing holding rs) 8 0 ∧ licHolds (releasing holding rs) 8 0 = true ∧ (getCtx (releasing holding rs) 8 0).acts = [] ∧
      (getCtx (releasing holding rs) 8 0).releases = rs ∧ (getPair (releasing holding rs) (pairOf 8)).moving.contains 8 = false ∧
      ((getPair (releasing holding rs) (pairOf 8)).reqs.any fun r => r.core == 8 && r.x == 0) = false) := by
  unfold plainCommit; decide +kernel

/-- A bundle of four slots in tile 0 of tensor 0, at address 16: two moves to g0, two vector moves with a guard that fails. -/
def coded (n : BitVec 48) : State :=
  { withCtx wired 0 fun k => { k with pc := n } with
    latch := State.reset.latch
    mem := ⟨wired.mem.cells ++ [(0x300012, 0xC0), (0x300013, 0x02), (0x300016, 0xC0), (0x300017, 0x02), (0x30001A, 0x08), (0x30001B, 0x20),
      (0x30001D, 0x04), (0x30001E, 0x08), (0x30001F, 0xA0)]⟩ }
/-- What the current context presents in its core cycle, with the state in which it does so. -/
def shown (s : State) : Shown × State :=
  let s1 := takeCurrent (refreshBlocks (countCycle (settleBal s s.focus) s.focus) [0, 1, 2, 3])
  (present s1, afterShown s1)
def readyNow (s : State) : Bool :=
  match shown s with
  | (.ready ws ps n, s2) => decide (ws.length = 4 ∧ ps.length = 4 ∧ n = 32 ∧ ((namedBanks s2 ps).all fun b => bankSt (myCore s2) b != 1) = true ∧
      engineCharge s2 s.focus + (ps.map fun p => slotWeight s2 s.focus p.i).sum ≤ (myCore s2).ebal)
  | _ => false
def faultNow (s : State) : Bool := match shown s with | (.fault _, _) => true | _ => false
def idleNow (s : State) : Bool :=
  match shown s with | (.nothing, s2) => (myCore s2).mma.isNone && (myCore s2).drain.isNone | _ => false

/-- An SQLD whose entry is due; a product of one beat over a format with no scales; a drain that is over. -/
def engine : State :=
  let t : Tile := { Tile.off with v := true, fmt := 3, bytes := 64 }
  let j : MmaJob :=
    { x := 0, z := 1, ta := t, tb := t, na := 0, nb := 1, key := 0, tr := false, tbT := false, acc := true, beats := 1, u := 0, e := 2,
      sa := [], sb := [], slot := 0, word := 0, pc := 0, due := true, dead := false }
  let d : DrainJob :=
    { x := 0, kind := .zst, z := 1, z2 := 0, t := 2, tile := t, epi := 0, fpm := false, key := 0, beats := 32, u := 32, e := 2,
      flags := 0, under := 0, sat := 0, bank := .reset }
  setCore calm 8 { myCore calm with
    sqa := { ScaleQ.reset with pend := [(0, [1, 2])] }, sqb := { ScaleQ.reset with pend := [(0, [3])] }, mma := some j, drain := some d }

/-- A product of BX16 tiles whose queues hold nothing, an SQLD of queue A under way or not; a product rolled back. -/
def hungry (sqld : Bool) : State :=
  match (getCore engine 8).mma with
  | some j => setCore calm 8 { myCore calm with
      mma := some { j with ta := { j.ta with fmt := 1 }, tb := { j.tb with fmt := 1 } }
      sqa := if sqld then { ScaleQ.reset with pend := [(2, [1])] } else .reset
      sqb := if sqld then { ScaleQ.reset with pend := [(2, [1])] } else .reset }
  | none => calm
/-- The same with an entry in each queue, at a beat that begins a block; a product that starts from 0; a drain in progress. -/
def feeding (acc : Bool) : State :=
  match (getCore (hungry false) 8).mma with
  | some j => setCore calm 8 { myCore calm with
      mma := some { j with acc := acc }, sqa := { ScaleQ.reset with cnt := 1, wr := 1 }, sqb := { ScaleQ.reset with cnt := 1, wr := 1 } }
  | none => calm
def beating (kind : DrainKind) : State :=
  match (getCore engine 8).drain with
  | some j => setCore calm 8 { myCore calm with drain := some { j with kind := kind, u := 3 } }
  | none => calm
def lame : State :=
  match (getCore engine 8).mma with | some j => setCore calm 8 { myCore calm with mma := some { j with dead := true } } | none => calm

theorem meets_CoreCycles :
    (let s0 := countCycle (settleBal (coded 16) 8) 8
     (myCore s0).stall = 0 ∧ scaleStall s0 8 = false ∧ issueHeld s0 8 = false) ∧
    readyNow (coded 16) = true ∧ faultNow (coded 18) = true ∧
    (let s := withCtx (setCore (coded 16) 8 (getCore (beating .zld) 8)) 0 fun k => { k with status := .free }
     (match shown s with
      | (.nothing, s2) => (myCore s2).drain.isSome && decide (engineCharge s2 s.focus ≤ (myCore s2).ebal)
      | _ => false) = true) ∧
    idleNow (withCtx (coded 16) 0 fun k => { k with status := .free }) = true := by decide +kernel

theorem meets_EngineBeats :
    (getCore engine 8).sqa.pend = (0, [1, 2]) :: [] ∧ (getCore engine 8).sqb.pend = (0, [3]) :: [] ∧ (getCore calm 8).mma = none ∧
    (∃ j, (getCore engine 8).mma = some j ∧ j.due = true ∧ j.dead = false ∧ beatDraws j = false ∧ j.acc = true) ∧
    (∀ q, ∃ j, (getCore (hungry q) 8).mma = some j ∧ j.due = true ∧ j.dead = false ∧ beatEmpty (hungry q) 8 j = true ∧ beatWaits (hungry q) 8 j = q) ∧
    (∀ b, ∃ j, (getCore (feeding b) 8).mma = some j ∧ j.due = true ∧ j.dead = false ∧ beatDraws j = true ∧ beatEmpty (feeding b) 8 j = false ∧
      j.acc = b ∧ j.u = 0) ∧
    (∀ k, ∃ j, (getCore (beating k) 8).drain = some j ∧ j.kind = k ∧ j.u < 16 ∧ inArea 0 = false) ∧
    (∃ j, (getCore (lame) 8).mma = some j ∧ j.due = true ∧ j.dead = true) ∧
    (getCore calm 8).drain = none ∧
    (∃ j, (getCore engine 8).drain = some j ∧ j.beats ≤ j.u ∧ j.kind = .zst) :=
  ⟨by decide +kernel, by decide +kernel, by decide +kernel, ⟨_, rfl, by decide +kernel⟩,
    fun q => by cases q <;> exact ⟨_, rfl, by decide +kernel⟩, fun b => by cases b <;> exact ⟨_, rfl, by decide +kernel⟩,
    fun k => by cases k <;> exact ⟨_, rfl, by decide +kernel⟩, ⟨_, rfl, by decide +kernel⟩, by decide +kernel, _, rfl, by decide +kernel⟩

def copying (q : CopyCmd) : State := withCtx wired 0 fun k => { k with copyq := [q] }
/-- A message from memory stack 0 to die 0 is on its way again. -/
def gapped (s : State) : State := setLink s 17 0 { Link.reset with next := 5 }
/-- A relay whose receiving tile on core 9 is empty. -/
def relaying (st : TileState) (n : Nat) (frozen : Bool) : State :=
  let q := { cmd .cpmc 64 true false with held := if n = 0 then [] else [(9, 0)], fmt := 1, base := 0 }
  let s := setCtx { copying q with now := n } 9 0 { getCtx (copying q) 9 0 with
    live := { Regs.reset with tiles := Tab.empty.set 2 { Tile.off with v := true, fmt := 1, bytes := 64, st := st } } }
  setCore s 8 { getCore s 8 with engineFrozen := frozen }
/-- What of a copy command a delivery looks at first. -/
def delivers (s : State) (q : CopyCmd) : Bool × Bool :=
  (copyBroken s 8 q, deliveryWaits s 8 q (nextPiece s 8 0 q))

theorem meets_CopiesDeliver :
    (∀ q ∈ [cmd .cpin 0 true true, cmd .cpin 64 true false, cmd .cpsc 32 true false, cmd .cpcl 64 true false, cmd .cpin 64 false false],
      ownerOf (copying q) 9 = some (8, 0) ∧ findCmd (getAny (copying q) 8 0) 9 = some q ∧
        takeReplay (copying q) 8 (isRow (getAny (copying q) 8 0).run q.seq 0) = none ∧
        takeReplay (copying q) 8 (isPiece (getAny (copying q) 8 0).run q.seq) = none) ∧
    (∀ q ∈ [cmd .cpin 64 true false, cmd .cpsc 32 true false, cmd .cpcl 64 true false], delivers (copying q) q = (false, false)) ∧
    (let q := { cmd .cpin 64 true false with frames := [(0, some 0x300000)] }
     (ownerOf (gapped (copying q)) 9 = some (8, 0) ∧ findCmd (getAny (gapped (copying q)) 8 0) 9 = some q ∧
       delivers (gapped (copying q)) q = (false, true) ∧ homesPass (gapped (copying q)) 8 (copyHomes (gapped (copying q)) q) = false) ∧
     findCmd (getAny (severed (copying q)) 8 0) 9 = some q ∧ copyBroken (severed (copying q)) 8 q = true ∧
     (let p := { q with kind := .cpmc }
      findCmd (getAny (severed (copying p)) 8 0) 9 = some p ∧ p.served.contains 9 = false ∧ copyBroken (severed (copying p)) 8 p = true)) ∧
    (∃ q, findCmd (getAny (relaying .empty 0 false) 8 0) 9 = some q ∧ homesPass (relaying .empty 0 false) 8 (copyHomes (relaying .empty 0 false) q) = true ∧
      takeReplay (relaying .empty 0 false) 8 (isRow (getAny (relaying .empty 0 false) 8 0).run q.seq 9) = none ∧ q.served.contains 9 = false ∧ q.started = true ∧
      copyBroken (relaying .empty 0 false) 8 q = false ∧
      (relayTile (relaying .empty 0 false) 9 q).any (fun r => decide (r.2.2.st = .empty)) = true ∧ relayTile (relaying .empty 0 false) 10 q = none) ∧
    (∃ q, findCmd (getAny (relaying .ready 0 false) 8 0) 9 = some q ∧
      (relayTile (relaying .ready 0 false) 9 q).any (fun r => decide (r.2.2.st ≠ .empty)) = true) ∧
    (∃ q, findCmd (getAny (relaying .ready (2 ^ 20) false) 8 0) 9 = some q ∧ (getCore (relaying .ready (2 ^ 20) false) 8).engineFrozen = false ∧
      relayExpired (relaying .ready (2 ^ 20) false) 8 q = true) ∧
    (∃ q, findCmd (getAny (relaying .ready (2 ^ 20) true) 8 0) 9 = some q ∧ (getCore (relaying .ready (2 ^ 20) true) 8).engineFrozen = true ∧
      relayExpired (relaying .ready (2 ^ 20) true) 8 q = true) :=
  ⟨by decide +kernel, by decide +kernel, by decide +kernel, ⟨_, rfl, by decide +kernel⟩, ⟨_, rfl, by decide +kernel⟩, ⟨_, rfl, by decide +kernel⟩, _, rfl, by decide +kernel⟩

/-- Bytes 0 to 19 and 44 to 63 of two rows still due: byte 50 can come next, alone. -/
theorem meets_PiecesInAnyOrder :
    (let q := { cmd .cpin 64 true false with todo := [(0, 20), (44, 20)] }
     0 < q.wide ∧ takeReplay (copying q) 8 (isPiece (getAny (copying q) 8 0).run q.seq) = none ∧ (∀ r ∈ q.todo, 0 < r.2) ∧
       (∃ r ∈ q.todo, r.1 ≤ 50 ∧ 50 < r.1 + r.2) ∧ q.todo.Pairwise (fun a b => a.1 + a.2 ≤ b.1) ∧
       (44, 20) ∈ q.todo ∧ 44 ≤ 50 ∧ 50 + 1 ≤ 44 + 20) := by decide +kernel

/-- One staging frame of tile 2 of tensor 0 under a publication of the tensor. -/
def staged : State := withCtx wired 0 fun k => { k with pubq := [⟨0, 4⟩], outFrames := [⟨2, 0x500000, 3, 3, [(0, 16)]⟩] }

/-- The same sent once before by an earlier run of its context; frames of two tiles, two of them for tile 2. -/
def published : State :=
  withCtx staged 0 fun k => { k with redo := [(4, SendKind.publ.code)] }
def staged3 : State :=
  withCtx wired 0 fun k => { k with
    pubq := [⟨0, 4⟩]
    outFrames := [⟨2, 0x500000, 3, 3, [(0, 16)]⟩, ⟨0, 0x510000, 3, 3, [(0, 16)]⟩, ⟨2, 0x520000, 3, 3, [(8, 16)]⟩] }

theorem meets_PublicationsSwap :
    duePub (getCtx calm 8 0) = none ∧
    (duePub (getCtx published 8 0) = some ⟨0, 4⟩ ∧ sentBefore published 8 0 4 SendKind.publ.code = true) ∧
    (duePub (getCtx staged 8 0) = some ⟨0, 4⟩ ∧ pubFrames (getCtx staged 8 0) ⟨0, 4⟩ = [⟨2, 0x500000, 3, 3, [(0, 16)]⟩] ∧
      sentBefore staged 8 0 4 SendKind.publ.code = false ∧
      (getProc staged (getCtx staged 8 0).pid).tensors.find (2 / 2 ^ 48) = some lay) ∧
    (duePub (getCtx staged3 8 0) = some ⟨0, 4⟩ ∧ sentBefore staged3 8 0 4 SendKind.publ.code = false ∧
      (let fs := pubFrames (getCtx staged3 8 0) ⟨0, 4⟩
       fs.length = 3 ∧ (fs.map fun f => f.frame).Nodup ∧ (∀ f ∈ fs, f.frame % 65536 = 0 ∧ f.frame < 2 ^ 40 ∧ (∀ r ∈ f.spans, r.1 + r.2 ≤ 65536) ∧
         (∀ i, i < 8 → inArea (0x200000 + 8 * f.key + i) = false) ∧
         ∀ g ∈ fs, 0x200000 + 8 * f.key + 8 ≤ g.frame ∧ f.key < 16 ∧ g.frame ≠ 0x300000) ∧
       entryAt staged3 lay 0 / 2 ^ 62 = 1 ∧ frameOf staged3 (entryAt staged3 lay 0) = 0x300000 ∧ entryAt staged3 lay 2 = 0) ∧
      ∀ e ∈ staged3.dies.cells, e.2.l2 = .empty) := by decide +kernel

/-- The pair of core 8 changed. -/
def withPair (s : State) (f : Pair → Pair) : State := setPair s (pairOf 8) (f (getPair s (pairOf 8)))
def request : LicReq := ⟨8, 0, 0, 0, false⟩
/-- The gap after which a grant holds; a ZXT's move under EXCL and under ALT; a state on its way back to its core. -/
def passing : State := withPair calm fun p => { p with st := .passing, grantee := some request }
def moved (alt : Bool) : State := withPair calm fun p => { p with moving := [8], mode := alt, st := if alt then .alt else .lower, holder := some (8, 0), altLower := some 0 }
def stored : Parked := { parkedState with bySave := false }
def returning : State := withCtx holding 0 fun k => { k with restoring := true, mstate := some stored }

theorem meets_LicencePasses :
    (let p := getPair passing (pairOf 8)
     p.grantee = some request ∧ p.st = .passing ∧ p.gapEnd ≤ passing.now) ∧
    (getPair calm (pairOf 8)).grantee = none ∧ (zxtOver calm 8 0 = false ∧ moveBackOver calm 8 0 = false) ∧
    (∀ alt, let q := getPair (moved alt) (pairOf 8)
      zxtOver (moved alt) 8 0 = true ∧ q.mode = alt ∧ q.reqs = [] ∧ (getCtx (moved alt) 8 0).status ≠ .parking) ∧
    (let s := withPair (moved false) fun p => { p with reqs := [⟨136, 1, 7, 0, false⟩] }
     let q := getPair s (pairOf 8)
     let m := { q with moving := q.moving.filter (· != 8) }
     zxtOver s 8 0 = true ∧ parkedTaker s m (8, 0) = some ⟨136, 1, 7, 0, false⟩ ∧ q.pendMode = none ∧
       zxtOver (withPair s fun p => { p with pendMode := some true }) 8 0 = true) ∧
    (getCtx calm 8 0).restoring = false ∧ (moveBackOver returning 8 0 = true ∧ parkedOf returning 8 0 = some stored) ∧
    (let p := getPair (withPair calm fun p => { p with pendMode := some true }) (pairOf 8)
     p.pendMode = some true ∧ p.st = .free ∧ p.freeLower ≤ calm.now ∧ p.freeUpper ≤ calm.now ∧ p.reqs = []) ∧
    ((getPair calm (pairOf 8)).pendMode = none ∧ (1 : Word).toNat < 2 ∧ 2 ≤ (2 : Word).toNat) :=
  ⟨by decide +kernel, by decide +kernel, by decide +kernel, fun alt => by cases alt <;> decide +kernel, by decide +kernel, by decide +kernel,
    by decide +kernel, by decide +kernel, by decide +kernel⟩

theorem meets_PowerRegisters :
    valueOk 0x182 1 = true ∧ valueOk 0x184 0x100804020100000A = true ∧ valueOk 0x181 0xFFFF = true ∧ valueOk 0x189 400 = true ∧
    (valueOk 0x188 2 = true ∧ (getCore calm 8).inService.getLsbD 0 = true ∧ (2 : Word).toNat / 4 ^ 0 % 4 = 2 ∧ bankHeld calm 9 0 = false ∧
      bankHeld calm 8 0 = true) ∧
    ((getCore calm 8).rbend.find 0 = none ∧ (getCore calm 8).rbwake.find 0 = none) ∧
    (let s := setCore calm 8 { getCore calm 8 with rbwake := Tab.empty.set 3 0 }
     (getCore s 8).rbwake.find 3 = some 0) ∧
    (calm.now % 16 = 0 ∧ ({ calm with now := 5 } : State).now % 16 ≠ 0 ∧ (getDie calm (dieOf 9)).eprofAt ≠ calm.now + 1) ∧
    (let s := setCore calm 8 { getCore calm 8 with rbend := Tab.empty.set 3 0 }
     (getCore s 8).rbend.find 3 = some 0 ∧ 0 ≤ s.now) := by decide +kernel

theorem meets_RegisterWrites :
    valueOk 0x030 0 = true ∧ valueOk 0x030 2 = false ∧ regKnown 0x3FF = false ∧
    (regKnown 0x030 = true ∧ regRO (isMgmt 8) 0x030 = false ∧ ctxHeld 0x030 = true) ∧
    (regKnown 0x100 = true ∧ regRO (isMgmt 2048) 0x100 = false ∧ valueOk 0x100 64 = true ∧ isMgmt 2048 = true ∧ ctxHeld 0x100 = true) ∧
    (let s := { setCtx calm 2048 0 { getCtx calm 2048 0 with status := .asleep, live := { Regs.reset with mgwake := 2 } } with
      dies := Tab.empty.set 0 { Die.reset with wakereq := 1 } }
     (getCtx s 2048 0).status = .asleep ∧ wakeHolds s 2048 0 = true) ∧
    (getCtx calm 8 0).status ≠ .asleep := by decide +kernel

/-- Cluster 1 in a state of Table 20.7, with a step under way or not. -/
def gated (st req : Nat) (busy : Bool) : State := setCluster calm 1 { Cluster.reset with st := st, req := req, busy := busy }

theorem meets_ClusterSteps :
    (∀ n ∈ [0, 1, 2, 3, 4], (getCluster (gated n 0 false) 1).busy = false ∧ (getCluster (gated n 0 false) 1).st = n) ∧
    (getCluster (gated 1 2 true) 1).busy = true ∧ stepOver calm 1 = false ∧ stepOver (gated 2 3 true) 1 = true ∧
    (8 ∈ coresOfCluster 1 ∧ preemptable { calm with serai := { calm.serai with slots := 1 } } 8 0 = true) := by decide +kernel

theorem meets_FleetRegisters :
    valueOk 0x1C4 0x0000000000010100 = true ∧ valueOk 0x1C4 1 = false ∧ (0x1FF : Word).toNat < 2 ^ 9 ∧ calm.pkg.fabPend = [] ∧
    ({ calm with pkg := { calm.pkg with fabPend := [5, 6] } } : State).pkg.fabPend = 5 :: [6] := by decide +kernel

/-- An image pool of two slots; a context of core 8 in slot 0, its save over or still running. -/
def image (k : Ctx) : Image :=
  { ctx := k, core := 8, x := 0, trapped := false, frozen := false, licheld := false, coretied := true, mloc := 0, cause := 0, task := none,
    saving := false, target := none }
def pooled (f : Image → Image) : State :=
  { calm with serai := { calm.serai with slots := 2, images := Tab.empty.set 0 (f (image { Ctx.reset with pid := 1, pc := 64 })) } }
/-- The same with die 0 its process's, or with a message from the Serai to it on its way again. -/
def owned (f : Image → Image) : State := setDie (pooled f) 0 { getDie (pooled f) 0 with tag := some 1 }
def gapped16 (s : State) : State := setLink s 16 0 { Link.reset with next := 5 }
def draining : State := withCtx (pooled fun i => { i with saving := true }) 0 fun k => { k with status := .saving }

theorem meets_ContextsMove :
    preemptable (pooled id) 8 0 = true ∧ preemptable calm 8 0 = false ∧
    (let s := withCtx (pooled id) 0 fun k => { k with status := .trapped, pend := some ⟨0x0F, 0, false, 0, 0⟩ }
     (getCtx s 8 0).status = .trapped ∧ (getCtx s 8 0).pend.isSome = true ∧ (freeSlot s).isSome = true) ∧
    ((getCtx calm 8 0).pend = none ∧ freeSlot calm = none) ∧
    (let s := withCtx calm 0 fun k => { k with status := .waiting, count := 0, loads := [plainLoad] }
     (getCtx s 8 0).status = .waiting ∧ (getCtx s 8 0).count = 0) ∧
    saveEnds calm 0 = false ∧ (saveEnds draining 0 = true ∧ (draining.serai.images.find 0).any (fun i => decide (i.x < 4)) = true) ∧
    calm.serai.images.find 0 = none ∧
    (∃ i, (pooled fun i => { i with trapped := true }).serai.images.find 0 = some i ∧ i.trapped = true) ∧
    (∃ i, (pooled id).serai.images.find 0 = some i ∧ restorable i = true ∧ i.coretied = true ∧ i.target = none ∧
      restoreTarget (owned id) 0 i = some (i.core, 1) ∧ i.core = 8 ∧ i.task = none ∧ i.ctx.task = none ∧
      (coreReady (owned id) 8 i.ctx.pid i.ctx.vregs).2 = true) ∧
    (∃ i, (pooled id).serai.images.find 0 = some i ∧ (coreReady (gapped16 (pooled id)) 8 i.ctx.pid i.ctx.vregs).2 = false ∧
      restoreTarget (gapped16 (pooled id)) 0 i = some (i.core, 1)) ∧
    (stalled (pooled id) 8 = false ∧ (let s := setCore (pooled id) 8 { getCore (pooled id) 8 with stall := 2 }
      stalled s 8 = true ∧ preemptable s 8 0 = true)) ∧
    (let s := withCtx calm 0 fun k => { k with stopping := true, pend := some ⟨0x0F, 0, false, 0, 0⟩ }
     (getCtx s 8 0).stopping = true ∧ (getCtx s 8 0).pend = some ⟨0x0F, 0, false, 0, 0⟩) :=
  ⟨by decide +kernel, by decide +kernel, by decide +kernel, by decide +kernel, by decide +kernel, by decide +kernel, by decide +kernel,
    by decide +kernel, ⟨_, rfl, by decide +kernel⟩, ⟨_, rfl, by decide +kernel⟩, ⟨_, rfl, by decide +kernel⟩, by decide +kernel,
    by decide +kernel⟩

/-- A manifest of one index along one axis of grain 1, its task over the extent 4, and its index. -/
def tset : SetRec := ⟨0, 2, 0, 0, 0, 0, 1⟩
def man : Manifest :=
  { seq := 1, pid := 1, entry := 64, args := List.replicate 8 5, grains := [1, 1, 1, 1], claimts := 4096, claimsl := 0, claimcy := 100,
    fixed := false, coded := false, code := 0, vregs := 16, nax := 1, evmask := 0, cmpl := 0, ntask := 1, levels := [(5, 0)],
    recs := [⟨3, 0, 0, 0, 0, 1, [0, 0, 0, 0], [4, 1, 1, 1]⟩], sets := [{ tset with step0 := 1 }], inst0 := 0, root := 1, nsplit := 0, failed := none,
    underzero := 0, satblk := 0, entered := true, bad := false, replicas := [], ncar := 0, fabric := false, outpl := 0 }
def job : Task :=
  { seq := 1, index := 0, depth := 0, prio := 3, pid := 1, fixed := false, lo := [0, 0, 0, 0], hi := [4, 1, 1, 1], requeues := 0, st := .ready,
    stack := 0, cluster := 1, order := 0, since := 0, core := 9, x := 0, slot := 0, shadows := [], spares := [], car := none, member := 0, notBefore := 0,
    refusals := 0, inNode := true, under := 0, sat := 0 }
def entry0 : Index :=
  { seq := 1, index := 0, counter := 0, deps := [], isReady := true, live := 1, complete := false, failed := none, published := [], placed := false }
/-- A package with that manifest, its task in entry 7, and die 0 for process 1. -/
def queued (m : Manifest) (t : Task) (ix : Index) (tag : Option Nat) : State :=
  { wired with
    serai := { wired.serai with manifests := Tab.empty.set 1 m, indices := Tab.empty.set (idxKey 1 0) ix, tasks := Tab.empty.set 7 t }
    dies := Tab.empty.set 0 { Die.reset with tag := tag } }
def ready1 : State := queued man job entry0 (some 1)
/-- A manifest that claims two slice words per grain, its task in entry 7. -/
def sliced : State := queued { man with claimsl := 0x0000000200000000 } job entry0 (some 1)
/-- The same where another context of the core holds all of its tile store. -/
def crowded : State := setCtx ready1 9 1 { getCtx ready1 9 1 with vregs := 16, live := { Regs.reset with claimb := Config.tileStoreBytes } }

theorem meets_TaskPlacements :
    (getTask ready1 7 = some job ∧ manifestOf ready1 job.seq = some man) ∧
    (placeable ready1 job man 8 0 = false ∧ placeable ready1 job man 9 0 = true ∧ firstInLine ready1 job 9 0 = true) ∧
    (let s := queued man job entry0 none
     placeable s job man 9 0 = true ∧ firstInLine s job 9 0 = true ∧ mayPass s 16 (dieOf 9) = true ∧ dieReady s (dieOf 9) job.pid = false ∧
       (getDie s (dieOf 9)).clearing = none ∧ (coreReady s 9 job.pid man.vregs).2 = false) ∧
    (coreReady ready1 9 job.pid man.vregs = (ready1, true) ∧ findRegs ready1 9 man.vregs = some 0 ∧
      claimOf man.claimts (grainCells man job) ≤ Config.tileStoreBytes ∧ claimOf man.claimts (grainCells man job) ≤ freeTileStore ready1 9 0 ∧
      claimOf man.claimsl (grainCells man job) = 0 ∧ man.args.length = 8 ∧ job.lo.length = 4 ∧ job.hi.length = 4) ∧
    (getTask crowded 7 = some job ∧ manifestOf crowded job.seq = some man ∧ placeable crowded job man 9 0 = true ∧
      firstInLine crowded job 9 0 = true ∧ coreReady crowded 9 job.pid man.vregs = (crowded, true) ∧ findRegs crowded 9 man.vregs = some 0 ∧
      claimOf man.claimts (grainCells man job) ≤ Config.tileStoreBytes ∧ claimOf man.claimsl (grainCells man job) ≤ Config.sliceWords ∧ freeTileStore crowded 9 0 < claimOf man.claimts (grainCells man job) ∧ job.requeues + 1 < 4) ∧
    (let m := { man with claimsl := 0x0000000200000000 }
     getTask sliced 7 = some job ∧ manifestOf sliced 1 = some m ∧ placeable sliced job m 9 0 = true ∧ firstInLine sliced job 9 0 = true ∧
       coreReady sliced 9 job.pid m.vregs = (sliced, true) ∧ findRegs sliced 9 m.vregs = some 0 ∧ claimOf m.claimsl (grainCells m job) = 8 ∧
       sliceWindow sliced 9 0 8 = some 0) ∧
    (getDie calm 0).clearing = none ∧ (getDie (setDie calm 0 { Die.reset with clearing := some (1, 0) }) 0).clearing = some (1, 0) ∧
    (let s := setDie calm 0 { Die.reset with clearing := some (1, 0), ckpt := some ⟨1, 0, [(8, 0, Ctx.reset)], .empty, [], [(2 ^ 32, 0)], [], 0⟩ }
     (getDie s 0).clearing = some (1, 0) ∧ (getDie s 0).ckpt.isSome = true ∧ onDie 0 (2 ^ 44) = true) := by
  decide +kernel

/-- The task on context 0 of core 8, with its allowance used up. -/
def spent (f : Task → Task) : State :=
  withCtx (queued man (f { job with st := .placed, core := 8, x := 0 }) entry0 (some 1)) 0 fun k => { k with task := some 7, allow := 0 }
/-- A task of priority 3 that has waited while tasks of priority 1 hold every context of the cluster. -/
def waited : State :=
  let low : Task := { job with prio := 1, st := .placed, core := 8, x := 0 }
  let s := (List.range 32).foldl (fun (s : State) n => setCtx s (8 + n / 4) (n % 4) { Ctx.reset with status := .running, pid := 1, task := some 8 }) ready1
  { s with now := 65536, serai := { s.serai with slots := 1, tasks := s.serai.tasks.set 8 low } }

theorem meets_AllowanceEnds :
    allowOut calm 8 0 = false ∧
    (allowOut (spent fun t => { t with fixed := true }) 8 0 = true ∧
      (getTask (spent fun t => { t with fixed := true }) 7).any (fun t => t.fixed) = true) ∧
    (allowOut (spent id) 8 0 = true ∧ (getCtx (spent id) 8 0).task = some 7 ∧ (getTask (spent id) 7).any (fun t =>
      !t.fixed && t.car.isNone && t.depth != 255 && widest man t (splitCands man t) == some 0) = true ∧ manifestOf (spent id) 1 = some man) ∧
    prewaitVictim calm 1 = none ∧ (prewaitVictim waited 1).isSome = true := by decide +kernel

def retired : State := withCtx (spent id) 0 fun k => { k with status := .halted }
/-- Two indices: the first writes tile 3 and is live; the task of the second, which writes tiles 2 and 3, has retired. -/
def man2 : Manifest :=
  { man with ntask := 2, sets := [{ tset with first := 3 }, { tset with count := 2 }], recs :=
    [⟨3, 0, 0, 0, 0, 1, [0, 0, 0, 0], [4, 1, 1, 1]⟩, ⟨3, 0, 0, 0, 1, 1, [0, 0, 0, 0], [4, 1, 1, 1]⟩] }
def goneBy : Task := { job with index := 1, st := .publishing, shadows := [(2, 0x500000)] }
def publishing : State :=
  let s := queued man2 goneBy entry0 (some 1)
  { s with serai := { s.serai with indices := s.serai.indices.set (idxKey 1 1) { entry0 with index := 1 } } }

theorem meets_TasksRetire :
    (getTask ready1 7 = some job ∧ retires ready1 8 0 = false ∧ pubMoves ready1 7 = false) ∧
    (retires retired 8 0 = true ∧ (getCtx retired 8 0).task = some 7 ∧ (getTask retired 7).any (fun t => t.car.isNone) = true ∧
      (getCtx retired 8 0).outFrames = [] ∧ (getCtx retired 8 0).ghost = false ∧ job.index < outerBase) ∧
    (let s := withCtx retired 0 fun k => { k with ghost := true }
     retires s 8 0 = true ∧ (getCtx s 8 0).ghost = true) ∧
    (getTask publishing 7 = some goneBy ∧ pubMoves publishing 7 = true ∧ getIndex publishing (taskKey goneBy) = some { entry0 with index := 1 } ∧
      entry0.isLive = true ∧ (runTiles (taskRuns publishing goneBy)).all (entry0.published ++ (publishable publishing goneBy).filter
        fun a => !entry0.published.contains a).contains = false ∧
      2 ∈ publishable publishing goneBy ∧ (getProc publishing 1).tensors.find (2 / 2 ^ 48) = some lay) := by decide +kernel

/-- A manifest image at byte 0x1000 of tensor 0: version 1, one level of code 5, grain 1, one task of extent 1 on every axis. -/
def imaged (version : Byte) (vacant : Bool) : State :=
  { wired with
    mem := ⟨wired.mem.cells ++ [(0x301006, 1), (0x301007, version), (0x301050, 1), (0x301054, 1), (0x301058, 1), (0x30105C, 1), (0x301088, 1), (0x301100, 5), (0x3011A0, 1), (0x3011A4, 1),
      (0x3011A8, 1), (0x3011AC, 1)]⟩
    serai := { wired.serai with launches := if vacant then [] else [⟨1, 0x1000, 7, 0, 0, none, 0, 0, false, none, false⟩] } }

theorem meets_ManifestsEnter :
    (imaged 1 true).serai.launches = [] ∧
    (∀ v ∈ ([1, 2] : List Byte), let s := imaged v false
      let q := s.serai.mseq
      let u := { s with serai := { s.serai with mseq := q + 1 } }
      (readManifest u 1 1 0x1000 7 q).2 = decide (v = 1)) ∧
    (let s := imaged 1 false
     let l : Launch := ⟨1, 0x1000, 7, 0, 0, none, 0, 0, false, none, false⟩
     let q := s.serai.mseq
     let u := { s with serai := { s.serai with mseq := q + 1 } }
     let m : Manifest := { (readManifest u 1 1 0x1000 7 q).1 with fabric := false, bad := false }
     let w := { u with serai := { u.serai with manifests := u.serai.manifests.set q.toNat m, launches := [{ l with seq := some q }] } }
     s.serai.launches = [l] ∧ s.host.reports.length < Config.reportStore ∧ indexCount m + (outerTasks w m).length ≤ (freeEntries w).length ∧ chooseInstance w m { l with seq := some q } = some 0 ∧ m.ntask = 1) := by
  decide +kernel

/-- A signal of the context on core 8 for index 0 of manifest 1. -/
def signal : Dsig := ⟨8, 0, none, 0, 0x0000000100000000, 0, 0⟩
def signalled (f : Index → Index) : State :=
  let s := queued man job (f entry0) (some 1)
  { s with serai := { s.serai with dsigs := [signal] } }

theorem meets_SignalsApply :
    calm.serai.dsigs = [] ∧
    (∀ n ∈ [0, 1, 2],
      let ix := { entry0 with counter := n, isReady := false }
      let s := signalled fun i => { i with counter := n, isReady := false }
      s.serai.dsigs = [signal] ∧ storesDone s signal.task signal.core signal.x signal.place = true ∧
        mayPass s (coreEnd signal.core) 16 = true ∧ manifestOf s 1 = some man ∧
        man.entered = true ∧ signal.v.toNat / 256 % 2 ^ 24 < man.ntask ∧ getIndex s (idxKey 1 0) = some ix ∧ ix.isLive = true) ∧
    standsAt (signalled id) signal.task signal.core signal.x = some (8, 0) := by decide +kernel

/-- A coded manifest of K = 2, M = 1 under a policy, with no write set; a caravan whose data tasks have returned. -/
def coded21 (policy : Nat) : Manifest :=
  { man with coded := true, code := BitVec.ofNat 64 (2 + 16 + 256 * policy + 2 ^ 16 * 100), ntask := 2, sets := [],
             recs := List.replicate 2 ⟨3, 0, 0, 0, 0, 0, [0, 0, 0, 0], [4, 1, 1, 1]⟩ }
def carries (j : Nat) : Task := { job with index := j, car := some 0, member := j, st := if j < 2 then .returned else .placed }
def caravan0 : Caravan := ⟨1, 0, [⟨0, [], 8, 0, 0⟩, ⟨1, [], 9, 0, 0⟩], [], [], none, false, false, [], [0, 0, 0, 0], [1, 1, 1, 1], false⟩
def hauling (policy : Nat) (c : Caravan) : State :=
  { wired with serai := { wired.serai with
      manifests := Tab.empty.set 1 (coded21 policy), caravans := Tab.empty.set (carKey 1 0) c
      tasks := ((Tab.empty.set 1 (carries 0)).set 2 (carries 1)).set 3 (carries 2) } }
def decodes (s : State) (m : Manifest) (c : Caravan) : Bool :=
  !(lostMembers s m 0 c).any c.reissued.contains && stillPossible s m 0 c && decodeNow s m 0 c && hasUnit s (carKey m.seq 0) &&
    !isReplica m 0 c.q && !outerCoded m &&
    match decodeCoded s m 0 (usableReturns s m.seq 0 m.pid c) with | .publish [] _ => true | _ => false

theorem meets_CaravansDecode :
    (getCaravan calm 1 0 = none ∧ manifestOf calm 1 = none) ∧
    (getCaravan (hauling 2 caravan0) 1 0 = some caravan0 ∧ manifestOf (hauling 2 caravan0) 1 = some (coded21 2) ∧ (coded21 2).seq = 1) ∧
    (let c := { caravan0 with returns := [] }
     caravanDue (hauling 2 c) (coded21 2) 0 c = false ∧ c.kth = none) ∧
    (let c := { caravan0 with lost := [2], reissued := [2] }
     c.done = false ∧ (lostMembers (hauling 2 c) (coded21 2) 0 c).any c.reissued.contains = true) ∧
    (decodes (hauling 2 caravan0) (coded21 2) caravan0 = true ∧ publishNow (hauling 2 caravan0) (coded21 2) 0 caravan0 = false ∧
      caravan0.kth = none ∧ deadlineOf (coded21 2) ≠ 0) ∧
    (decodes (hauling 1 caravan0) (coded21 1) caravan0 = true ∧ publishNow (hauling 1 caravan0) (coded21 1) 0 caravan0 = true ∧
      risingKeys (hauling 1 caravan0).serai.tasks.cells = true ∧ (∀ e ∈ (hauling 1 caravan0).serai.tasks.cells, e.1 < Config.depEntries) ∧
      ∀ j, j < codeK (coded21 1) → (usableReturns (hauling 1 caravan0) 1 0 1 caravan0).any (fun r => r.member == j) = true) ∧
    (surplusDue (hauling 1 caravan0) (coded21 1) 0 caravan0 = true ∧
      (let s := hauling 1 caravan0
       let t := { s with serai := { s.serai with units := (List.range 64).foldl (fun (u : Tab Nat) n => u.set n 1) s.serai.units } }
       surplusDue t (coded21 1) 0 caravan0 = true ∧ hasUnit t (carKey 1 0) = false)) ∧
    (let c := { caravan0 with kth := some 0 }
     policyOf (coded21 1) = 1 ∧ c.kth = some 0 ∧ 0 < ({ hauling 1 c with now := 1 } : State).now ∧ getCaravan (hauling 1 c) 1 0 = some c) ∧
    (policyOf (coded21 2) = 2 ∧ 0 + deadlineOf (coded21 2) ≤ ({ hauling 2 { caravan0 with kth := some 0 } with now := 100 } : State).now) := by
  decide +kernel

/-- A page request of context 0 for a byte of tensor 0, or of a tensor that the process does not have. -/
def asking (r : Nat) : PageReq := ⟨8, 0, none, 1, 0, BitVec.ofNat 64 r, 0⟩
def paging (r : Nat) : State := { wired with serai := { wired.serai with pageReqs := [asking r] } }

/-- The same from the task in entry 7, whose completion records start at byte 0x100 of tensor 0. -/
def asked : PageReq := { asking 16 with task := some 7, cmpla := 0x100 }

theorem meets_PagesServed :
    calm.serai.pageReqs = [] ∧
    (∀ r ∈ [16, 65536, 131072, 2 ^ 48, 2 ^ 47], (paging r).serai.pageReqs = [asking r] ∧ settles (paging r) (asking r) = true) ∧
    layoutOf wired 1 (refTid (asking (2 ^ 48)).ref) = none ∧
    (layoutOf wired 1 0 = some lay ∧ locate wired (procCtx 1) (asking (2 ^ 47)).ref = none ∧ locate wired (procCtx 1) (asking 16).ref = some (0, 16) ∧
      entryAt wired lay 0 / 2 ^ 62 = 1 ∧ locate wired (procCtx 1) (asking 131072).ref = some (2, 0) ∧ entryAt wired lay 2 / 2 ^ 62 = 0 ∧
      (let u := setSerai (carry (paging 131072) (coreEnd 8) 16 .plain) fun r => { r with pageReqs := [] }
       entryAt (placeTile u 8 (procCtx 1) 0 2) lay 2 / 2 ^ 62 = 1) ∧ locate wired (procCtx 1) (asking 65536).ref = some (1, 0) ∧ 2 ≤ entryAt wired lay 1 / 2 ^ 62) ∧
    (asking 16).task = none ∧ standsAt (spent id) asked.task asked.core asked.x = some (8, 0) ∧ underReplay (spent id) (coreEnd 8) = false ∧
    (let s1 := (seraiWrite (spent id) 1 0x100 (replyRef (spent id) asked).toNat 8).1
     tensorZero s1 1 0x108 true = (s1, some 0x300108)) := by decide +kernel

/-- A queue, the host interface and the Serai's tables changed. -/
def withQ (s : State) (n : Nat) (f : MQueue → MQueue) : State := setQueue s n (f (getQueue s n))
def bytes (s : State) (a : Nat) (v : List (Nat × Byte)) : State := { s with mem := s.mem.writeCells (v.map fun p => (a + p.1, p.2)) }

theorem meets_HostAccesses :
    (let q := getQueue calm 5
     let v : Word := 0x0000000100000010
     0 < (v.extractLsb' 32 32 - q.tseq).toNat ∧ (v.extractLsb' 32 32 - q.tseq).toNat < 2 ^ 31 ∧
       (q.tail - q.head).toNat ≤ (v.setWidth 32 - q.head).toNat ∧ (v.setWidth 32 - q.head).toNat ≤ ringSize q.base) ∧
    (let q := getQueue calm 5
     let v : Word := 0x0000000100000011
     ¬((v.setWidth 32 - q.head).toNat ≤ ringSize q.base) ∧ 2 ^ 31 ≤ ((0xFFFFFFFF00000000 : Word).extractLsb' 32 32 - q.tseq).toNat) ∧
    (ringEmpty calm 5 = true ∧ ringEmpty (withQ calm 5 fun q => { q with tail := 1 }) 5 = false ∧ ringEmpty calm 64 = true ∧ ringEmpty calm 65 = true) ∧
    ((∀ k, k < 64 → waitsOut (getQueue calm k) = false) ∧ heldCount calm < Config.heldQueues ∧
      (let s := withQ calm 6 fun q => { q with en := 7, tail := 1 }
       heldCount s < Config.heldQueues ∧ waitsOut (getQueue s 6) = true ∧ ∀ j, j < 6 → waitsOut (getQueue s j) = false)) ∧
    (inArea (areaBase 0) = true ∧ inArea 0x1000 = false ∧ carried 0x1001 2 = false ∧ carried 0x1000 3 = false ∧ carried 0x1000 8 = true ∧ 2 ^ 40 - 8 + 8 ≤ 2 ^ 40 ∧ carried (2 ^ 40 - 8) 8 = true) := by
  decide +kernel

/-- Queue 5 is held with one entry, whose sequence number is `h`; the command ring with one command. -/
def enqueued (h : Byte) : State := bytes (withQ calm 5 fun q => { q with held := true, en := 7, tail := 1, pid := 1, base := 0x10000 }) 0x10000 [(1, 0x10), (8, h)]
def commanded (op h : Byte) : State :=
  bytes { calm with host := { calm.host with cmdbase := 0x20000, cmdtail := 1 } } 0x20000 [(1, op), (4, h)]
def reported : State :=
  { calm with host := { calm.host with rpbase := some 0x30000, reports := [⟨1, [0x100000000, 2, 3, 4]⟩] } }

theorem meets_RingsAdvance :
    entryReady calm 5 = false ∧
    (∀ p ∈ ([(1, SeqTest.next), (0, .old), (2, .gap)] : List (Byte × SeqTest)), entryReady (enqueued p.1) 5 = true ∧
      seqTest (getQueue (enqueued p.1) 5).hseq (BitVec.ofNat 32 ((enqueued p.1).mem.readN (ringEntry (getQueue (enqueued p.1) 5).base 16 0 + 8) 8)) = p.2) ∧
    (waitsOut (getQueue calm 6) = false ∧
      (let s := withQ { withQ calm 5 fun q => { q with held := true, en := 7 } with now := 256 } 6 fun q => { q with en := 7, tail := 1 }
       waitsOut (getQueue s 6) = true ∧ longestIdle s = some 5)) ∧
    commandReady calm = false ∧
    (∀ op ∈ ([1, 2, 3, 4, 5, 6, 7, 0, 8] : List Byte), commandReady (commanded op 1) = true ∧ cmdOp (headCommand (commanded op 1)).1 = op.toNat ∧
      seqTest (commanded op 1).host.cmdseq ((headCommand (commanded op 1)).1.extractLsb' 32 32) = .next) ∧
    (seqTest (commanded 1 0).host.cmdseq ((headCommand (commanded 1 0)).1.extractLsb' 32 32) = .old ∧
      seqTest (commanded 1 2).host.cmdseq ((headCommand (commanded 1 2)).1.extractLsb' 32 32) = .gap) ∧
    (canWriteReport calm = false ∧ canWriteReport reported = true) := by decide +kernel

/-- Word 0 of a command of process 1; a record at 0x40000 of a tensor of 16 by 16 elements of one byte in one tile, its table at 0x210000. -/
def op1 (op : Nat) : Word := BitVec.ofNat 64 (2 ^ 32 + 65536 + 256 * op)
def recorded : State :=
  bytes wired 0x40000 [(4, 0x40), (8, 16), (12, 16), (16, 1), (20, 1), (24, 15), (26, 15), (34, 0x21), (40, 1)]
/-- A MAP of a tile under way; a vector load that tile 1's absence leaves without bytes. -/
def mappingTo (w1 : Word) (written : Bool) : State :=
  { wired with serai := { wired.serai with mapping := some ⟨op1 2, w1, 0, written⟩ } }
def missing : LongLoad := { plainLoad with ref := 65536, parts := [⟨0, [], []⟩] }
def evicting (op : Nat) (w1 : Word) : State := { wired with serai := { wired.serai with evicting := [(op1 op, w1)] } }

theorem meets_CommandsRun :
    ((getProc wired 1).tensors.find 0).isSome = true ∧ (getProc wired 1).tensors.find 5 = none ∧ layoutOk recorded 0x40000 = true ∧
    layoutOk wired 0x40000 = false ∧ cmdPid (op1 1) = 1 ∧
    ((beingEvicted (evicting 3 0) 1 0 = true ∧ beingMapped (mappingTo 1 false) 1 1 = true) ∧ wired.serai.mapping = none ∧
      ((mappingTo 1 false).serai.mapping.isSome = true)) ∧
    (let w1 : Word := 1
     let mp : Mapping := ⟨op1 2, w1, 0, false⟩
     mapBlocked wired mp = false ∧ anyCtx wired (stillMisses 1 0) = false ∧
       anyCtx (withCtx wired 0 fun k => { k with loads := [missing] }) (stillMisses 1 0) = true ∧
       mapBlocked (withCtx wired 0 fun k => { k with loads := [missing] }) mp = false ∧
       mapBlocked (withCtx wired 0 fun k => { k with copyq := [{ cmd .cpout 0 true false with frames := [(1, none)] }] }) mp = true) ∧
    (beingEvicted wired 1 (5 * 2 ^ 48) = false ∧ layoutOf wired 1 (5 * 2 ^ 48 / 2 ^ 48) = none) ∧
    (beingEvicted wired 1 1 = false ∧ layoutOf wired 1 0 = some lay ∧ lay.ntile ≤ 16 ∧ entryAt wired lay 0 / 2 ^ 62 = 1 ∧ entryAt wired lay 1 / 2 ^ 62 ≠ 1 ∧
      wired.serai.pending = [] ∧ inPool wired 1 0 = false) ∧
    (let s := setProc ready1 1 { getProc ready1 1 with pool := some 0 }
     inPool s 1 0 = true) ∧
    (wired.serai.evicting.contains (op1 3, 0) = false ∧ (evicting 3 0).serai.evicting.contains (op1 3, 0) = true ∧
      (let fs := evictSet (evicting 3 0) (op1 3) 0
       anyCtx (evicting 3 0) (reachesTiles (evicting 3 0) 1 (fs.map (·.1)) (fs.map (·.2))) = false ∧
         anyCtx (evicting 3 0) (stillReads (evicting 3 0) 1 (fs.map (·.1)) (fs.map (·.2))) = false) ∧ cmdOp (op1 3) ≠ 4) ∧
    (let s := setCtx (evicting 3 0) 8 0 { getCtx loading 8 0 with pid := 1 }
     let fs := evictSet s (op1 3) 0
     s.serai.leaving = [] ∧ anyCtx s (reachesTiles s 1 (fs.map (·.1)) (fs.map (·.2))) = false ∧
       anyCtx s (stillReads s 1 (fs.map (·.1)) (fs.map (·.2))) = true ∧ (fs.any fun f => inPool s 1 f.1) = false ∧
       layoutOf s 1 0 = some lay ∧ entryAt s lay 0 / 2 ^ 62 = 1) ∧
    (let s0 := setProc ready1 1 { getProc ready1 1 with pool := some 0 }
     let s := { s0 with serai := { s0.serai with evicting := [(op1 3, 0)] } }
     let fs := evictSet s (op1 3) 0
     anyCtx s (reachesTiles s 1 (fs.map (·.1)) (fs.map (·.2))) = false ∧ (fs.any fun f => inPool s 1 f.1) = true) ∧
    (let v : Leaving := ⟨op1 3, 0, [(0, 0x300000, 2 ^ 62)]⟩
     let gone := { evicting 3 0 with serai := { (evicting 3 0).serai with leaving := [v] } }
     let s := setCtx gone 8 0 { getCtx loading 8 0 with pid := 1 }
     (s.serai.leaving.find? fun v => v.w0 == op1 3 && v.w1 == 0) = some v ∧
       anyCtx s (stillReads s 1 (v.tiles.map (·.1)) (v.tiles.map (·.2.1))) = true ∧
       anyCtx gone (stillReads gone 1 (v.tiles.map (·.1)) (v.tiles.map (·.2.1))) = false) ∧
    (let s := withCtx (evicting 3 0) 0 fun k => { k with copyq := [{ cmd .cpout 0 true false with frames := [(0, some 0x300000)] }] }
     let fs := evictSet s (op1 3) 0
     anyCtx s (reachesTiles s 1 (fs.map (·.1)) (fs.map (·.2))) = true) ∧
    (procBusy wired 1 = false ∧ procBusy ready1 1 = true ∧ (getProc wired 1).pool = none) ∧
    (tensorTiles wired 1 5 = none ∧ tensorTiles wired 1 0 = some 16) ∧
    (let s := { calm with host := { calm.host with openEvents := [(0x0C, 9)] } }
     (s.host.openEvents.find? fun e => e.2 == 9) = some (0x0C, 9) ∧ (s.host.openEvents.find? fun e => e.2 == 8) = none) ∧
    (let p := { asking 65536 with task := some 7 }
     let s := { wired with serai := { wired.serai with pending := [p] } }
     s.serai.pending.filter (fun p => p.pid == 1 && reqTile s p == some 1) = [p] ∧ (1 : Word).toNat % 2 ^ 48 < 16 ∧
       s.serai.pending.filter (fun p => p.pid == 1 && refTid p.ref == 0) = [p]) ∧
    (areaFrame wired 0 = false ∧ areaFrame wired (BitVec.ofNat 64 (areaBase 0)) = true) ∧
    ((evicting 4 0).serai.evicting.any (fun c => cmdPid c.1 == 1 && (if cmdOp c.1 = 4 then c.2.toNat % 2 ^ 16 else namedTile c.2 / 2 ^ 48) == 0) = true ∧
      (let s := setProc ready1 1 { getProc ready1 1 with pool := some 0 }
       procBusy s 1 = true ∧ (getProc s 1).pool.isSome = true ∧ (layoutOf s 1 0).isSome = true)) ∧
    ((mappingTo 1 false).serai.mapping.isSome || (poolTiles 0x1000).any (beingEvicted (mappingTo 1 false) 1)) = true := by decide +kernel

/-- Tensor 0 with room for a request pool at byte 4,096; the driver has placed none of its tiles. -/
def roomy : State := setProc wired 1 ⟨Tab.empty.set 0 { lay with ntile := 1025 }, none⟩

theorem meets_CommandRqpool :
    ((0x1000 : Word).toNat % 4096 = 0 ∧ (getProc roomy 1).tensors.find 0 = some { lay with ntile := 1025 } ∧ 0x1000 + 2 ^ 26 ≤ 1025 * 65536 ∧
      (getProc roomy 1).pool = none ∧ (roomy.serai.mapping.isSome || (poolTiles 0x1000).any (beingEvicted roomy 1)) = false) ∧
    (let put := fun (s : State) => setProc s 1 { getProc s 1 with pool := some (mkRef 0 0x1000) }
     let q := { cmd .cpout 64 true false with frames := [(1, none)] }
     poolBlocked (put roomy) ⟨op1 7, 0, 0x1000, false⟩ = false ∧
       poolBlocked (put (withCtx roomy 0 fun k => { k with copyq := [q] })) ⟨op1 7, 0, 0x1000, false⟩ = true) := by decide +kernel

/-- A trapped context's image with a task behind it, in a pool of two slots. -/
def trapImage (cause : BitVec 8) : State :=
  let s := queued man { job with st := .saved, slot := 0 } entry0 (some 1)
  let i : Image := { image { Ctx.reset with pid := 1, task := some 7 } with trapped := true, cause := cause, task := some 7 }
  { s with serai := { s.serai with slots := 2, images := Tab.empty.set 0 i } }

theorem meets_MailboxRequests :
    (calm.serai.slots = 0 ∧ 0 < (pooled id).serai.slots) ∧
    (poolInArea 0 1 = false ∧ poolInArea (areaBase 0) 1 = true ∧ areaBase 0 % 2 ^ 21 = 0) ∧
    (let s := withCtx (pooled id) 0 fun k => { k with status := .draining, pend := some ⟨0x20, 0, false, 0, 0⟩ }
     isFrozen (getCtx s 8 0) = true ∧ (getCtx s 8 0).status ≠ .free ∧ isFrozen (getCtx (pooled id) 8 0) = false) ∧
    ((getCtx (pooled id) 8 1).status = .free ∧ preemptable (pooled id) 8 0 = true) ∧ calm.serai.images.find 0 = none ∧
    (∃ i, (pooled id).serai.images.find 0 = some i ∧ i.saving = false ∧ i.trapped = false ∧ i.frozen = false) ∧
    (∃ i, (trapImage 0x05).serai.images.find 0 = some i ∧ i.saving = false ∧ i.trapped = true ∧ i.cause ≠ 0x0F ∧ i.cause ≠ 0x0E ∧ i.task = some 7 ∧
      (getTask (trapImage 0x05) 7).any (fun k => k.st == .saved && k.slot == 0) = true) ∧
    (∃ i, (pooled id).serai.images.find 0 = some i ∧ canMove (takenMail (owned id) 1) 0 8 i false = true ∧
      freeCtx (takenMail (owned id) 1) i 8 = some 1 ∧ i.core = 8 ∧ i.coretied = true ∧ i.task = none ∧ i.ctx.task = none ∧
      (coreReady (takenMail (owned id) 1) 8 i.ctx.pid i.ctx.vregs).2 = true) ∧
    (∃ i, (pooled id).serai.images.find 0 = some i ∧ canMove (takenMail (pooled id) 1) 0 16 i false = false) ∧
    ((getCore calm 8).engineFrozen = false ∧ (getCore (setCore calm 8 { getCore calm 8 with engineFrozen := true }) 8).engineFrozen = true) ∧
    (resetRefused calm 0 = false ∧ resetRefused (setDie calm 1 { Die.reset with rphase := 1 }) 0 = true) ∧
    (setRegs.contains 0x181 = false ∧ setRegs.contains 0x140 = true ∧ valueOk 0x140 1 = true ∧ valueOk 0x140 2 = false) ∧
    (getRegs.contains 0x1C9 = true ∧ getRegs.contains 0x181 = false ∧ (getregValue calm 0x191 319).isSome = true) :=
  ⟨by decide +kernel, by decide +kernel, by decide +kernel, by decide +kernel, by decide +kernel, ⟨_, rfl, by decide +kernel⟩, ⟨_, rfl, by decide +kernel⟩,
    ⟨_, rfl, by decide +kernel⟩, ⟨_, rfl, by decide +kernel⟩, by decide +kernel, by decide +kernel, by decide +kernel, by decide +kernel⟩

theorem meets_SchedulerNode :
    (let q := getQueue calm 63
     ([7] : List Byte).length ≤ 65536 ∧ (q.tail - q.head).toNat < ringSize q.base) ∧
    (let q := getQueue (withQ calm 63 fun q => { q with tail := 16 }) 63
     ringSize q.base ≤ (q.tail - q.head).toNat) := by decide +kernel

/-- The link from die 0 to die 1 changed. -/
def linked (f : Link → Link) : State := setLink calm 0 1 (f Link.reset)

theorem meets_MessagesFlow :
    (dieHeld (setDie calm 1 { Die.reset with rphase := 3 }) 1 = true) ∧
    (let l := getLink calm 0 1
     2 ^ 31 ≤ ((0 : BitVec 32) - l.expected).toNat ∧ dieHeld calm 1 = false ∧ hasRoom calm 0 1 0 = true ∧ hasRoom calm 0 1 1 = true ∧
       hasRoom calm 0 1 3 = true ∧ l.expected = 1 ∧
       findMsg (1 + 1) l.holds = none ∧ ¬(2 ^ 31 ≤ ((3 : BitVec 32) - l.expected).toNat) ∧ findMsg 3 l.holds = none ∧
       l.holds.length < Config.heldMessages ∧ l.gapAt = none ∧ l.reqAt = none) ∧
    ((getLink (linked fun l => { l with gapAt := some 0 }) 0 1).gapAt = some 0 ∧ (getLink (linked fun l => { l with gapAt := some 9 }) 0 1).gapAt = some 9) ∧
    (let s := { linked fun l => { l with reqAt := some 0 } with now := 2 ^ 20 }
     (getLink s 0 1).broken = false ∧ (getLink s 0 1).reqAt = some 0 ∧ 0 + 2 ^ 20 ≤ s.now) ∧
    (hasRoom (linked fun l => { l with next := 16385 }) 0 1 16385 = false) ∧
    (let s := linked fun l => { l with next := 6, expected := 6 }
     isOld 5 (getLink s 0 1).acked = false ∧ 2 ^ 31 ≤ ((5 : BitVec 32) - (getLink s 0 1).expected).toNat) ∧
    (let q := { plainLoad with parts := [⟨0, [0x300010], []⟩] }
     let p := { cmd .cpin 64 true false with frames := [(0, some 0x300000)] }
     p.done = false ∧ p.kind ≠ .cpout ∧ (copyHomes wired p).contains 17 = true ∧ coreEnd 8 = 0 ∧
       (pooled fun i => { i with ctx := { i.ctx with copyq := [p] } }).serai.images.find 0 =
         some { image { Ctx.reset with pid := 1, pc := 64 } with ctx := { Ctx.reset with pid := 1, pc := 64, copyq := [p] } } ∧
       q ∈ (getCtx (withCtx wired 0 fun k => { k with loads := [q] }) 8 0).loads ∧ (farHomes wired 8 q.scope (loadBytes q)).contains 17 = true) := by decide +kernel

/-- A capture of die 0 with one block left to copy, or with all copied. -/
def capturing (phase : Nat) : State :=
  setDie calm 0 { Die.reset with capture := some ⟨1, 0, [], .empty, [], [(2 ^ 32, 0)], [2 ^ 32, 2 ^ 32 + 1], 0⟩, dphase := phase }

/-- One whose blocks writes have had copied before their events came. -/
def copiedAll : State :=
  setDie calm 0 { Die.reset with capture := some ⟨1, 0, [], .empty, [], [(2 ^ 32, 0)], [2 ^ 32], 0⟩, dphase := 1 }

theorem meets_CheckpointsCommit :
    captureDue calm 0 = false ∧
    captureDue { calm with now := 2 ^ 20, pkg := { calm.pkg with drvctl := 0x0000000100000001 } } 0 = true ∧ (getDie calm 0).capture = none ∧
    (∃ c, (getDie (capturing 1) 0).capture = some c ∧ (getDie (capturing 1) 0).dphase = 1 ∧ c.blocks.contains (2 ^ 32 + 1) = true ∧
      findCell (2 ^ 32 + 1) c.map = none ∧ allCopied c = false ∧ (findCell (2 ^ 32) c.map).isSome = true ∧
      allCopied { c with map := c.map ++ [(2 ^ 32 + 1, freePlace c.map [])] } = true) ∧
    (∃ c, (getDie copiedAll 0).capture = some c ∧ (getDie copiedAll 0).dphase = 1 ∧ c.blocks.contains (2 ^ 32) = true ∧
      (findCell (2 ^ 32) c.map).isSome = true ∧ allCopied c = true) ∧
    (getDie (capturing 2) 0).dphase = 2 :=
  ⟨by decide +kernel, by decide +kernel, by decide +kernel, ⟨_, rfl, by decide +kernel⟩, ⟨_, rfl, by decide +kernel⟩, by decide +kernel⟩

/-- Die 0 in a phase of its warm reset, with checkpointing on. -/
def resetting (n : Nat) : State :=
  { setDie calm 0 { Die.reset with rphase := n, ckpt := some ⟨1, 0, [(8, 0, { Ctx.reset with pid := 1, pc := 64, wppc := 64 })], .empty, [], [(2 ^ 32, 3)], [], 0⟩ } with
    pkg := { calm.pkg with drvctl := 1 } }
/-- A waypoint commit of a fixed task under way on that die. -/
def midCommit : State :=
  let s := withCtx (resetting 2) 0 fun k => { k with handedOver := true }
  { s with serai := { s.serai with tasks := Tab.empty.set 7 { job with fixed := true, st := .placed, core := 8, x := 0 } } }

theorem meets_DieResets :
    (∀ n ∈ [0, 1, 2, 3, 4, 5, 6, 7], (getDie (resetting n) 0).rphase = n) ∧ commitsOn (resetting 2) 0 = false ∧ commitsOn midCommit 0 = true ∧
    (caughtUp (resetting 5) 0 = true ∧ caughtUp (setDie (resetting 5) 0 { getDie (resetting 5) 0 with replay := [⟨16, 1, .plain⟩] }) 0 = false) ∧
    (findRegs (resetting 4) 8 Ctx.reset.vregs).isSome = true ∧
    ((∀ q ∈ ([(2 ^ 32, 3)] : List (Nat × Nat)), 2 ^ 44 ≤ q.1 * 4096 ∧ q.2 < Config.areaFrames * 16) ∧ (getDie (resetting 3) 0).ckpt.any (fun c => c.map == [(2 ^ 32, 3)]) = true) ∧
    ((resetting 3).pkg.drvctl.getLsbD 0 = true ∧ (getDie (resetting 3) 0).ckpt.isSome = true ∧ calm.pkg.drvctl.getLsbD 0 = false) ∧
    (trapStands ⟨0x12, 0, false, 0, 0⟩ = true ∧ trapStands ⟨0x20, 0, false, 0, 0⟩ = false) ∧
    (calm.off = false ∧ ({ calm with off := true } : State).off = true) := by decide +kernel

theorem meets_MemoryStaysCanonical : Safe wired ∧ ∃ t, step wired = .next t :=
  ⟨(by decide +kernel : wired.mem.wf = true), _, rfl⟩

theorem meets_StepRunsDecoded :
    ((Instr.zclr th 1 (.b 0x1D)).wf = true ∧ (slotInfo (.zclr th 1 (.b 0x1D))).cls ≠ 8 ∧ (me calm).vregs = 32 ∧
      ({ calm with latch := { calm.latch with words := encode (.zclr th 1 (.b 0x1D)) ++ [0xE0000000] } } : State).latch.hold = false ∧
      classOf 0xE0000000 ≠ 7) ∧
    decodeWords 32 [0x0E400C00] = .error 0x10 ∧ decodeTableWord 32 0x00000C85 = some (.add th 3 4 5) := by decide +kernel

/-- A package between two slots, with no event due, then with one of each kind. -/
def still : State := { State.reset with turns := [] }

theorem meets_StepRunsEvents :
    (slotDue still = false ∧ still.off = false ∧ still.inputs = [] ∧ dueTimer still.now still.timers = none ∧ (agenda (stepCount still)).isNone = true ∧
      still.turns = [] ∧ (choiceTodo (stepCount still)).isNone = true ∧ (doneTodo (stepCount still)).isNone = true ∧
      (reportTodo (stepCount still)).isNone = true ∧ (caravanTodo (stepCount still)).isNone = true ∧ (wakeTodo (stepCount still)).isNone = true ∧
      (mailTodo (stepCount still)).isNone = true ∧ still.serai.raised = [] ∧ (∀ e ∈ still.dies.cells, e.2.evq = []) ∧ still.latch.words = []) ∧
    (slotInfo .packageReset).cls = 8 ∧ dueTimer 4 [(4, .pageRequestService)] = some (.pageRequestService, []) ∧
    (let s := { wired with turns := [8], latch := State.reset.latch }
     slotDue s = false ∧ dueTimer s.now s.timers = none ∧ (agenda (stepCount s)).isNone = true ∧ s.turns = 8 :: []) ∧
    (let s := { still with off := true }
     s.off = true ∧ s.inputs = [] ∧ slotDue s = false) := by decide +kernel

theorem meets_EncodingsAgree :
    ((Instr.movi th 3 (.lx2 5 0x1F 0x1 0xFFFFFFF)).wf = true ∧ (slotInfo (.movi th 3 (.lx2 5 0x1F 0x1 0xFFFFFFF))).cls ≠ 8 ∧
      ∀ w r, ([] : List Nat) = w :: r → classOf w ≠ 7) ∧
    (0x00800C00 < 2 ^ 31 ∧ ([0x123] : List (BitVec 28)).length ≤ 2 ∧ decodeSlot 32 0x00800C00 [0x123] = .ok (.addi th 3 0 (.lx1 0x123))) :=
  ⟨⟨by decide +kernel, by decide +kernel, fun _ _ h => nomatch h⟩, by decide +kernel⟩

/-! ### One step of the machine's parts (hand calculation from the rules named) -/

/-- The context 0 of core 8 after an instruction. -/
def after8 (i : Instr) (s : State) : Ctx := getCtx (ran i s) 8 0

/-- R113: low byte first; no byte of memory changes as the store issues. -/
theorem test_std_low_byte_first :
    (after8 (.stw mh 3 6 (.reg 0)) (withG (g6 16) 3 0x11223344)).wbuf.map (·.cells) =
      [[(0x300010, 0x44), (0x300011, 0x33), (0x300012, 0x22), (0x300013, 0x11)]] := by decide +kernel

/-- R112, R116: eight bytes, low byte first, in the result of a long load. -/
theorem test_ldd_returns :
    (after8 (.longLoadReturn 8 0 0) { loading with mem := ⟨loading.mem.cells ++ [(0x300010, 0xEF), (0x300017, 0x80)]⟩ }).live.g.get 0 3 =
      0x80000000000000EF := by decide +kernel

/-- R119: AADD gives the old value and leaves the sum. -/
theorem test_aadd_performs :
    (ran (.longLoadReturn 8 0 2) { atomics with mem := ⟨atomics.mem.cells ++ [(0x300010, 0xFF)]⟩ }).mem.readN 0x300010 8 = 0x100 ∧
    (after8 (.longLoadReturn 8 0 2) { atomics with mem := ⟨atomics.mem.cells ++ [(0x300010, 0xFF)]⟩ }).live.g.get 0 3 = 0xFF := by decide +kernel

theorem test_store_performed :
    (ran (.storePerformed 8 0) storing).mem.readN 0x300010 2 = 0xBEEF ∧ (after8 (.storePerformed 8 0) storing).wbuf = [] := by decide +kernel

/-- R109, R244: the first touch of tile 2 places a frame and names it in the table entry. -/
theorem test_first_touch :
    entryAt (ran (.ldb mh 3 6 (.reg 0)) (g6 131072)) lay 2 / 2 ^ 62 = 1 ∧ entryAt (g6 131072) lay 2 = 0 := by decide +kernel

/-- R108: a load of a tile that is not resident sets CSTAT.NR. -/
theorem test_non_resident : (after8 (.ldb mh 3 6 (.reg 0)) (g6 65536)).live.cstat = 0x8000 := by decide +kernel

/-- R125: BRL puts the address of the next bundle into g1 and goes to a target counted in words from the bundle. -/
theorem test_brl :
    (after8 (.brl th 0x7FFF) (withCtx calm 0 fun k => { k with bpc := 64 })).pc = 60 ∧
    (after8 (.brl th 0x7FFF) (withCtx calm 0 fun k => { k with bpc := 64 })).flight.map (·.dest) = [.g 1] := by decide +kernel

/-- R126: LOOP goes on while the count less one is positive. -/
theorem test_loop_ends :
    (after8 (.loop th 3 (.b 0x1F)) (withG calm 3 1)).jumped = false ∧ (after8 (.loop th 3 (.b 0x1F)) (withG calm 3 2)).jumped = true := by decide +kernel

/-- R156: TWSET writes the value and makes it valid. -/
theorem test_twset : ((after8 (.twset th 2 7) (withG calm 7 9)).w.get WReg.reset 2).val = 9 ∧
    ((after8 (.twset th 2 7) (withG calm 7 9)).w.get WReg.reset 2).valid = true := by decide +kernel

/-- R172: ZCLR clears a bank and sets its exponent. -/
theorem test_zclr_exponent : (bankOf (ran (.zclr th 1 (.b 0x1D)) calm) 1).zexp = -3 ∧ (bankOf (ran (.zclr th 1 (.b 0x1D)) calm) 1).live = true := by
  decide +kernel

/-- R164, Table 7.2: the fields of a binding word of chapter 15: BX16, 4,096 bytes from byte 0 on. -/
theorem test_tcfg_fields :
    (let t := (after8 (.tcfg th 0 6) (withG claimed 6 0x0800100000000000)).live.tiles.get Tile.off 0
     t.v && t.bytes == 4096 && t.base == 0 && t.st == .empty) = true := by decide +kernel

/-- R180, Table 12.2: a free licence goes to the lower core's context. -/
theorem test_licq_takes_a_free_licence :
    (getPair (ran (.licq th) calm) (pairOf 8)).st = .lower ∧ (getPair (ran (.licq th) calm) (pairOf 8)).holder = some (8, 0) := by decide +kernel

/-- R188, R24: TRAP acts at the end of its commit, with cause 0x12 and its code. -/
theorem test_trap_after_commit :
    (after8 (.waypointCommit 8 0) (ending [.trap 7 1])).trapcause = 0x112 ∧ (after8 (.waypointCommit 8 0) (ending [.trap 7 1])).trapinfo = 7 ∧
    (after8 (.waypointCommit 8 0) (ending [.trap 7 1])).status = .trapped := by decide +kernel

/-- R201: HALT takes effect at its commit. -/
theorem test_halt_after_commit : (after8 (.waypointCommit 8 0) (ending [.halt])).status = .halted := by decide +kernel

/-- R14: a due result is written, one for p0 is not (R33), and one that is not due stays. -/
theorem test_landing :
    (after8 (.resultLanding 8 0) landing).live.g.get 0 3 = 7 ∧ (after8 (.resultLanding 8 0) landing).live.p.get 0 0 = 0 ∧
    (after8 (.resultLanding 8 0) landing).flight.length = 1 := by decide +kernel

/-- R191, Table 8.2: a monitor that has fired wakes its MNAP with code 0. -/
theorem test_mnap_code : (after8 (.mnapWake 8 0) (napping .fired)).live.g.get 9 3 = 0 ∧ (after8 (.mnapWake 8 0) (napping .fired)).nap = none := by
  decide +kernel

/-- R21, R30: the bundle of four slots issues, and its words enter the issue buffer. -/
theorem test_bundle_issues :
    (ran .bundleFetch (coded 16)).latch.words = [0x02C00000, 0x02C00000, 0x20080000, 0xA0080400] ∧
    (me (ran .bundleFetch (coded 16))).pc = 32 := by decide +kernel

/-- Table 4.8: a misaligned bundle address takes the illegal-bundle trap, cause 0x01. -/
theorem test_bundle_misaligned : (me (ran .bundleFetch (coded 18))).trapcause % 256 = 1 := by decide +kernel

/-- R356, Table 20.6: at reset the dies' thresholds are 85, 95 and 105 degrees, in sixteenths. -/
theorem test_thermal_level : newLevel State.reset.pkg.thd 1680 0 = 3 ∧ newLevel State.reset.pkg.thd 1679 0 = 2 ∧
    newLevel State.reset.pkg.thd 1360 0 = 1 ∧ newLevel State.reset.pkg.thd 1359 0 = 0 := by decide +kernel

/-- R360: RETAIN from QUIESCED takes 64 master cycles; from RUN it sets ERR. -/
theorem test_retain :
    (getCluster (ran (.retain 1) (gated 1 0 false)) 1).stepEnd = 64 ∧ (getCluster (ran (.retain 1) (gated 0 0 false)) 1).err = true := by decide +kernel

/-- R305: an entry that is next in sequence becomes a launch. -/
theorem test_queue_take : (ran (.manifestQueueTake 5) (enqueued 1)).serai.launches.map (·.addr) = [0x1000] ∧
    (getQueue (ran (.manifestQueueTake 5) (enqueued 2)) 5).stop = true := by decide +kernel

/-- R311: a report is written with word 0 at its entry of 32 bytes. -/
theorem test_report_write : (ran .reportWrite reported).mem.readN (0x30000 + 32) 8 = 0x100000000 ∧ (ran .reportWrite reported).host.reports = [] := by
  decide +kernel

/-- R217, R223: a well-formed image enters and its one task waits with its index live. -/
theorem test_manifest_enters : (ran .manifestEntry (imaged 1 false)).serai.tasks.cells.length = 1 := by decide +kernel

/-- R225: g4 holds the first argument, g20 TASKID's copy; the context runs from ENTRY. -/
theorem test_placement :
    (getCtx (ran (.taskPlacement 7 9 0) ready1) 9 0).live.g.get 0 4 = 5 ∧ (getCtx (ran (.taskPlacement 7 9 0) ready1) 9 0).pc = 64 ∧
    (getCtx (ran (.taskPlacement 7 9 0) ready1) 9 0).live.g.get 0 16 = 4 := by decide +kernel

/-- R227: extent 4 at grain 1 splits into two halves of 2. -/
theorem test_split :
    ((ran (.allowExpiry 8 0) (spent id)).serai.tasks.cells.map fun e => (e.2.lo.headD 9, e.2.hi.headD 9)).contains (0, 2) = true ∧
    ((ran (.allowExpiry 8 0) (spent id)).serai.tasks.cells.map fun e => (e.2.lo.headD 9, e.2.hi.headD 9)).contains (2, 4) = true := by decide +kernel

/-- R198: a signal counts its index down. -/
theorem test_dsig : (getIndex (ran .dsigApply (signalled fun i => { i with counter := 2, isReady := false })) (idxKey 1 0)).map (·.counter) = some 1 := by
  decide +kernel

/-- R338: a message that is next in order is delivered. -/
theorem test_message : (getLink (ran (.messageArrival 0 1 1 5) calm) 0 1).expected = 2 ∧ (getLink (ran (.messageArrival 0 1 1 5) calm) 0 1).delivered = [5] := by
  decide +kernel

/-- R359: a package reset keeps wear and starts the package anew. -/
theorem test_package_reset :
    (getDie (ran .packageReset (setDie calm 3 { Die.reset with wear := 77, epoch := 4 })) 3).wear = 77 ∧
    (getDie (ran .packageReset (setDie calm 3 { Die.reset with wear := 77, epoch := 4 })) 3).epoch = 0 := by decide +kernel

/-- R9, R86: a placed word runs as the next step; a word of an unassigned opcode traps as an illegal encoding. -/
theorem test_step_runs_a_placed_word :
    (match step (State.reset.withFetchWord 32 0x00000C85) with | .next t => (me t).flight.map (·.dest) | _ => []) = [.g 3] := by decide +kernel
theorem test_step_traps_on_an_unassigned_opcode :
    (match step { calm with latch := { calm.latch with words := [0x0E400C00] } } with | .next t => (me t).trapcause % 256 | _ => 0) = 2 := by decide +kernel

/-- R357: with the package off and nothing from outside to come, a step stops. -/
theorem test_off_stops : (match step { State.reset with off := true } with | .fault .packageOff => true | _ => false) = true := by decide +kernel

end Sys2Proof.Tests
end

section
/-! SUPPORT. Proofs about the control registers and the encoding (chapter 2): what a write of a context's register changes and leaves as it
was, what CRD then reads, and the rows that write registers. -/

namespace Sys2Proof.Machine

/-! ### The write of a context's register (R41, R190) -/

/-- `writeCtxReg` field by field: each register takes the value under its own index alone; a write of NWATCH also joins the norm watch's
list (R283). -/
theorem writeCtxReg_eq (k : Ctx) (n : Nat) (v : Word) : writeCtxReg k n v = { k with
    live := { k.live with
      cstat := if n = 0x002 then v else k.live.cstat
      ocs0 := if n = 0x003 then v else k.live.ocs0
      ocs1 := if n = 0x004 then v else k.live.ocs1
      bankkey := if n = 0x005 then v else k.live.bankkey
      epi := if 0x028 ≤ n ∧ n ≤ 0x02F then k.live.epi.set (n - 0x28) v else k.live.epi
      nwatch := if n = 0x030 then v else k.live.nwatch
      hvec := if n = 0x100 then v else k.live.hvec
      pwrsel := if n = 0x180 then v else k.live.pwrsel
      mgwake := if n = 0x18F then v else k.live.mgwake
      thsel := if n = 0x190 then v else k.live.thsel }
    watch := if n = 0x030 then k.watch ++ [.write (v.getLsbD 0)] else k.watch } := by
  have hn : n = 0x002 ∨ n = 0x003 ∨ n = 0x004 ∨ n = 0x005 ∨ n = 0x030 ∨ n = 0x100 ∨ n = 0x180 ∨ n = 0x18F ∨ n = 0x190 ∨
      (0x028 ≤ n ∧ n ≤ 0x02F) ∨ (n ≠ 0x002 ∧ n ≠ 0x003 ∧ n ≠ 0x004 ∧ n ≠ 0x005 ∧ n ≠ 0x030 ∧ n ≠ 0x100 ∧ n ≠ 0x180 ∧ n ≠ 0x18F ∧ n ≠ 0x190 ∧
      ¬(0x028 ≤ n ∧ n ≤ 0x02F)) := by omega
  rcases hn with hn | hn | hn | hn | hn | hn | hn | hn | hn | hn | hn <;>
    simp (disch := omega) only [writeCtxReg, if_pos, if_neg]

/-! ### What CRD reads after such a write

The frame is one pass over the register map: the words that CRD builds from the package and from the cores' own fields agree in both states,
and under an index other than the one written the context's fields do. -/

/-- A reading under index `m`, where the write of index `n` changed the value under `m = n` alone. -/
theorem ite_written_of_ne {α : Type} {q n : Nat} (h : q ≠ n) (m : Nat) (v a b : α) :
    (if q = m then (if n = m then v else a) else b) = if q = m then a else b :=
  ite_congr rfl (fun hm => if_neg fun hn => h (hm.trans hn.symm)) fun _ => rfl

/-- EPI registers other than the one written read as before. -/
theorem ite_epi_of_ne {q n : Nat} (h : q ≠ n) (e : Tab Word) (v b : Word) :
    (if 0x028 ≤ q ∧ q ≤ 0x02F then (if 0x028 ≤ n ∧ n ≤ 0x02F then e.set (n - 0x28) v else e).get 0 (q - 0x28) else b) =
      if 0x028 ≤ q ∧ q ≤ 0x02F then e.get 0 (q - 0x28) else b := by
  split_ifs with hq hn
  · exact Tab.get_set_ne _ _ _ _ _ (by omega)
  · rfl
  · rfl

/-- States with one package differ in their cores and issue buffers alone. -/
theorem eq_with_cores_of_packRest {s t : State} (h : packRest t = packRest s) : t = { s with cores := t.cores, latch := t.latch } :=
  congrArg (fun u : State => { u with cores := t.cores, latch := t.latch }) h

theorem rbctlWord_congr {k m : Core} (h : coreRest k = coreRest m) : rbctlWord k = rbctlWord m :=
  (congrArg rbctlWord h :)

theorem repmapWord_congr {s t : State} (h : ∀ d, coreRest (getCore t d) = coreRest (getCore s d)) (d n : Nat) :
    repmapWord t d n = repmapWord s d n := by
  have hb : ∀ c, repBits (getCore t c) = repBits (getCore s c) := fun c => (congrArg repBits (h c) :)
  simp only [repmapWord, hb]

theorem licWord_congr {s t : State} {c x : Nat} (h : packRest t = packRest s)
    (hr : (getCtx t c x).restoring = (getCtx s c x).restoring) : licWord t c x = licWord s c x := by
  have e := eq_with_cores_of_packRest h
  have hp : getPair t = getPair s := by rw [e]; rfl
  have hs : t.serai = s.serai := by rw [e]
  have hn : t.now = s.now := by rw [e]
  simp only [licWord, licMine, hp, hs, hn, hr]

/-- A write of a context's register keeps what CRD reads of every other register, but for PWRSEL and THSEL, which select what others read. -/
theorem crdValue_writeCtxReg_ne {s t : State} {c x n q : Nat} {v : Word} (hp : packRest t = packRest s)
    (hc : ∀ d, coreRest (getCore t d) = coreRest (getCore s d)) (hk : getCtx t c x = writeCtxReg (getCtx s c x) n v)
    (he : q = 0x015 → (getCore t c).ebal = (getCore s c).ebal) (hf : q = 0x01A → (getCore t c).floorcnt = (getCore s c).floorcnt)
    (hq : q ≠ n) (hps : n ≠ 0x180) (hts : n ≠ 0x190) : crdValue t c x q = crdValue s c x q := by
  rw [writeCtxReg_eq] at hk
  have hlic : licWord t c x = licWord s c x := licWord_congr hp (by rw [hk])
  have hrb : ∀ d, rbctlWord (getCore t d) = rbctlWord (getCore s d) := fun d => rbctlWord_congr (hc d)
  have hrep := repmapWord_congr hc
  have hsqa : (getCore t c).sqa = (getCore s c).sqa := (congrArg Core.sqa (hc c) :)
  have hsqb : (getCore t c).sqb = (getCore s c).sqb := (congrArg Core.sqb (hc c) :)
  have hlay : (getCore t c).laycnt = (getCore s c).laycnt := (congrArg Core.laycnt (hc c) :)
  have hebal : ∀ b : Word, (if q = 0x015 then BitVec.ofNat 64 ((getCore t c).ebal % 2 ^ 24) else b) =
      if q = 0x015 then BitVec.ofNat 64 ((getCore s c).ebal % 2 ^ 24) else b :=
    fun _ => ite_congr rfl (fun h => by rw [he h]) fun _ => rfl
  have hfloor : ∀ b : Word, (if q = 0x01A then (getCore t c).floorcnt.setWidth 64 else b) =
      if q = 0x01A then (getCore s c).floorcnt.setWidth 64 else b :=
    fun _ => ite_congr rfl (fun h => by rw [hf h]) fun _ => rfl
  have hcstat : ∀ w b : Word, (if q = 0x002 then (if n = 0x002 then v else (getCtx s c x).live.cstat) ||| w else b) =
      if q = 0x002 then (getCtx s c x).live.cstat ||| w else b :=
    fun _ _ => ite_congr rfl (fun h => by rw [if_neg (by omega)]) fun _ => rfl
  simp only [crdValue, hk, hlic, hrb, hrep, hsqa, hsqb, hlay, hebal, hfloor, hcstat, ite_written_of_ne hq, ite_epi_of_ne hq, if_neg hps,
    if_neg hts]
  rw [eq_with_cores_of_packRest hp]
  rfl

/-- The registers that a context holds and a program may write, but for CSTAT, whose reading adds flags still in flight (R41, R189). -/
def ReadsBack (n : Nat) : Prop :=
  0x003 ≤ n ∧ n ≤ 0x005 ∨ 0x028 ≤ n ∧ n ≤ 0x030 ∨ n = 0x100 ∨ n = 0x180 ∨ n = 0x18F ∨ n = 0x190

theorem crdValue_writeCtxReg_self {t : State} {k : Ctx} {c x n : Nat} {v : Word} (hk : getCtx t c x = writeCtxReg k n v)
    (hn : ReadsBack n) : crdValue t c x n = v := by
  have h : n = 0x003 ∨ n = 0x004 ∨ n = 0x005 ∨ (0x028 ≤ n ∧ n ≤ 0x02F) ∨ n = 0x030 ∨ n = 0x100 ∨ n = 0x180 ∨ n = 0x18F ∨ n = 0x190 := by
    unfold ReadsBack at hn; omega
  rw [writeCtxReg_eq] at hk
  rcases h with rfl | rfl | rfl | h | rfl | rfl | rfl | rfl | rfl
  case inr.inr.inr.inl => simp (disch := omega) only [crdValue, hk, if_pos, if_neg, Tab.get_set_self]
  all_goals simp [crdValue, hk]

/-- What a context holds and the access rules leave writable is CSTAT or a register that reads back. -/
theorem readsBack_of_writable {priv : Bool} {n : Nat} (hro : regRO priv n = false) (hh : ctxHeld n = true) (h2 : n ≠ 0x002) :
    ReadsBack n := by
  unfold ReadsBack
  simp only [ctxHeld, Bool.or_eq_true, Bool.and_eq_true, decide_eq_true_eq, bne_iff_ne, beq_iff_eq] at hh
  by_cases hlt : n < 0x100
  · simp only [regRO, hlt, if_true, Bool.not_eq_false', Bool.or_eq_true, Bool.and_eq_true, decide_eq_true_eq, beq_iff_eq] at hro
    omega
  · omega

/-! ### What a slot that issues keeps of the package and the cores -/

theorem IssuedCtx.packRest_eq {b t : State} {i : Instr} {k : Ctx} (h : IssuedCtx b t i k) : packRest t = packRest b := h.package

theorem IssuedCtx.focus_eq {b t : State} {i : Instr} {k : Ctx} (h : IssuedCtx b t i k) : t.focus = b.focus :=
  (congrArg State.focus h.package :)

theorem IssuedCtx.coreRest_eq {b t : State} {i : Instr} {k : Ctx} (h : IssuedCtx b t i k) (d : Nat) :
    coreRest (getCore t d) = coreRest (getCore b d) := by
  by_cases hd : d = b.focus
  · have hc := h.core
    rw [myCore, myCore, h.focus_eq] at hc
    rw [hd, hc]
  · rw [h.cores d hd]

theorem IssuedCtx.getCtx_eq {b t : State} {i : Instr} {k : Ctx} (h : IssuedCtx b t i k) : getCtx t b.focus (curX b) = k := by
  have hx : curX t = curX b := by
    rw [curX, h.focus_eq]
    exact (congrArg (fun m : Core => m.cur.val) (h.coreRest_eq b.focus) :)
  have hk := h.ctx
  rwa [me, h.focus_eq, hx] at hk

/-- A write to g0 is a result with no lane (R33). -/
theorem putG_eq_addFlight (s : State) (d : Reg) (v : Word) (w : Nat) :
    putG s d v w = addFlight s (.g d.toNat) (v.setWidth 1024) (if d = 0 then 0 else allLanes) w 0 false := by
  by_cases hd : d = 0
  · rw [putG, if_pos hd, if_pos hd, addFlight_empty]
  · rw [putG, if_neg hd, if_neg hd]

/-- A slot whose own effect is one result in a g register: g0 takes none (R33). -/
theorem runSlot_putG (i : Instr) (f : State → State) (s : State) (d : Reg) (v : Word) (w : Nat) (h : Issues s i)
    (hf : f s = putG s d v w) : ∃ t, runSlot i f s = .next t ∧
      IssuedCtx s t i (withFlight s (if lanesOf s i = 0 ∨ d = 0 then [] else [inWindow s (.g d.toNat) (v.setWidth 1024) allLanes w 0])) := by
  obtain ⟨t, ht, hi⟩ := runSlot_flight i f s _ _ _ w 0 h fun _ => hf.trans (putG_eq_addFlight s d v w)
  refine ⟨t, ht, ?_⟩
  by_cases hd : d = 0
  · simpa only [hd, if_true, and_self, or_true] using hi
  · have hm : allLanes ≠ 0 := by decide
    simpa only [hd, if_false, hm, false_and, or_false] using hi

/-! ### CRD and CWR -/

theorem exec_crd (s : State) (h : TH) (d : Reg) (n : BitVec 10) : exec (.crd h d n) s =
    runSlot (.crd h d n) (fun s => putG s d (s.latch.crd.getD (crdValue s s.focus (curX s) n.toNat)) 1) s := rfl

theorem exec_cwr (s : State) (h : TH) (d : Reg) (n : BitVec 10) : exec (.cwr h d n) s =
    runSlot (.cwr h d n) (fun s => writeControl s n (readG s d)) s := rfl

theorem writeControl_held {s : State} {n : BitVec 10} (v : Word) (hh : ctxHeld n.toNat = true) :
    writeControl s n v = setMe s (writeCtxReg (me s) n.toNat v) := if_pos hh

theorem writeControl_recorded {s : State} {n : BitVec 10} (v : Word) (hh : ctxHeld n.toNat = false) :
    writeControl s n v = setMe s { me s with acts := (me s).acts ++ [.cwr n v (me s).live.pwrsel (me s).live.thsel] } := by
  rw [writeControl, hh]
  rfl

/-- After the issue of a CWR to a register of the context, every register but it and the core's two energy counts reads as before. -/
theorem crdValue_of_issued_write {s t : State} {i : Instr} {n : Nat} {v : Word} (h : IssuedCtx s t i (writeCtxReg (me s) n v))
    (hps : n ≠ 0x180) (hts : n ≠ 0x190) {q : Nat} (hq : q ≠ n) (he : q ≠ 0x015) (hf : q ≠ 0x01A) :
    crdValue t s.focus (curX s) q = crdValue s s.focus (curX s) q :=
  crdValue_writeCtxReg_ne h.packRest_eq h.coreRest_eq h.getCtx_eq (absurd · he) (absurd · hf) hq hps hts

/-- Settles O17: a slot that issues performs its own effect, and the read-back and the frame are those of `writeCtxReg`. -/
theorem controlRegisters : Obligations.ControlRegisters := by
  unfold Obligations.ControlRegisters
  refine ⟨fun s h d n hi => ?_, fun s h d n hi hl => ⟨fun hh => ?_, fun hh => ?_⟩⟩
  · rw [exec_crd]
    exact runSlot_putG _ _ s d _ 1 hi rfl
  · rw [exec_cwr]
    exact runSlot_from _ _ s s _ hi hl (writeControl_recorded _ hh)
  · rw [exec_cwr]
    obtain ⟨t, ht, hk⟩ := runSlot_from (.cwr h d n) (fun s => writeControl s n (readG s d)) s s _ hi hl (writeControl_held _ hh)
    exact ⟨t, ht, hk, crdValue_writeCtxReg_self hk.getCtx_eq, fun hps hts q => crdValue_of_issued_write hk hps hts⟩

/-! ### Register writes by rows of their own -/

theorem packRest_setCtx (s : State) (c x : Nat) (k : Ctx) : packRest (setCtx s c x k) = packRest s := rfl

theorem coreRest_setCtx (s : State) (c x d : Nat) (k : Ctx) : coreRest (getCore (setCtx s c x k) d) = coreRest (getCore s d) := by
  by_cases hd : d = c
  · subst hd
    rw [getCore_setCtx_self]
    rfl
  · rw [getCore_setCtx_ne _ _ _ _ _ hd]

theorem crdValue_setCtx_writeCtxReg_ne (s : State) (c x : Nat) {n q : Nat} (v : Word) (hq : q ≠ n) (hps : n ≠ 0x180) (hts : n ≠ 0x190) :
    crdValue (setCtx s c x (writeCtxReg (getCtx s c x) n v)) c x q = crdValue s c x q :=
  crdValue_writeCtxReg_ne (packRest_setCtx ..) (coreRest_setCtx s c x · _) (getCtx_setCtx_self ..)
    (fun _ => by rw [getCore_setCtx_self]) (fun _ => by rw [getCore_setCtx_self]) hq hps hts

theorem ctxWrite_ok {s : State} {c x n : Nat} {v : Word} (hv : valueOk n v = true) (hh : ctxHeld n = true) :
    ctxWrite s c x n v = setCtx s c x (writeCtxReg (getCtx s c x) n v) := by
  rw [ctxWrite, hv, hh]
  rfl

theorem ctxWrite_reserved {s : State} {c x n : Nat} {v : Word} (hv : valueOk n v = false) : ctxWrite s c x n v = s := by
  rw [ctxWrite, hv]
  rfl

theorem registerWrite_refused {s : State} {c x n : Nat} {v : Word} (h : regKnown n = false ∨ regRO (isMgmt c) n = true ∨ valueOk n v = false ∨
    (0x100 ≤ n ∧ isMgmt c = false)) : registerWrite s c x n v = s := by
  refine if_pos ?_
  rcases h with h | h | h | ⟨h, hm⟩ <;> simp [*]

theorem registerWrite_held {s : State} {c x n : Nat} {v : Word} (hkn : regKnown n = true) (hro : regRO (isMgmt c) n = false)
    (hv : valueOk n v = true) (hp : n < 0x100 ∨ isMgmt c = true) (hh : ctxHeld n = true) :
    registerWrite s c x n v = setCtx s c x (writeCtxReg (getCtx s c x) n v) := by
  have hpriv : (decide (0x100 ≤ n) && !isMgmt c) = false := by
    rcases hp with hp | hp <;> simp [hp]
  simp only [registerWrite, hkn, hro, hv, hpriv, hh, Bool.not_true, Bool.or_self, Bool.false_eq_true, if_false, if_true]

/-- A field that spans a word's top bits is 0 just for the values below its lowest bit. -/
theorem wf_top_eq_zero_iff (v : Word) {lo : Nat} (h : lo ≤ 64) : wf v 63 lo = 0 ↔ v.toNat < 2 ^ lo := by
  have hlt : v.toNat / 2 ^ lo < 2 ^ (64 - lo) :=
    Nat.div_lt_of_lt_mul (by rw [← pow_add, Nat.add_sub_cancel' h]; exact v.isLt)
  rw [wf, Nat.mod_eq_of_lt hlt, Nat.div_eq_zero_iff_lt (by positivity)]

theorem valueOk_bankkey (v : Word) : valueOk 0x005 v = decide (v.toNat < 2 ^ 32) := by
  simp [valueOk, Bool.beq_eq_decide_eq, wf_top_eq_zero_iff]

theorem valueOk_wakeset (v : Word) : valueOk 0x1A3 v = decide (v.toNat < 2 ^ 16) := by
  simp [valueOk, Bool.beq_eq_decide_eq, wf_top_eq_zero_iff]

theorem exec_bankkeyWrite (s : State) (c x : Nat) (v : Word) : exec (.bankkeyWrite c x v) s = .next (ctxWrite s c x 0x005 v) := rfl

theorem exec_nwatchWrite (s : State) (c x : Nat) (v : Word) : exec (.nwatchWrite c x v) s = .next (ctxWrite s c x 0x030 v) := rfl

theorem exec_registerWrite (s : State) (c x : Nat) (ix : BitVec 10) (v : Word) :
    exec (.registerWrite c x ix v) s = .next (registerWrite s c x ix.toNat v) := rfl

theorem exec_wakesetWrite (s : State) (d : Nat) (v : Word) :
    exec (.wakesetWrite d v) s = .next (if valueOk 0x1A3 v then setWakeBits s d (v.setWidth 16) else s) := rfl

theorem exec_managementWake (s : State) (c x : Nat) : exec (.managementWake c x) s = .next (managementWake s c x) := rfl

/-- BANKKEY has 32 bits (R41). -/
theorem ctxWrite_bankkey (s : State) (c x : Nat) (v : Word) : ctxWrite s c x 0x005 v = if v.toNat < 2 ^ 32 then
    setCtx s c x { getCtx s c x with live := { (getCtx s c x).live with bankkey := v } } else s := by
  split_ifs with hv
  · exact ctxWrite_ok (by rw [valueOk_bankkey, decide_eq_true hv]) rfl
  · exact ctxWrite_reserved (by rw [valueOk_bankkey, decide_eq_false hv])

theorem setWakeBits_wakereq (s : State) (d : Nat) (v : BitVec 16) :
    (getDie (setWakeBits s d v) d).wakereq = (getDie s d).wakereq ||| v := by
  rw [setWakeBits, getDie_setDie_self]

theorem setWakeBits_frame (s : State) (d : Nat) (v : BitVec 16) : setWakeBits s d v = setDie s d (getDie (setWakeBits s d v) d) ∧
    { getDie (setWakeBits s d v) d with
      wakereq := (getDie s d).wakereq, wakeSet := (getDie s d).wakeSet, wakeSetAt := (getDie s d).wakeSetAt } = getDie s d := by
  simp only [setWakeBits, getDie_setDie_self, and_self]

theorem managementWake_asleep {s : State} {c x : Nat} (hs : (getCtx s c x).status = .asleep) (hw : wakeHolds s c x = true) :
    managementWake s c x = setCtx s c x { getCtx s c x with status := .running } := if_pos ⟨hs, hw⟩

theorem managementWake_none {s : State} {c x : Nat} (h : (getCtx s c x).status ≠ .asleep ∨ wakeHolds s c x = false) :
    managementWake s c x = s := by
  refine if_neg fun ⟨hs, hw⟩ => ?_
  rcases h with h | h
  · exact h hs
  · rw [hw] at h; cases h

/-- Settles O35, each row through the lemma that says what it does with a value allowed or reserved. -/
theorem registerWrites : Obligations.RegisterWrites := by
  unfold Obligations.RegisterWrites
  intro s c x d ix v
  refine ⟨?bankkey, fun hv => ?nwatch, fun hv => ?reserved, fun h => ?refused, fun hkn hro hv hp hh h2 => ?held, fun hv => ?wakeset,
    fun hs hw => ?wakes, fun h => ?sleeps⟩
  case bankkey => rw [exec_bankkeyWrite, ctxWrite_bankkey]
  case nwatch =>
    refine ⟨_, by rw [exec_nwatchWrite, ctxWrite_ok hv rfl], ?_⟩
    rw [getCtx_setCtx_self]
    exact ⟨rfl, rfl, rfl⟩
  case reserved => rw [exec_nwatchWrite, ctxWrite_reserved hv]
  case refused => rw [exec_registerWrite, registerWrite_refused h]
  case held =>
    refine ⟨_, by rw [exec_registerWrite, registerWrite_held hkn hro hv hp hh], ?_, ?_, ?_⟩
    · exact crdValue_writeCtxReg_self (getCtx_setCtx_self ..) (readsBack_of_writable hro hh h2)
    · exact fun r hr hps hts => crdValue_setCtx_writeCtxReg_ne s c x v hr hps hts
    · rw [getCtx_setCtx_self]
  case wakeset =>
    obtain ⟨hset, hrest⟩ := setWakeBits_frame s d (v.setWidth 16)
    have hok : valueOk 0x1A3 v = true := by rw [valueOk_wakeset, decide_eq_true hv]
    exact ⟨_, by rw [exec_wakesetWrite, if_pos hok], hset, setWakeBits_wakereq .., hrest⟩
  case wakes => rw [exec_managementWake, managementWake_asleep hs hw]
  case sleeps => rw [exec_managementWake, managementWake_none h]

/-! ### Words of the encoding tables -/

/-- Settles O59, by running the decoder on each word: eleven that decode, then a word for each reason 0x10 to 0x15. -/
theorem wordsDecode : Obligations.WordsDecode := by
  unfold Obligations.WordsDecode
  refine ⟨rfl, rfl, rfl, rfl, rfl, rfl, rfl, rfl, rfl, rfl, rfl, ?refused⟩
  case refused => exact ⟨rfl, rfl, rfl, rfl, rfl, rfl⟩

end Sys2Proof.Machine
end

section
/-! SUPPORT. Proofs about the number formats (chapter 3): residue mode, floating-point slots, blocks and norms, NaN results. -/

namespace Sys2Proof.Machine

/-! ### Floating-point slots (R57, R130, R135 to R138, R142) -/

theorem allFlags_no_lane (f : Nat → BitVec 16) : allFlags 0 f = 0 := by
  have h : (List.range 32).filter (0 : Pred).getLsbD = [] := List.filter_eq_nil_iff.mpr fun j _ => by simp
  rw [allFlags, h, List.foldl_nil]

theorem clamp32_eq_saturated (y : Int) : clamp32 y = saturated y := by
  unfold clamp32 saturated
  by_cases hhi : y > 2147483647
  · rw [if_pos hhi, if_neg (by omega), show max (-2147483648) (min y 2147483647) = 2147483647 by omega]; rfl
  · by_cases hlo : y < -2147483648
    · rw [if_neg hhi, if_pos hlo, if_neg (by omega), show max (-2147483648) (min y 2147483647) = -2147483648 by omega]; rfl
    · rw [if_neg hhi, if_neg hlo, if_pos (by omega), show max (-2147483648) (min y 2147483647) = y by omega]

/-- The selector of VFCVT as the word that the slot carries. -/
theorem vfcvtLane_eq (rm : BitVec 2) (fpm : Bool) (k : BitVec 5) (x old : BitVec 32) : vfcvtLane rm fpm k.toNat x old =
    if k = 0 then let r := narrow16 rm fpm (f32.read fpm x.toNat); (old.toNat / 65536 * 65536 + r.1, r.2)
    else if k = 1 then let r := narrow16 rm fpm (f32.read fpm x.toNat); (r.1 * 65536 + old.toNat % 65536, r.2)
    else if k = 2 then widen16 (f16.read fpm (x.toNat % 65536)) else widen16 (f16.read fpm (x.toNat / 65536)) := by
  have h (n : Nat) (hn : n < 2 ^ 5) : k.toNat = n ↔ k = BitVec.ofNat 5 n := by
    rw [← BitVec.toNat_inj, BitVec.toNat_ofNat, Nat.mod_eq_of_lt hn]
  simp only [vfcvtLane, h 0 (by decide), h 1 (by decide), h 2 (by decide)]
  rfl

/-- A slot that `floatRule` names performs as a lane-wise result with flags. -/
theorem exec_of_floatRule {s : State} {i : Instr} {d : Reg} {f : Nat → Nat × BitVec 16} {n : Nat} (h : floatRule s i = some (d, f, n)) :
    ∃ g, exec i s = runSlot i g s ∧ g s = flagResult s d (lanesOf s i) n f := by
  unfold floatRule at h
  split at h <;> cases h
  case h_1 => exact ⟨_, rfl, by simp only [clamp32_eq_saturated]; rfl⟩
  case h_2 => exact ⟨_, rfl, by simp only [clamp32_eq_saturated]; rfl⟩
  case h_12 => exact ⟨_, rfl, by simp only [vfcvtLane_eq]; rfl⟩
  case h_16 => exact ⟨_, rfl, by simp only [← BitVec.ofNat_toNat]; rfl⟩
  all_goals exact ⟨_, rfl, rfl⟩

/-- A slot that `doubleRule` names performs as a result by element. -/
theorem exec_of_doubleRule {s : State} {i : Instr} {d : Reg} {f : Nat → Nat × BitVec 16} {n : Nat} (h : doubleRule s i = some (d, f, n)) :
    ∃ g, exec i s = runSlot i g s ∧ g s = dblResult s d (lanesOf s i) n f := by
  unfold doubleRule at h
  split at h <;> cases h <;> exact ⟨_, rfl, rfl⟩

theorem pairMask_no_lane : pairMask 0 = 0 := by decide

/-- A slot whose own effect is one result, with flags from the lanes it writes alone. -/
theorem runSlot_maskedFlight {i : Instr} {f : State → State} {s : State} {d : Dest} {v : Vec} {m : Pred} {w : Nat} {fl : BitVec 16}
    (h : Issues s i) (hf : f s = addFlight s d v m w fl false) (hm : lanesOf s i = 0 → m = 0) (hfl : m = 0 → fl = 0) :
    ∃ t, runSlot i f s = .next t ∧ IssuedCtx s t i (withFlight s (if m = 0 then [] else [inWindow s d v m w fl])) := by
  obtain ⟨t, ht, hk⟩ := runSlot_flight i f s d v m w fl h fun _ => hf
  have hc : lanesOf s i = 0 ∨ (m = 0 ∧ fl = 0) ↔ m = 0 := ⟨fun h => h.elim hm And.left, fun h => Or.inr ⟨h, hfl h⟩⟩
  exact ⟨t, ht, by rwa [if_congr hc rfl rfl] at hk⟩

/-- Settles O5: a slot with flags issues as one result, in its enabled lanes or in the lane pairs of its enabled elements. -/
theorem floatResults : Obligations.FloatResults := by
  unfold Obligations.FloatResults
  refine ⟨fun s i d f n hr hi => ?lanes, fun s i d f n hr hi => ?pairs⟩
  case lanes =>
    obtain ⟨g, hx, hg⟩ := exec_of_floatRule hr
    rw [hx]
    exact runSlot_maskedFlight hi hg id fun h => by rw [h]; exact allFlags_no_lane _
  case pairs =>
    obtain ⟨g, hx, hg⟩ := exec_of_doubleRule hr
    rw [hx]
    exact runSlot_maskedFlight hi hg (fun h => by rw [h]; exact pairMask_no_lane) fun h => by rw [h]; exact allFlags_no_lane _

/-! ### A slot that changes its own core -/

theorem me_setMyCore {s : State} {K : Core} (hcur : K.cur = (myCore s).cur) : me (setMyCore s K) = K.ctxs.get Ctx.reset (curX s) := by
  have hK : getCore (setMyCore s K) s.focus = K := myCore_setMyCore s K
  simp only [me, getCtx, curX, setMyCore_focus, hK, hcur]
  rfl

theorem setMe_setMyCore {s : State} {K : Core} (hcur : K.cur = (myCore s).cur) (k : Ctx) :
    setMe (setMyCore s K) k = setMyCore s { K with ctxs := K.ctxs.set (curX s) k } := by
  have hK : getCore (setMyCore s K) s.focus = K := myCore_setMyCore s K
  simp only [setMe, setCtx, curX, setMyCore_focus, hK, hcur]
  exact setCore_setCore ..

/-- A slot that leaves the core in focus as `K`, with the energy and the cache it had. -/
theorem issued_setMyCore {s : State} (i : Instr) {K : Core}
    (hctx : ∀ x, x ≠ curX s → K.ctxs.get Ctx.reset x = getCtx s s.focus x) (hcur : K.cur = (myCore s).cur)
    (hebal : K.ebal = (myCore s).ebal) (hfloor : K.floorcnt = (myCore s).floorcnt) (hl1 : K.l1 = (myCore s).l1) :
    Issued s (endSlot (charge (setMyCore s K) i)) i (K.ctxs.get Ctx.reset (curX s)) K s := by
  have hK : getCore (setMyCore s K) s.focus = K := myCore_setMyCore s K
  have h := issued_of s (setMyCore s K) i rfl (fun x hx => by rw [getCtx, hK, hctx x hx])
    (by rw [myCore_setMyCore, hebal]) (by rw [myCore_setMyCore, hfloor]) (fun c hc => getCore_setMyCore_ne s c K hc) rfl
    (slotWeight_congr s _ _ i rfl rfl rfl) (fun c sc a => readAt_congr s _ c sc a rfl rfl rfl rfl rfl ?_)
  · rw [me_setMyCore hcur, myCore_setMyCore] at h
    exact { h with package := h.package.trans rfl }
  · by_cases hc : c = s.focus
    · rw [hc, hK, hl1]; rfl
    · rw [getCore_setMyCore_ne s c K hc]

/-! ### Residue mode (R80, R81, R132) -/

theorem mainPath_no_fault (y : Int) : mainPath y 0 = y := by
  simp [mainPath]

theorem checkedLane_no_fault {y path : Int} (h : rho y = rho path) : checkedLane 0 y path = (BitVec.ofInt 32 y, false) := by
  rw [checkedLane, mainPath_no_fault, h, bne_self_eq_false]

theorem ofInt_mainPath (y : Int) (flt : BitVec 32) : BitVec.ofInt 32 (mainPath y flt) = BitVec.ofInt 32 y ^^^ flt := by
  rw [mainPath, sub_eq_add_neg, BitVec.ofInt_add, BitVec.ofInt_add, BitVec.ofInt_neg, BitVec.ofInt_natCast, BitVec.ofInt_natCast,
    BitVec.ofNat_toNat, BitVec.ofNat_toNat, BitVec.setWidth_eq, BitVec.setWidth_eq]
  ring

theorem toNat_xor_twoPow_of_clear {x : BitVec 32} {k : Nat} (hk : k < 32) (h : x.getLsbD k = false) :
    (x ^^^ BitVec.twoPow 32 k).toNat = x.toNat + 2 ^ k := by
  have hand : x &&& BitVec.twoPow 32 k = 0#32 := by rw [BitVec.and_twoPow, h]; rfl
  have hxor : x ^^^ BitVec.twoPow 32 k = x ||| BitVec.twoPow 32 k := by
    ext j hj
    obtain rfl | hjk := eq_or_ne j k <;> simp_all
  rw [hxor, ← BitVec.add_eq_or_of_and_eq_zero _ _ hand, BitVec.toNat_add_of_and_eq_zero hand, BitVec.toNat_twoPow,
    Nat.mod_eq_of_lt (Nat.pow_lt_pow_right (by decide) hk)]

/-- A fault that inverts one bit moves the main path's result by a power of two. -/
theorem mainPath_twoPow (y : Int) {k : Nat} (hk : k < 32) :
    mainPath y (BitVec.twoPow 32 k) = y + 2 ^ k ∨ mainPath y (BitVec.twoPow 32 k) = y - 2 ^ k := by
  cases h : (BitVec.ofInt 32 y).getLsbD k
  · left
    rw [mainPath, toNat_xor_twoPow_of_clear hk h]
    push_cast
    ring
  · right
    have hb := toNat_xor_twoPow_of_clear (x := BitVec.ofInt 32 y ^^^ BitVec.twoPow 32 k) hk (by simp [h, hk])
    rw [BitVec.xor_assoc, BitVec.xor_self, BitVec.xor_zero] at hb
    rw [mainPath, hb]
    push_cast
    ring

/-- No power of two is a multiple of 31, so the residue finds every one-bit fault (R81). -/
theorem rho_mainPath_twoPow (y : Int) {k : Nat} (hk : k < 32) : rho (mainPath y (BitVec.twoPow 32 k)) ≠ rho y := by
  have h31 : ∀ k < 32, (2 : Int) ^ k % 31 ≠ 0 := by decide
  have hk31 := h31 k hk
  unfold rho
  rcases mainPath_twoPow y hk with h | h <;> rw [h] <;> omega

theorem checkedLane_twoPow {y path : Int} {k : Nat} (h : rho y = rho path) (hk : k < 32) :
    checkedLane (BitVec.twoPow 32 k) y path = (BitVec.ofInt 32 y ^^^ BitVec.twoPow 32 k, true) := by
  rw [checkedLane, ofInt_mainPath, bne_iff_ne.mpr (h ▸ rho_mainPath_twoPow y hk)]

/-- A slot that `exactRule` names performs as a checked result, whose residue path agrees with the exact result in every lane. -/
theorem exec_of_exactRule {s : State} {i : Instr} {d : Reg} {f : Nat → Int} (h : exactRule s i = some (d, f)) :
    ∃ g path, exec i s = runSlot i g s ∧ g s = checkedResult s d (lanesOf s i) f path ∧ ∀ j, rho (f j) = rho (path j) := by
  have hr (y : Int) : y ≡ rho y [ZMOD 31] := (Int.mod_modEq y 31).symm
  unfold exactRule at h
  split at h <;> cases h
  case h_1 => exact ⟨_, _, rfl, rfl, fun j => (hr _).add (hr _)⟩
  case h_2 => exact ⟨_, _, rfl, rfl, fun j => (hr _).sub (hr _)⟩
  case h_3 => exact ⟨_, _, rfl, rfl, fun j => (hr _).mul (hr _)⟩
  case h_4 => exact ⟨_, _, rfl, rfl, fun j => ((hr _).mul (hr _)).add (hr _)⟩

theorem lanesList_ne_nil {m : Pred} (h : m ≠ 0) : lanesList m ≠ [] := fun hn => by
  refine h (BitVec.eq_of_getLsbD_eq fun j hj => ?_)
  exact ((Bool.not_eq_true _).mp (List.filter_eq_nil_iff.mp hn j (List.mem_range.mpr hj))).trans BitVec.getLsbD_zero.symm

/-- A checked result in residue mode, where the check says the same of every lane: the standing fault has acted. -/
theorem checkedResult_res {s : State} {d : Reg} {m : Pred} {y path : Nat → Int} {v : Nat → BitVec 32} {bad : Bool}
    (hres : cstatRES (me s).live.cstat = true) (hm : m ≠ 0) (hv : ∀ j, checkedLane (myCore s).aluFault (y j) (path j) = (v j, bad)) :
    checkedResult s d m y path = setMyCore s { myCore s with
      aluFault := 0
      ctxs := (myCore s).ctxs.set (curX s)
        (withFlight s [{ inWindow s (.v d.toNat) (ofLanes v) m 2 0 with residueBad := bad }]) } := by
  have hme : me (setMyCore s { myCore s with aluFault := 0 }) = me s := me_setMyCore rfl
  have hany : ((lanesList m).any fun _ => bad) = bad := by
    obtain ⟨j, l, hl⟩ := List.exists_cons_of_ne_nil (lanesList_ne_nil hm)
    cases bad <;> simp [hl]
  rw [checkedResult, if_pos hres]
  simp only [hv, hany]
  rw [putV, addFlight, if_neg fun h => hm h.1, hme]
  exact setMe_setMyCore (K := { myCore s with aluFault := 0 }) rfl _

theorem runSlot_checkedResult {s : State} {i : Instr} {g : State → State} {d : Reg} {y path : Nat → Int} {v : Nat → BitVec 32} {bad : Bool}
    (hi : Issues s i) (hg : g s = checkedResult s d (lanesOf s i) y path) (hres : cstatRES (me s).live.cstat = true)
    (hm : lanesOf s i ≠ 0) (hv : ∀ j, checkedLane (myCore s).aluFault (y j) (path j) = (v j, bad)) :
    ∃ t, runSlot i g s = .next t ∧
      Issued s t i (withFlight s [{ inWindow s (.v d.toNat) (ofLanes v) (lanesOf s i) 2 0 with residueBad := bad }])
        { myCore s with aluFault := 0 } s := by
  refine ⟨_, runSlot_of_issues i g s hi, ?_⟩
  rw [issueSlot_of_lanes i g s hm, hg, checkedResult_res hres hm hv]
  have h := issued_setMyCore i (s := s) (K := { myCore s with
    aluFault := 0
    ctxs := (myCore s).ctxs.set (curX s)
      (withFlight s [{ inWindow s (.v d.toNat) (ofLanes v) (lanesOf s i) 2 0 with residueBad := bad }]) })
    (fun x hx => Tab.get_set_ne _ _ _ _ _ hx) rfl rfl rfl rfl
  rw [Tab.get_set_self] at h
  exact { h with core := h.core.trans rfl }

/-- Settles O3: a check that passes leaves the exact result; a one-bit fault fails the check of every enabled lane. -/
theorem checkedResults : Obligations.CheckedResults := by
  unfold Obligations.CheckedResults
  refine ⟨fun s i d f hr hi hs => ?sound, fun s i d f k hr hi hm hres hk hflt => ?caught⟩ <;> obtain ⟨g, path, hx, hg, hpath⟩ := exec_of_exactRule hr
  all_goals rw [hx]
  case caught =>
    exact runSlot_checkedResult hi hg hres hm fun j => by rw [hflt, checkedLane_twoPow (hpath j) hk]
  case sound =>
    by_cases hres : cstatRES (me s).live.cstat = true
    · have hflt : (myCore s).aluFault = 0 := hs.resolve_left (by rw [hres]; decide)
      by_cases hm : lanesOf s i = 0
      · refine ⟨_, runSlot_of_issues i g s hi, ?_⟩
        rw [issueSlot_of_no_lane i g s hm, if_pos hm, withFlight_nil]
        exact issuedCtx_same s i
      · obtain ⟨t, ht, hk⟩ := runSlot_checkedResult hi hg hres hm fun j => by rw [hflt, checkedLane_no_fault (hpath j)]
        rw [if_neg hm]
        exact ⟨t, ht, { hk with core := hk.core.trans (by rw [← hflt]) }⟩
    · rw [checkedResult, if_neg hres] at hg
      exact runSlot_maskedFlight hi hg id fun _ => rfl

/-! ### Blocks and norms (R68, R69, R139, R140, R145, R284) -/

/-- A result of a slot that has changed its context. -/
theorem putV_setMe {s : State} {k : Ctx} (d : Reg) (v : Vec) {m : Pred} (w : Nat) (fl : BitVec 16) (hm : m ≠ 0) (hbpc : k.bpc = (me s).bpc) :
    putV (setMe s k) d v m w fl false = setMe s { k with flight := k.flight ++ [inWindow s (.v d.toNat) v m w fl] } := by
  rw [putV, addFlight_some _ _ _ _ _ _ fun h => hm h.1, setMe_setMe, withFlight, me_setMe, inWindow, me_setMe, hbpc]
  rfl

theorem vbexpOp_eq {s : State} (d a : Reg) (k : Nat) {m : Pred} (hm : m ≠ 0) :
    let b := quantise (blockValues s a m) (bxLimit k) 0
    vbexpOp s d (readV s a) k m = setMe s
      { withFlight s [inWindow s (.v d.toNat) (ofLanes fun _ => BitVec.ofInt 32 b.e) m (modeWin s 4 8) (if b.nv then flNV else 0)] with
        live := { (me s).live with underzero := (me s).live.underzero + b.under, satblk := (me s).live.satblk + b.sat } } :=
  putV_setMe (s := s) d _ _ _ hm rfl

theorem vqntOp_eq {s : State} (d a : Reg) (k : Nat) {m : Pred} (hm : m ≠ 0) :
    let e := ((lane (readV s d) 0).setWidth 8).toInt
    let q := fun j => if e = -128 then 0 else mantissa 0 (bxLimit k) e ((blockValues s a m).getD j (.num false 0 0))
    vqntOp s d (readV s a) k m = setMe s (withFlight s [inWindow s (.v d.toNat) (ofLanes fun j => BitVec.ofInt 32 (q j)) m
      (modeWin s 4 8) (if (blockValues s a m).any FV.isNan then flNV else 0)]) := by
  have h0 : BitVec.ofInt 32 0 = 0 := rfl
  simp only [apply_ite (BitVec.ofInt 32), h0]
  exact addFlight_some _ _ _ _ _ _ fun h => hm h.1

theorem vnrmOp_eq {s : State} (d a : Reg) {m : Pred} (hm : m ≠ 0) :
    let r := vnrmVal (rmOf s) (fpmOf s) ((lanesList m).map (rd32 s a))
    vnrmOp s d (readV s a) m = setMe s
      { withFlight s [inWindow s (.v d.toNat) (ofLanes fun _ => BitVec.ofNat 32 r.1) m (modeWin s 8 12) r.2] with
        watch := if (me s).live.nwatch.getLsbD 0 then (me s).watch ++ [.sample (BitVec.ofNat 32 r.1)] else (me s).watch } := by
  unfold vnrmOp
  by_cases hw : (me s).live.nwatch.getLsbD 0 = true
  · simp only [hw, if_true]
    exact putV_setMe d _ _ _ hm rfl
  · simp only [hw]
    exact addFlight_some _ _ _ _ _ _ fun h => hm h.1

/-- Settles O6: each of the three slots through what its operation leaves in the context. -/
theorem blockResults : Obligations.BlockResults := by
  unfold Obligations.BlockResults
  refine fun s h d a k => ⟨fun hi => ?vbexp, fun hi => ?vqnt, fun hi => ?vnrm⟩
  case vbexp => exact runSlot_ctx _ _ s _ hi fun hm => vbexpOp_eq d a _ hm
  case vqnt => exact runSlot_ctx _ _ s _ hi fun hm => vqntOp_eq d a _ hm
  case vnrm => exact runSlot_ctx _ _ s _ hi fun hm => vnrmOp_eq d a hm

/-! ### NaN results (R60) -/

/-- The pattern of a format's zeros, finite values and infinities, by its fields: an exponent of all ones has fraction 0. -/
def Fmt.Number (f : Fmt) (b : Nat) : Prop :=
  ∃ neg ex fr, b = b2n neg * 2 ^ (f.ex + f.fr) + ex * 2 ^ f.fr + fr ∧ ex < 2 ^ f.ex ∧ fr < 2 ^ f.fr ∧ (ex = 2 ^ f.ex - 1 → fr = 0)

/-- What arithmetic gives: no NaN, or the canonical one. -/
def Fmt.Result (f : Fmt) (b : Nat) : Prop := f.Number b ∨ b = f.qnan

/-- An operation gives such a pattern, with its flags. -/
def Fmt.Gives (f : Fmt) (r : Nat × BitVec 16) : Prop := f.Result r.1

theorem Fmt.Gives.of_number {f : Fmt} {r : Nat × BitVec 16} (h : f.Number r.1) : f.Gives r := Or.inl h

theorem Fmt.Gives.of_qnan {f : Fmt} {fl : BitVec 16} : f.Gives (f.qnan, fl) := Or.inr rfl

theorem Fmt.nanBits_fields (f : Fmt) (neg : Bool) {ex fr : Nat} (hex : ex < 2 ^ f.ex) (hfr : fr < 2 ^ f.fr) :
    f.nanBits (b2n neg * 2 ^ (f.ex + f.fr) + ex * 2 ^ f.fr + fr) = (ex == 2 ^ f.ex - 1 && fr != 0) := by
  have hb : b2n neg * 2 ^ (f.ex + f.fr) + ex * 2 ^ f.fr + fr = 2 ^ f.fr * (2 ^ f.ex * b2n neg + ex) + fr := by ring
  rw [Fmt.nanBits, hb, Nat.mul_add_div (Nat.two_pow_pos _), Nat.div_eq_of_lt hfr, Nat.mul_add_mod, Nat.mod_eq_of_lt hfr, Nat.add_zero,
    Nat.mul_add_mod, Nat.mod_eq_of_lt hex]

theorem Fmt.Number.nanBits {f : Fmt} {b : Nat} (h : f.Number b) : f.nanBits b = false := by
  obtain ⟨neg, ex, fr, rfl, hex, hfr, hinf⟩ := h
  rw [f.nanBits_fields neg hex hfr, Bool.and_eq_false_iff]
  by_cases he : ex = 2 ^ f.ex - 1
  · exact Or.inr (by simp [hinf he])
  · exact Or.inl (by simp [he])

theorem Fmt.Result.canonical {f : Fmt} {b : Nat} (h : f.Result b) (hn : f.nanBits b = true) : b = f.qnan := by
  rcases h with h | h
  · rw [h.nanBits] at hn; cases hn
  · exact h

theorem Fmt.Gives.canonical {f : Fmt} {r : Nat × BitVec 16} (h : f.Gives r) : f.nanBits r.1 = true → r.1 = f.qnan := Fmt.Result.canonical h

theorem Fmt.Number.lt {f : Fmt} {b : Nat} (h : f.Number b) : b < 2 ^ (f.ex + f.fr + 1) := by
  obtain ⟨neg, ex, fr, rfl, hex, hfr, -⟩ := h
  have hneg : b2n neg * 2 ^ (f.ex + f.fr) ≤ 2 ^ (f.ex + f.fr) := by cases neg <;> simp [b2n]
  have hfld : (ex + 1) * 2 ^ f.fr ≤ 2 ^ f.ex * 2 ^ f.fr := Nat.mul_le_mul_right _ hex
  rw [← pow_add, Nat.add_mul] at hfld
  rw [pow_succ]
  omega

/-! ### Rounding gives no NaN -/

theorem Fmt.zero_number (f : Fmt) (neg : Bool) : f.Number (f.zero neg) :=
  ⟨neg, 0, 0, by simp [Fmt.zero], by positivity, by positivity, fun _ => rfl⟩

theorem Fmt.infBits_number (f : Fmt) (neg : Bool) : f.Number (f.infBits neg) :=
  ⟨neg, 2 ^ f.ex - 1, 0, rfl, Nat.sub_lt (by positivity) Nat.one_pos, by positivity, fun _ => rfl⟩

theorem Fmt.maxBits_number {f : Fmt} (hf : 2 ≤ f.ex) (neg : Bool) : f.Number (f.maxBits neg) := by
  have hex : 2 ^ 2 ≤ 2 ^ f.ex := Nat.pow_le_pow_right (by decide) hf
  have hfr : 0 < 2 ^ f.fr := by positivity
  refine ⟨neg, 2 ^ f.ex - 2, 2 ^ f.fr - 1, ?_, by omega, by omega, fun h => by omega⟩
  have h1 : (2 ^ f.ex - 1) * 2 ^ f.fr = (2 ^ f.ex - 2) * 2 ^ f.fr + 2 ^ f.fr := by
    rw [show 2 ^ f.ex - 1 = 2 ^ f.ex - 2 + 1 by omega, Nat.add_mul, Nat.one_mul]
  rw [Fmt.maxBits, Fmt.infBits, h1]
  omega

theorem roundShift_bounds (rm : BitVec 2) (neg : Bool) (m k : Nat) :
    m / 2 ^ k ≤ (roundShift rm neg m k).1 ∧ (roundShift rm neg m k).1 ≤ m / 2 ^ k + 1 := by
  have h (up : Bool) : m / 2 ^ k ≤ (if up then m / 2 ^ k + 1 else m / 2 ^ k) ∧ (if up then m / 2 ^ k + 1 else m / 2 ^ k) ≤ m / 2 ^ k + 1 := by
    cases up <;> simp
  exact h _

theorem bitLen_bounds {m : Nat} (hm : m ≠ 0) : 0 < bitLen m ∧ 2 ^ (bitLen m - 1) ≤ m ∧ m < 2 ^ bitLen m := by
  rw [bitLen, if_neg hm]
  exact ⟨Nat.succ_pos _, Nat.log2_self_le hm, Nat.lt_log2_self⟩

/-- The significand of a rounded value: at most a carry beyond its `fr + 1` bits. -/
theorem significand_bounds (rm : BitVec 2) (neg : Bool) {m : Nat} (fr : Nat) (hm : m ≠ 0) :
    let t := if bitLen m ≤ fr + 1 then (m * 2 ^ (fr + 1 - bitLen m), false) else roundShift rm neg m (bitLen m - (fr + 1))
    2 ^ fr ≤ t.1 ∧ t.1 ≤ 2 ^ (fr + 1) := by
  obtain ⟨hpos, hlo, hhi⟩ := bitLen_bounds hm
  by_cases hn : bitLen m ≤ fr + 1
  · rw [if_pos hn]
    have hlo' := Nat.mul_le_mul_right (2 ^ (fr + 1 - bitLen m)) hlo
    have hhi' := Nat.mul_le_mul_right (2 ^ (fr + 1 - bitLen m)) hhi.le
    rw [← pow_add] at hlo' hhi'
    rw [show bitLen m - 1 + (fr + 1 - bitLen m) = fr by omega] at hlo'
    rw [show bitLen m + (fr + 1 - bitLen m) = fr + 1 by omega] at hhi'
    exact ⟨hlo', hhi'⟩
  · rw [if_neg hn]
    obtain ⟨h1, h2⟩ := roundShift_bounds rm neg m (bitLen m - (fr + 1))
    have hlo' : 2 ^ fr ≤ m / 2 ^ (bitLen m - (fr + 1)) := by
      rw [Nat.le_div_iff_mul_le (by positivity), ← pow_add, show fr + (bitLen m - (fr + 1)) = bitLen m - 1 by omega]
      exact hlo
    have hhi' : m / 2 ^ (bitLen m - (fr + 1)) < 2 ^ (fr + 1) := by
      rw [Nat.div_lt_iff_lt_mul (by positivity), ← pow_add, show fr + 1 + (bitLen m - (fr + 1)) = bitLen m by omega]
      exact hhi
    exact ⟨hlo'.trans h1, h2.trans hhi'⟩

/-- A tiny value rounds to a subnormal, or up to the smallest normal number. -/
theorem roundInt_le (rm : BitVec 2) (neg : Bool) {m fr : Nat} {e : Int} (hm : m ≠ 0) (he : e + bitLen m ≤ fr) :
    (roundInt rm neg m e).1 ≤ 2 ^ fr := by
  obtain ⟨hpos, -, hhi⟩ := bitLen_bounds hm
  unfold roundInt
  by_cases h0 : 0 ≤ e
  · rw [if_pos h0]
    have h := Nat.mul_le_mul_right (2 ^ e.toNat) hhi.le
    rw [← pow_add] at h
    exact h.trans (Nat.pow_le_pow_right (by decide) (by omega))
  · rw [if_neg h0]
    refine (roundShift_bounds rm neg m _).2.trans ?_
    rw [Nat.succ_le_iff, Nat.div_lt_iff_lt_mul (by positivity), ← pow_add]
    exact hhi.trans_le (Nat.pow_le_pow_right (by decide) (by omega))

theorem Fmt.subnormal_number {f : Fmt} (hf : 2 ≤ f.ex) (neg : Bool) {fr : Nat} (h : fr ≤ 2 ^ f.fr) : f.Number (f.zero neg + fr) := by
  have hex : 2 ^ 2 ≤ 2 ^ f.ex := Nat.pow_le_pow_right (by decide) hf
  have hfr : 0 < 2 ^ f.fr := by positivity
  obtain h | rfl := Nat.lt_or_eq_of_le h
  · exact ⟨neg, 0, fr, by simp [Fmt.zero], by omega, h, fun h => by omega⟩
  · exact ⟨neg, 1, 0, by simp [Fmt.zero], by omega, hfr, fun _ => rfl⟩

theorem Fmt.normal_number {f : Fmt} (hf : 2 ≤ f.ex) (neg : Bool) {e : Int} {q : Nat} (hlo : ¬e < f.emin) (hhi : ¬e > f.bias)
    (hq : 2 ^ f.fr ≤ q) (hq' : q < 2 ^ (f.fr + 1)) : f.Number (f.zero neg + (e + f.bias).toNat * 2 ^ f.fr + (q - 2 ^ f.fr)) := by
  have hex : 2 ^ f.ex = 2 * 2 ^ (f.ex - 1) := by rw [← pow_succ', Nat.sub_add_cancel (by omega)]
  have hpos : 0 < 2 ^ (f.ex - 1) := by positivity
  have hbias : f.bias = 2 ^ (f.ex - 1) - 1 := rfl
  rw [Fmt.emin] at hlo
  rw [pow_succ] at hq'
  exact ⟨neg, (e + f.bias).toNat, q - 2 ^ f.fr, rfl, by omega, by omega, fun h => by omega⟩

/-- A value rounded to a format is a number of it (R59, R61, R62). -/
theorem Fmt.round_number {f : Fmt} (hf : 2 ≤ f.ex) (rm : BitVec 2) (fpm neg : Bool) (m : Nat) (e : Int) :
    f.Number (f.round rm fpm neg m e).1 := by
  unfold Fmt.round
  by_cases hm : m = 0
  · rw [if_pos hm]; exact f.zero_number neg
  rw [if_neg hm]
  have ht := significand_bounds rm neg f.fr hm
  dsimp only at ht ⊢
  generalize (if bitLen m ≤ f.fr + 1 then (m * 2 ^ (f.fr + 1 - bitLen m), false) else roundShift rm neg m (bitLen m - (f.fr + 1))) = t at ht ⊢
  have hq : 2 ^ f.fr ≤ (if (t.1 == 2 ^ (f.fr + 1)) = true then 2 ^ f.fr else t.1) ∧
      (if (t.1 == 2 ^ (f.fr + 1)) = true then 2 ^ f.fr else t.1) < 2 ^ (f.fr + 1) := by
    split_ifs with hc
    · exact ⟨le_rfl, Nat.pow_lt_pow_right (by decide) (Nat.lt_succ_self _)⟩
    · exact ⟨ht.1, lt_of_le_of_ne ht.2 (by simpa using hc)⟩
  have hc : 0 ≤ (if (t.1 == 2 ^ (f.fr + 1)) = true then (1 : Int) else 0) := by split_ifs <;> decide
  generalize (if (t.1 == 2 ^ (f.fr + 1)) = true then 2 ^ f.fr else t.1) = q at hq ⊢
  generalize (if (t.1 == 2 ^ (f.fr + 1)) = true then (1 : Int) else 0) = carry at hc ⊢
  split
  · split
    · exact Fmt.subnormal_number hf neg (roundInt_le rm neg hm (by omega))
    · exact f.zero_number neg
  · next htiny =>
    split
    · dsimp only
      split
      · exact f.infBits_number neg
      · exact Fmt.maxBits_number hf neg
    · next hhuge => exact Fmt.normal_number hf neg htiny hhuge hq.1 hq.2

/-! ### Each operation gives a result of its format -/

theorem Fmt.sum_number {f : Fmt} (hf : 2 ≤ f.ex) (rm : BitVec 2) (fpm na : Bool) (ma : Nat) (ea : Int) (nb : Bool) (mb : Nat) (eb : Int) :
    f.Number (f.sum rm fpm na ma ea nb mb eb).1 := by
  unfold Fmt.sum
  generalize (if ea ≤ eb then ea else eb) = e0
  dsimp only
  split
  · exact f.zero_number _
  · exact Fmt.round_number hf ..

theorem Fmt.addV_gives {f : Fmt} (hf : 2 ≤ f.ex) (rm : BitVec 2) (fpm : Bool) (a b : FV) : f.Gives (f.addV rm fpm a b) := by
  unfold Fmt.addV
  split
  case h_3 => split; exacts [.of_number (f.infBits_number _), .of_qnan]
  case h_6 => exact .of_number (Fmt.sum_number hf ..)
  case h_1 | h_2 => exact .of_qnan
  case h_4 | h_5 => exact .of_number (f.infBits_number _)

theorem Fmt.mulV_gives {f : Fmt} (hf : 2 ≤ f.ex) (rm : BitVec 2) (fpm : Bool) (a b : FV) : f.Gives (f.mulV rm fpm a b) := by
  unfold Fmt.mulV
  split
  case h_1 | h_2 => exact .of_qnan
  case h_3 => exact .of_number (f.infBits_number _)
  case h_4 | h_5 => split; exacts [.of_qnan, .of_number (f.infBits_number _)]
  case h_6 => exact .of_number (Fmt.round_number hf ..)

theorem Fmt.fmaV_gives {f : Fmt} (hf : 2 ≤ f.ex) (rm : BitVec 2) (fpm : Bool) (a b c : FV) : f.Gives (f.fmaV rm fpm a b c) := by
  unfold Fmt.fmaV
  split
  · exact .of_qnan
  split
  case h_1 => exact .of_number (Fmt.sum_number hf ..)
  case h_2 | h_6 | h_7 | h_8 => exact .of_number (f.infBits_number _)
  case h_3 | h_4 | h_5 => split; exacts [.of_number (f.infBits_number _), .of_qnan]
  case h_9 => exact .of_qnan

theorem Fmt.divV_gives {f : Fmt} (hf : 2 ≤ f.ex) (rm : BitVec 2) (fpm : Bool) (a b : FV) : f.Gives (f.divV rm fpm a b) := by
  unfold Fmt.divV
  split
  case h_1 | h_2 | h_3 => exact .of_qnan
  case h_4 => exact .of_number (f.infBits_number _)
  case h_5 => exact .of_number (f.zero_number _)
  case h_6 =>
    split_ifs
    · exact .of_qnan
    · exact .of_number (f.infBits_number _)
    · exact .of_number (Fmt.round_number hf ..)

theorem Fmt.sqrtPos_number {f : Fmt} (hf : 2 ≤ f.ex) (rm : BitVec 2) (fpm : Bool) (m : Nat) (e : Int) :
    f.Number (f.sqrtPos rm fpm m e).1 := by
  unfold Fmt.sqrtPos
  split
  · exact ⟨false, 0, 0, by simp [b2n], by positivity, by positivity, fun _ => rfl⟩
  · exact Fmt.round_number hf ..

theorem Fmt.sqrtV_gives {f : Fmt} (hf : 2 ≤ f.ex) (rm : BitVec 2) (fpm : Bool) (a : FV) : f.Gives (f.sqrtV rm fpm a) := by
  unfold Fmt.sqrtV
  split
  · exact .of_qnan
  · split; exacts [.of_qnan, .of_number (f.infBits_number _)]
  · split_ifs
    · exact .of_number (f.zero_number _)
    · exact .of_qnan
    · exact .of_number (Fmt.sqrtPos_number hf ..)

theorem Fmt.write_result {f : Fmt} (hf : 2 ≤ f.ex) (a : FV) : f.Result (f.write a) := by
  cases a with
  | nan => exact Or.inr rfl
  | inf => exact Or.inl (f.infBits_number _)
  | num => exact Or.inl (Fmt.round_number hf ..)

theorem Fmt.minV_gives {f : Fmt} (hf : 2 ≤ f.ex) (mx : Bool) (a b : FV) : f.Gives (f.minV mx a b) := by
  unfold Fmt.minV
  dsimp only
  split
  · exact .of_qnan
  all_goals exact Fmt.write_result hf _

theorem fromI32_number (rm : BitVec 2) (x : BitVec 32) : f32.Number (fromI32 rm x).1 := by
  unfold fromI32
  dsimp only
  split
  · exact f32.zero_number false
  · exact Fmt.round_number (f := f32) (by decide) ..

theorem narrow16_gives (rm : BitVec 2) (fpm : Bool) (a : FV) : f16.Gives (narrow16 rm fpm a) := by
  cases a with
  | nan => exact .of_qnan
  | inf => exact .of_number (f16.infBits_number _)
  | num =>
    unfold narrow16
    dsimp only
    split
    · exact .of_number (f16.zero_number _)
    · exact .of_number (Fmt.round_number (f := f16) (by decide) ..)

theorem widen16_gives (a : FV) : f32.Gives (widen16 a) := by
  cases a with
  | nan => exact .of_qnan
  | inf => exact .of_number (f32.infBits_number _)
  | num =>
    unfold widen16
    dsimp only
    split
    · exact .of_number (f32.zero_number _)
    · exact Fmt.write_result (f := f32) (by decide) (.num ..)

theorem lgDecode_number (c : BitVec 6) : f32.Number (lgDecode c) := by
  unfold lgDecode
  split
  · exact f32.zero_number false
  · exact Fmt.round_number (f := f32) (by decide) ..

theorem vnrmVal_gives (rm : BitVec 2) (fpm : Bool) (xs : List FV) : f32.Gives (vnrmVal rm fpm xs) := by
  unfold vnrmVal
  split_ifs
  · exact .of_qnan
  · exact .of_number (f32.infBits_number _)
  · exact .of_number (Fmt.sqrtPos_number (by decide) ..)

theorem narrow16_lt (rm : BitVec 2) (fpm : Bool) (a : FV) : (narrow16 rm fpm a).1 < 65536 := by
  rcases narrow16_gives rm fpm a with h | h
  · have hw : 2 ^ (f16.ex + f16.fr + 1) = 65536 := by norm_num [f16]
    have hlt := h.lt
    omega
  · have hq : f16.qnan = 32256 := by norm_num [Fmt.qnan, f16]
    omega

/-- The two halves of a lane that VFCVT writes a binary16 into (R137). -/
theorem vfcvt_low_half (old : Nat) {r : Nat} (hr : r < 65536) : (old / 65536 * 65536 + r) % 65536 = r := by omega

theorem vfcvt_high_half (r old : Nat) : (r * 65536 + old % 65536) / 65536 = r := by omega

theorem doubleRule_gives {s : State} {i : Instr} {d : Reg} {g : Nat → Nat × BitVec 16} {n : Nat} (h : doubleRule s i = some (d, g, n))
    (j : Nat) : f64.Gives (g j) := by
  have hf : 2 ≤ f64.ex := by decide
  unfold doubleRule at h
  split at h <;> cases h
  · exact Fmt.addV_gives hf ..
  · exact Fmt.mulV_gives hf ..
  · exact Fmt.fmaV_gives hf ..
  · exact Fmt.divV_gives hf ..

/-- VFCVT (R137): a half written beside the other is a binary16 result, a widened half a binary32 one. -/
theorem vfcvtLane_result (rm : BitVec 2) (fpm : Bool) (k : Nat) (x old : BitVec 32) : let r := (vfcvtLane rm fpm k x old).1
    (k = 0 → f16.Result (r % 65536)) ∧ (k = 1 → f16.Result (r / 65536)) ∧ (2 ≤ k → f32.Result r) := by
  refine ⟨fun h => ?low, fun h => ?high, fun h => ?wide⟩
  case low =>
    rw [vfcvtLane, if_pos h]
    exact (vfcvt_low_half _ (narrow16_lt ..)).symm ▸ narrow16_gives ..
  case high =>
    rw [vfcvtLane, if_neg (by omega), if_pos h]
    exact (vfcvt_high_half _ _).symm ▸ narrow16_gives ..
  case wide =>
    rw [vfcvtLane, if_neg (by omega), if_neg (by omega)]
    split <;> exact widen16_gives _

/-- Operands that an operation answers with the canonical quiet NaN, whatever its mode (R60). -/
theorem Fmt.addV_qnan (f : Fmt) (rm : BitVec 2) (fpm p x : Bool) (b : FV) :
    (f.addV rm fpm (.nan x) b).1 = f.qnan ∧ (f.addV rm fpm b (.nan x)).1 = f.qnan ∧ (f.addV rm fpm (.inf p) (.inf (!p))).1 = f.qnan :=
  ⟨rfl, by cases b <;> rfl, by cases p <;> rfl⟩

theorem Fmt.mulV_qnan (f : Fmt) (rm : BitVec 2) (fpm p q x : Bool) (e : Int) (b : FV) :
    (f.mulV rm fpm (.nan x) b).1 = f.qnan ∧ (f.mulV rm fpm b (.nan x)).1 = f.qnan ∧
    (f.mulV rm fpm (.num p 0 e) (.inf q)).1 = f.qnan ∧ (f.mulV rm fpm (.inf p) (.num q 0 e)).1 = f.qnan :=
  ⟨rfl, by cases b <;> rfl, rfl, rfl⟩

theorem Fmt.fmaV_nan (f : Fmt) (rm : BitVec 2) (fpm x : Bool) (b c : FV) :
    (f.fmaV rm fpm (.nan x) b c).1 = f.qnan ∧ (f.fmaV rm fpm b (.nan x) c).1 = f.qnan ∧ (f.fmaV rm fpm b c (.nan x)).1 = f.qnan := by
  refine ⟨by cases b <;> cases c <;> rfl, by cases b <;> cases c <;> rfl, ?_⟩
  unfold Fmt.fmaV
  split
  · rfl
  · cases b <;> cases c <;> rfl

theorem Fmt.fmaV_invalid (f : Fmt) (rm : BitVec 2) (fpm p q : Bool) (m : Nat) (e : Int) (c : FV) :
    (f.fmaV rm fpm (.num p 0 e) (.inf q) c).1 = f.qnan ∧ (f.fmaV rm fpm (.inf p) (.num q 0 e) c).1 = f.qnan ∧
    (f.fmaV rm fpm (.inf p) (.inf q) (.inf (p == q))).1 = f.qnan ∧ (f.fmaV rm fpm (.inf p) (.num q m e) (.inf (p == q))).1 = f.qnan ∧
    (f.fmaV rm fpm (.num p m e) (.inf q) (.inf (p == q))).1 = f.qnan := by
  refine ⟨rfl, rfl, by cases p <;> cases q <;> rfl, ?_, ?_⟩
  all_goals
    unfold Fmt.fmaV
    split
    · rfl
    · cases p <;> cases q <;> rfl

theorem Fmt.divV_qnan (f : Fmt) (rm : BitVec 2) (fpm p q x : Bool) (e e' : Int) (b : FV) :
    (f.divV rm fpm (.nan x) b).1 = f.qnan ∧ (f.divV rm fpm b (.nan x)).1 = f.qnan ∧ (f.divV rm fpm (.inf p) (.inf q)).1 = f.qnan ∧
    (f.divV rm fpm (.num p 0 e) (.num q 0 e')).1 = f.qnan :=
  ⟨rfl, by cases b <;> rfl, rfl, rfl⟩

/-- Settles O7: every lane, element, half and norm is a result of its format, and each operation answers a NaN as R60 says. -/
theorem nanResultsCanonical : Obligations.NanResultsCanonical := by
  unfold Obligations.NanResultsCanonical
  refine ⟨⟨rfl, rfl, rfl⟩, fun s i d g n j => ⟨fun h => ?lanes, fun h => (doubleRule_gives h j).canonical⟩,
    fun rm fpm xs => ⟨(vnrmVal_gives rm fpm xs).canonical, fun h => by rw [vnrmVal, if_pos h]; rfl⟩,
    fun f rm fpm p q mx x y m e e' b c => ?operations⟩
  case lanes =>
    have hf : 2 ≤ f32.ex := by decide
    unfold floatRule at h
    split at h <;> cases h
    case h_1 | h_2 | h_13 | h_15 => trivial
    case h_3 | h_4 => exact Fmt.Gives.canonical (Fmt.addV_gives hf ..)
    case h_5 => exact Fmt.Gives.canonical (Fmt.mulV_gives hf ..)
    case h_6 | h_7 => exact Fmt.Gives.canonical (Fmt.fmaV_gives hf ..)
    case h_8 => exact Fmt.Gives.canonical (Fmt.divV_gives hf ..)
    case h_9 => exact Fmt.Gives.canonical (Fmt.sqrtV_gives hf ..)
    case h_10 | h_11 => exact Fmt.Gives.canonical (Fmt.minV_gives hf ..)
    case h_14 => exact Fmt.Gives.canonical (.of_number (fromI32_number ..))
    case h_16 => exact Fmt.Gives.canonical (.of_number (lgDecode_number _))
    case h_12 k =>
      obtain ⟨hlow, hhigh, hwide⟩ := vfcvtLane_result (rmOf s) (fpmOf s) k.toNat (lane (readV s _) j) (lane (readV s d) j)
      rw [vfcvtLane_eq] at hlow hhigh hwide
      exact ⟨fun h => (hlow (by rw [h]; rfl)).canonical, fun h => (hhigh (by rw [h]; rfl)).canonical, fun h => (hwide h).canonical⟩
  case operations =>
    obtain ⟨ha1, ha2, ha3⟩ := f.addV_qnan rm fpm p x b
    obtain ⟨hm1, hm2, hm3, hm4⟩ := f.mulV_qnan rm fpm p q x e b
    obtain ⟨hn1, hn2, hn3⟩ := f.fmaV_nan rm fpm x b c
    obtain ⟨hi1, hi2, hi3, hi4, hi5⟩ := f.fmaV_invalid rm fpm p q m e c
    obtain ⟨hd1, hd2, hd3, hd4⟩ := f.divV_qnan rm fpm p q x e e' b
    exact ⟨ha1, ha2, ha3, hm1, hm2, hm3, hm4, hn1, hn2, hn3, hi1, hi2, hi3, hi4, hi5, hd1, hd2, hd3, hd4, rfl, rfl,
      fun hm => by rw [Fmt.sqrtV, if_neg hm]; rfl, rfl, rfl, rfl⟩

end Sys2Proof.Machine
end

section
/-! SUPPORT. Proofs about the matrix engine (chapters 3 and 7): the bytes of a tile, the beats of the product and drain units, and the
issue of ZST, ZLD and ZADD. -/

namespace Sys2Proof.Machine

/-! ### Where the bytes of a tile stand (R246, R247) -/

/-- A byte moved to another of the 32 words of its 128-byte row, by a mask of the row's own. -/
def moveWord (f : Nat → Nat) (b : Nat) : Nat := b / 128 * 128 + ((b / 4 % 32) ^^^ f (b / 128)) * 4 + b % 4

theorem moveWord_injective {f : Nat → Nat} (hf : ∀ r, f r < 32) : Function.Injective (moveWord f) := by
  intro a b h
  have hx (q : Nat) : (q / 4 % 32) ^^^ f (q / 128) < 32 := Nat.xor_lt_two_pow (n := 5) (Nat.mod_lt _ (by decide)) (hf _)
  have ha := hx a
  have hb := hx b
  unfold moveWord at h
  have hrow : a / 128 = b / 128 := by omega
  rw [hrow] at h ha
  have hxor : (a / 4 % 32) ^^^ f (b / 128) = (b / 4 % 32) ^^^ f (b / 128) := by omega
  have hword : a / 4 % 32 = b / 4 % 32 := Nat.xor_left_injective hxor
  omega

/-- The mask of the bank hash: it depends on the row and the key alone. -/
def bankMask (key : BitVec 32) (row : Nat) : Nat :=
  let x := row % 32768 &&& (key.toNat % 32768)
  (x % 32) ^^^ (x / 32 % 32) ^^^ (x / 1024 % 32) ^^^ (key.toNat / 2 ^ 27)

theorem hashed_eq_moveWord (key : BitVec 32) (b : Nat) : hashed key b = moveWord (bankMask key) b := by
  simp only [hashed, moveWord, bankMask, Nat.xor_assoc]

theorem bankMask_lt (key : BitVec 32) (row : Nat) : bankMask key row < 32 := by
  have hm (n : Nat) : n % 32 < 2 ^ 5 := Nat.mod_lt n (by decide)
  have hk : key.toNat / 2 ^ 27 < 2 ^ 5 := by omega
  exact Nat.xor_lt_two_pow (Nat.xor_lt_two_pow (Nat.xor_lt_two_pow (hm _) (hm _)) (hm _)) hk

theorem hashed_injective (key : BitVec 32) : Function.Injective (hashed key) := by
  rw [funext (hashed_eq_moveWord key)]
  exact moveWord_injective (bankMask_lt key)

theorem swizzled_injective : Function.Injective swizzled :=
  moveWord_injective (f := fun r => r % 32) fun _ => Nat.mod_lt _ (by decide)

/-- Two bytes of a core's tile store stand in two places. -/
theorem tileByte_injective (c : Nat) (key : BitVec 32) (view : Bool) : Function.Injective (tileByte c key view) := by
  intro a b h
  have hh := hashed_injective key (Nat.add_left_cancel h)
  cases view
  · exact hh
  · exact swizzled_injective hh

theorem tileByte_ge (c : Nat) (key : BitVec 32) (view : Bool) (b : Nat) : 2 ^ 44 ≤ tileByte c key view b := by
  unfold tileByte tileBase
  omega

/-! ### What the writes of an engine keep (R248, R250, R343)

They change memory, the dies' dirty blocks, logs and captures, the links that a block's copy crosses, and the monitors they fire. -/

/-- `t` is `s` but for memory, the dies, the links and the monitors of contexts. -/
structure EngineFrame (s t : State) : Prop where
  package : { t with mem := s.mem, dies := s.dies, links := s.links, cores := s.cores } = s
  core : ∀ c, { getCore t c with ctxs := .empty } = { getCore s c with ctxs := .empty }
  ctx : ∀ c x, { getCtx t c x with mon := (getCtx s c x).mon } = getCtx s c x

theorem EngineFrame.refl (s : State) : EngineFrame s s := ⟨rfl, fun _ => rfl, fun _ _ => rfl⟩

theorem EngineFrame.trans {s t u : State} (h : EngineFrame s t) (h' : EngineFrame t u) : EngineFrame s u where
  package := (congrArg (fun v : State => { v with mem := s.mem, dies := s.dies, links := s.links, cores := s.cores }) h'.package).trans h.package
  core c := (h'.core c).trans (h.core c)
  ctx c x := (congrArg (fun k : Ctx => { k with mon := (getCtx s c x).mon }) (h'.ctx c x)).trans (h.ctx c x)

/-- A state with the same cores. -/
theorem EngineFrame.of_cores {s t : State} (h : { t with mem := s.mem, dies := s.dies, links := s.links, cores := s.cores } = s)
    (hc : t.cores = s.cores) : EngineFrame s t := by
  refine ⟨h, fun c => ?_, fun c x => ?_⟩
  · rw [getCore, getCore, hc]
  · rw [getCtx, getCtx, getCore, getCore, hc]

theorem setMem_frame (s : State) (m : Memory) : EngineFrame s { s with mem := m } := .of_cores rfl rfl

theorem setDie_frame (s : State) (d : Nat) (v : Die) : EngineFrame s (setDie s d v) := .of_cores rfl rfl

theorem setLink_frame (s : State) (a b : Nat) (l : Link) : EngineFrame s (setLink s a b l) := .of_cores rfl rfl

theorem findCell_map {α β : Type} (f : Nat → α → β) (k : Nat) (l : List (Nat × α)) :
    findCell k (l.map fun c => (c.1, f c.1 c.2)) = (findCell k l).map (f k) := by
  induction l with
  | nil => rfl
  | cons e r ih =>
    obtain ⟨j, v⟩ := e
    simp only [List.map_cons, findCell]
    split_ifs with hj
    · rw [hj]; rfl
    · exact ih

/-- A change of every listed entry that keeps the default. -/
theorem Tab.get_map {α : Type} (t : Tab α) (f : Nat → α → α) (d : α) (k : Nat) (hd : f k d = d) : (t.map f).get d k = f k (t.get d k) := by
  simp only [Tab.get, Tab.map, findCell_map]
  cases findCell k t.cells with
  | none => exact hd.symm
  | some v => rfl

/-- A monitor armed on a byte fires (R192). -/
def fired (s : State) (a : Nat) (t : Ctx) : Ctx :=
  if t.mon.st = .armed ∧ t.mon.established ∧ (t.mon.addrs.any fun q => resolve s q == some a)
  then { t with mon := { t.mon with st := .fired } } else t

theorem fired_frame (s : State) (a : Nat) (t : Ctx) : { fired s a t with mon := t.mon } = t := by
  unfold fired
  split <;> rfl

theorem fired_reset (s : State) (a : Nat) : fired s a Ctx.reset = Ctx.reset :=
  if_neg fun h => nomatch h.1

theorem getCore_fireMonitors (s : State) (a c : Nat) :
    getCore (fireMonitors s a) c = { getCore s c with ctxs := (getCore s c).ctxs.map fun _ => fired s a } :=
  Tab.get_map _ (fun _ (k : Core) => { k with ctxs := k.ctxs.map fun _ => fired s a }) _ _ rfl

theorem getCtx_fireMonitors (s : State) (a c x : Nat) : getCtx (fireMonitors s a) c x = fired s a (getCtx s c x) := by
  rw [getCtx, getCore_fireMonitors]
  exact Tab.get_map _ _ _ _ (fired_reset s a)

theorem fireMonitors_frame (s : State) (a : Nat) : EngineFrame s (fireMonitors s a) := by
  refine ⟨rfl, fun c => ?_, fun c x => ?_⟩
  · rw [getCore_fireMonitors]
  · rw [getCtx_fireMonitors, fired_frame]

theorem logInbound_frame (s : State) (a b : Nat) (sq : BitVec 32) (m : MsgBody) : EngineFrame s (logInbound s a b sq m) := by
  unfold logInbound
  split
  · exact setDie_frame ..
  · exact .refl s

theorem carry_frame (s : State) (a b : Nat) (m : MsgBody) : EngineFrame s (carry s a b m) := by
  unfold carry
  split
  · exact .refl s
  split
  · exact setDie_frame ..
  · exact (setLink_frame ..).trans (logInbound_frame ..)

theorem carry_mem (s : State) (a b : Nat) (m : MsgBody) : (carry s a b m).mem = s.mem := by
  unfold carry
  split
  · rfl
  split
  · rfl
  · unfold logInbound
    dsimp only
    split <;> rfl

theorem carryTo_frame (s : State) (a : Nat) (m : MsgBody) (l : List Nat) : EngineFrame s (carryTo s a m l) := by
  induction l generalizing s with
  | nil => exact .refl s
  | cons b r ih => exact (carry_frame s a b m).trans (ih _)

theorem carryTo_mem (s : State) (a : Nat) (m : MsgBody) (l : List Nat) : (carryTo s a m l).mem = s.mem := by
  induction l generalizing s with
  | nil => rfl
  | cons b r ih => exact (ih _).trans (carry_mem s a b m)

theorem copyOut_frame (s : State) (d b : Nat) : EngineFrame s (copyOut s d b) := by
  unfold copyOut
  dsimp only
  split
  · exact .refl s
  · exact ((setMem_frame ..).trans (setDie_frame ..)).trans (carryTo_frame ..)

theorem keepBlock_frame (s : State) (a : Nat) : EngineFrame s (keepBlock s a) := by
  unfold keepBlock
  split
  · exact copyOut_frame ..
  · exact .refl s

theorem writeLevel_frame (s : State) (a : Nat) (v : Byte) : EngineFrame s (writeLevel s a v) :=
  ((keepBlock_frame s a).trans (setMem_frame ..)).trans (fireMonitors_frame _ a)

theorem markDirty_frame (s : State) (a : Nat) : EngineFrame s (markDirty s a) := by
  unfold markDirty
  dsimp only
  split_ifs
  · exact .refl s
  · exact .refl s
  · exact setDie_frame ..

theorem writeDepot_onLevel {s : State} {a : Nat} (v : Byte) (h : hbmTop ≤ a) : writeDepot s a v = writeLevel s a v :=
  if_neg (Nat.not_lt.mpr h)

theorem writeDepots_frame {l : List (Nat × Byte)} (s : State) (h : ∀ w ∈ l, hbmTop ≤ w.1) : EngineFrame s (writeDepots s l) := by
  induction l generalizing s with
  | nil => exact .refl s
  | cons w r ih =>
    obtain ⟨hw, hr⟩ := List.forall_mem_cons.mp h
    rw [writeDepots, writeDepot_onLevel _ hw]
    exact ((writeLevel_frame ..).trans (markDirty_frame ..)).trans (ih _ hr)

/-! ### What memory reads after the writes of an engine (R250, R343) -/

theorem findCell_filter_of_true {α : Type} {p : Nat × α → Bool} {k : Nat} (hp : ∀ v, p (k, v) = true) (l : List (Nat × α)) :
    findCell k (l.filter p) = findCell k l := by
  induction l with
  | nil => rfl
  | cons e r ih =>
    obtain ⟨j, v⟩ := e
    by_cases hj : j = k
    · subst hj
      simp [hp, findCell]
    · by_cases hpe : p (j, v) = true <;> simp [hpe, findCell, hj, ih]

/-- A copied run leaves every byte outside its destination alone. -/
theorem Memory.read_copy_of_outside (m : Memory) {src dst n b : Nat} (h : b < dst ∨ dst + n ≤ b) : (m.copy src dst n).read b = m.read b := by
  unfold Memory.copy
  rw [Memory.read_writeCells_of_not_mem]
  · unfold Memory.read Memory.clear
    rw [findCell_filter_of_true]
    intro v
    simpa using h
  · intro w hw
    obtain ⟨e, he, rfl⟩ := List.mem_map.mp hw
    have hin := (List.mem_filter.mp he).2
    simp only [Bool.and_eq_true, decide_eq_true_eq] at hin
    dsimp only
    omega

theorem freePlace_lt (m n : List (Nat × Nat)) : freePlace m n < Config.areaFrames * 16 := Nat.mod_lt _ (by decide)

theorem copyOut_read {s : State} {d blk b : Nat} (hd : d < 16) (hb : inArea b = false) : (copyOut s d blk).mem.read b = s.mem.read b := by
  unfold copyOut
  dsimp only
  split
  · rfl
  · rw [carryTo_mem]
    have hout : ¬(areaBase d ≤ b ∧ b < areaBase d + Config.areaFrames * 65536) := by
      simpa using List.any_eq_false.mp hb d (List.mem_range.mpr hd)
    have hplace : ∀ n < Config.areaFrames * 16, b < areaBase d + n * 4096 ∨ areaBase d + n * 4096 + 4096 ≤ b := fun n hn => by omega
    exact Memory.read_copy_of_outside _ (hplace _ (freePlace_lt ..))

/-- A byte that the writes of an engine change only where they name it: none of a checkpoint area while a captured block awaits its copy
(R343). -/
def Settled (s : State) (b : Nat) : Prop := inArea b = false ∨ ∀ p, waitsCopy s p = false

theorem die_lt_of_waitsCopy {s : State} {a : Nat} (h : waitsCopy s a = true) : dieOfAddr a < 16 := by
  simp only [waitsCopy, Bool.and_eq_true, decide_eq_true_eq] at h
  exact h.1.2

theorem keepBlock_read {s : State} {a b : Nat} (hb : Settled s b) : (keepBlock s a).mem.read b = s.mem.read b := by
  unfold keepBlock
  split
  · next hw =>
    rcases hb with hb | hb
    · exact copyOut_read (die_lt_of_waitsCopy hw) hb
    · rw [hb a] at hw; cases hw
  · rfl

theorem markDirty_mem (s : State) (a : Nat) : (markDirty s a).mem = s.mem := by
  unfold markDirty
  dsimp only
  split_ifs <;> rfl

theorem writeLevel_read_self (s : State) (a : Nat) (v : Byte) : (writeLevel s a v).mem.read a = v := Memory.read_write_self _ a v

theorem writeLevel_read_ne {s : State} {a b : Nat} (v : Byte) (hb : Settled s b) (hne : b ≠ a) : (writeLevel s a v).mem.read b = s.mem.read b :=
  (Memory.read_write_ne _ a b v hne).trans (keepBlock_read hb)

theorem waitsCopy_congr {s t : State} (h : ∀ d, (getDie t d).capture = (getDie s d).capture) (a : Nat) : waitsCopy t a = waitsCopy s a := by
  unfold waitsCopy
  rw [h]

theorem markDirty_capture (s : State) (a d : Nat) : (getDie (markDirty s a) d).capture = (getDie s d).capture := by
  unfold markDirty
  dsimp only
  split_ifs
  · rfl
  · rfl
  · by_cases hd : d = dieOfAddr a
    · rw [hd, getDie_setDie_self]
    · rw [getDie_setDie_ne _ _ _ _ hd]

/-- With no block that awaits its copy, a write of an engine makes none. -/
theorem Settled.write {s : State} {b : Nat} (h : Settled s b) (a : Nat) (v : Byte) : Settled (markDirty (writeLevel s a v) a) b := by
  rcases h with h | h
  · exact Or.inl h
  · refine Or.inr fun p => ?_
    rw [waitsCopy_congr (s := s) fun d => ?_]
    · exact h p
    · rw [markDirty_capture, writeLevel, keepBlock, if_neg (by rw [h a]; decide)]
      rfl

theorem writeDepots_cons {w : Nat × Byte} (s : State) (r : List (Nat × Byte)) (h : hbmTop ≤ w.1) :
    writeDepots s (w :: r) = writeDepots (markDirty (writeLevel s w.1 w.2) w.1) r := by
  rw [writeDepots, writeDepot_onLevel _ h]

theorem writeDepots_read_of_not_mem {l : List (Nat × Byte)} {s : State} {b : Nat} (hl : ∀ w ∈ l, hbmTop ≤ w.1) (hb : Settled s b)
    (hne : ∀ w ∈ l, b ≠ w.1) : (writeDepots s l).mem.read b = s.mem.read b ∧ Settled (writeDepots s l) b := by
  induction l generalizing s with
  | nil => exact ⟨rfl, hb⟩
  | cons w r ih =>
    obtain ⟨hw, hr⟩ := List.forall_mem_cons.mp hl
    obtain ⟨hwne, hrne⟩ := List.forall_mem_cons.mp hne
    rw [writeDepots_cons s r hw]
    obtain ⟨hread, hset⟩ := ih hr (hb.write w.1 w.2) hrne
    exact ⟨by rw [hread, markDirty_mem, writeLevel_read_ne _ hb hwne], hset⟩

/-- A byte that is written with one value alone reads as that. -/
theorem writeDepots_read_of_mem {l : List (Nat × Byte)} {s : State} {a : Nat} {v : Byte} (hl : ∀ w ∈ l, hbmTop ≤ w.1)
    (ha : inArea a = false) (hmem : (a, v) ∈ l) (hone : ∀ w ∈ l, w.1 = a → w.2 = v) : (writeDepots s l).mem.read a = v := by
  induction l generalizing s with
  | nil => cases hmem
  | cons w r ih =>
    obtain ⟨hw, hr⟩ := List.forall_mem_cons.mp hl
    obtain ⟨hwv, hrv⟩ := List.forall_mem_cons.mp hone
    rw [writeDepots_cons s r hw]
    by_cases hin : (a, v) ∈ r
    · exact ih hr hin hrv
    · have hwa : (a, v) = w := (List.mem_cons.mp hmem).resolve_right hin
      have hrest : ∀ u ∈ r, a ≠ u.1 := fun u hu h => hin (by rw [h, ← hrv u hu h.symm]; exact hu)
      rw [(writeDepots_read_of_not_mem hr (Or.inl ha) hrest).1, markDirty_mem, ← hwa]
      exact writeLevel_read_self ..

theorem writeDepots_append (s : State) (l r : List (Nat × Byte)) : writeDepots s (l ++ r) = writeDepots (writeDepots s l) r := by
  induction l generalizing s with
  | nil => rfl
  | cons w l ih => exact ih _

/-- The areas lie in the memory stacks, below every on-chip level. -/
theorem inArea_of_onLevel {a : Nat} (h : 2 ^ 44 ≤ a) : inArea a = false := by
  have hbase : ∀ d < 16, areaBase d + Config.areaFrames * 65536 ≤ 2 ^ 44 := by decide
  refine List.any_eq_false.mpr fun d hd => ?_
  have hd := hbase d (List.mem_range.mp hd)
  simp only [Bool.and_eq_true, decide_eq_true_eq]
  omega

/-! ### The rows of a ZST (R78, Table 7.8) -/

/-- Bytes of an element of a drained row. -/
def drainWidth (w : Word) : Nat := if epiFmt w = 3 then 16 else if epiFmt w = 2 then 4 else if epiFmt w = 0 then 1 else 2

/-- Is the tile a BX tile, with the exponents of its rows behind the mantissas? -/
def drainsBlocks (w : Word) : Prop := epiFmt w ≠ 3 ∧ epiFmt w ≠ 2

/-- A row of 32 elements, and the exponent of a BX row. -/
theorem drainRow_shape (j : DrainJob) (r : Nat) : ∃ (v : Nat → Nat) (e : Nat), ∀ p ∈ (drainRow j r).puts,
    (∃ m < 32, p = (drainWidth j.epi * (32 * r + m), v m, drainWidth j.epi)) ∨
    (drainsBlocks j.epi ∧ p = (2048 * drainWidth j.epi + r, e, 1)) := by
  unfold drainRow
  dsimp only
  by_cases h3 : epiFmt j.epi = 3
  · rw [if_pos h3, drainWidth, if_pos h3]
    exact ⟨_, 0, List.forall_mem_map.mpr fun m hm => Or.inl ⟨m, List.mem_range.mp hm, Prod.ext (by ring) rfl⟩⟩
  rw [if_neg h3, drainWidth, if_neg h3]
  by_cases h2 : epiFmt j.epi = 2
  · rw [if_pos h2, if_pos h2]
    exact ⟨_, 0, List.forall_mem_map.mpr fun m hm => Or.inl ⟨m, List.mem_range.mp hm, Prod.ext (by ring) rfl⟩⟩
  · rw [if_neg h2, if_neg h2]
    refine ⟨_, _, List.forall_mem_append.mpr ⟨List.forall_mem_map.mpr fun m hm => Or.inl ⟨m, List.mem_range.mp hm, Prod.ext (by ring) rfl⟩,
      List.forall_mem_singleton.mpr (Or.inr ⟨⟨h3, h2⟩, rfl⟩)⟩⟩

/-- The drained bytes of a tile hold 2048 elements, and the exponents of its 64 rows. -/
theorem footprint_ge (w : Word) : 2048 * drainWidth w ≤ drainFootprint w ∧ (drainsBlocks w → 2048 * drainWidth w + 64 ≤ drainFootprint w) := by
  unfold drainWidth drainFootprint drainsBlocks
  split_ifs <;> omega

/-- Element and byte of an offset in a run of elements of `w` bytes. -/
theorem elem_byte_unique {w a a' i i' : Nat} (hi : i < w) (hi' : i' < w) (h : w * a + i = w * a' + i') : a = a' ∧ i = i' := by
  have hq := congrArg (· / w) h
  have hr := congrArg (· % w) h
  simp only [Nat.mul_add_div (Nat.zero_lt_of_lt hi), Nat.div_eq_of_lt hi, Nat.div_eq_of_lt hi', Nat.add_zero] at hq
  simp only [Nat.mul_add_mod, Nat.mod_eq_of_lt hi, Nat.mod_eq_of_lt hi'] at hr
  exact ⟨hq, hr⟩

/-- An element's bytes end before the exponents. -/
theorem elem_byte_lt {w r m i : Nat} (hr : r < 64) (hm : m < 32) (hi : i < w) : w * (32 * r + m) + i < 2048 * w :=
  calc w * (32 * r + m) + i < w * (32 * r + m) + w := Nat.add_lt_add_left hi _
    _ = w * (32 * r + m + 1) := (Nat.mul_succ ..).symm
    _ ≤ w * 2048 := Nat.mul_le_mul_left _ (by omega)
    _ = 2048 * w := Nat.mul_comm ..

/-- The byte of the tile that a put of a row writes. -/
theorem drainRow_offset {j : DrainJob} {r : Nat} {p : Nat × Nat × Nat} (hp : p ∈ (drainRow j r).puts) {n : Nat} (hn : n < p.2.2) :
    (∃ m < 32, ∃ i < drainWidth j.epi, p.1 + n = drainWidth j.epi * (32 * r + m) + i) ∨
    (drainsBlocks j.epi ∧ p.1 + n = 2048 * drainWidth j.epi + r) := by
  obtain ⟨v, e, h⟩ := drainRow_shape j r
  rcases h p hp with ⟨m, hm, rfl⟩ | ⟨hb, rfl⟩
  · exact Or.inl ⟨m, hm, n, hn, rfl⟩
  · exact Or.inr ⟨hb, by dsimp only at hn ⊢; omega⟩

/-- The puts of the 64 rows stay inside the tile's drained bytes. -/
theorem drainRow_in_footprint {j : DrainJob} {r : Nat} (hr : r < 64) {p : Nat × Nat × Nat} (hp : p ∈ (drainRow j r).puts) {n : Nat}
    (hn : n < p.2.2) : p.1 + n < drainFootprint j.epi := by
  obtain ⟨helem, hexp⟩ := footprint_ge j.epi
  rcases drainRow_offset hp hn with ⟨m, hm, i, hi, h⟩ | ⟨hb, h⟩
  · have hlt := elem_byte_lt hr hm hi
    omega
  · have hlt := hexp hb
    omega

/-- Rows do not overlap. -/
theorem drainRow_row_unique {j : DrainJob} {r r' : Nat} (hr : r < 64) (hr' : r' < 64) {p p' : Nat × Nat × Nat} (hp : p ∈ (drainRow j r).puts)
    (hp' : p' ∈ (drainRow j r').puts) {n n' : Nat} (hn : n < p.2.2) (hn' : n' < p'.2.2) (h : p.1 + n = p'.1 + n') : r = r' := by
  rcases drainRow_offset hp hn with ⟨m, hm, i, hi, ho⟩ | ⟨-, ho⟩ <;> rcases drainRow_offset hp' hn' with ⟨m', hm', i', hi', ho'⟩ | ⟨-, ho'⟩ <;>
    rw [ho, ho'] at h
  · have he := (elem_byte_unique hi hi' h).1
    omega
  · have hlt := elem_byte_lt hr hm hi
    omega
  · have hlt := elem_byte_lt hr' hm' hi'
    omega
  · omega

/-- The puts of a row do not overlap. -/
theorem drainRow_put_unique {j : DrainJob} {r : Nat} (hr : r < 64) {p p' : Nat × Nat × Nat} (hp : p ∈ (drainRow j r).puts)
    (hp' : p' ∈ (drainRow j r).puts) {n n' : Nat} (hn : n < p.2.2) (hn' : n' < p'.2.2) (h : p.1 + n = p'.1 + n') : p = p' ∧ n = n' := by
  obtain ⟨v, e, hs⟩ := drainRow_shape j r
  rcases hs p hp with ⟨m, hm, rfl⟩ | ⟨-, rfl⟩ <;> rcases hs p' hp' with ⟨m', hm', rfl⟩ | ⟨-, rfl⟩ <;> dsimp only at hn hn' h
  · obtain ⟨he, hi⟩ := elem_byte_unique hn hn' h
    obtain rfl : m = m' := by omega
    exact ⟨rfl, hi⟩
  · have hlt := elem_byte_lt hr hm hn
    omega
  · have hlt := elem_byte_lt hr hm' hn'
    omega
  · exact ⟨rfl, by omega⟩

/-! ### The bytes of a row in the tile -/

/-- The storage place of byte `n` of a put at place `b` of the draining tile. -/
def drainPlace (c : Nat) (j : DrainJob) (b n : Nat) : Nat := tileByte c j.key j.tile.view (j.tile.base + b + n)

theorem drainPlace_inj {c : Nat} {j : DrainJob} {b n b' n' : Nat} (h : drainPlace c j b n = drainPlace c j b' n') : b + n = b' + n' := by
  have hb := tileByte_injective c j.key j.tile.view h
  omega

/-- The bytes that the puts of a row write. -/
def putCells (c : Nat) (j : DrainJob) (ps : List (Nat × Nat × Nat)) : List (Nat × Byte) :=
  ps.flatMap fun p => (List.range p.2.2).map fun n => (drainPlace c j p.1 n, BitVec.ofNat 8 (p.2.1 / 2 ^ (8 * n)))

theorem putAll_eq (s : State) (c : Nat) (j : DrainJob) (ps : List (Nat × Nat × Nat)) :
    putAll s c j.key j.tile ps = writeDepots s (putCells c j ps) := by
  induction ps generalizing s with
  | nil => rfl
  | cons p r ih => rw [putAll, ih]; exact (writeDepots_append s _ (putCells c j r)).symm

theorem mem_putCells {c : Nat} {j : DrainJob} {ps : List (Nat × Nat × Nat)} {w : Nat × Byte} : w ∈ putCells c j ps ↔
    ∃ p ∈ ps, ∃ n < p.2.2, w = (drainPlace c j p.1 n, BitVec.ofNat 8 (p.2.1 / 2 ^ (8 * n))) := by
  simp only [putCells, List.mem_flatMap, List.mem_map, List.mem_range, eq_comm]

theorem putCells_onLevel (c : Nat) (j : DrainJob) (ps : List (Nat × Nat × Nat)) : ∀ w ∈ putCells c j ps, hbmTop ≤ w.1 := by
  intro w hw
  obtain ⟨p, -, n, -, rfl⟩ := mem_putCells.mp hw
  exact le_trans (by decide) (tileByte_ge ..)

theorem putAll_frame (s : State) (c : Nat) (j : DrainJob) (ps : List (Nat × Nat × Nat)) : EngineFrame s (putAll s c j.key j.tile ps) := by
  rw [putAll_eq]
  exact writeDepots_frame s (putCells_onLevel c j ps)

/-- Each byte of a drained row stands in its place of the tile. -/
theorem putAll_row_read (s : State) (c : Nat) {j : DrainJob} {r : Nat} (hr : r < 64) {p : Nat × Nat × Nat} (hp : p ∈ (drainRow j r).puts)
    {n : Nat} (hn : n < p.2.2) :
    (putAll s c j.key j.tile (drainRow j r).puts).mem.read (drainPlace c j p.1 n) = BitVec.ofNat 8 (p.2.1 / 2 ^ (8 * n)) := by
  rw [putAll_eq]
  refine writeDepots_read_of_mem (putCells_onLevel _ _ _) (inArea_of_onLevel (tileByte_ge ..)) (mem_putCells.mpr ⟨p, hp, n, hn, rfl⟩) fun w hw h => ?_
  obtain ⟨p', hp', n', hn', rfl⟩ := mem_putCells.mp hw
  obtain ⟨rfl, rfl⟩ := drainRow_put_unique hr hp' hp hn' hn (drainPlace_inj h)
  rfl

/-- A byte that no put of a row names reads as before. -/
theorem putAll_read_of_ne {s : State} {c : Nat} {j : DrainJob} {ps : List (Nat × Nat × Nat)} {a : Nat} (ha : Settled s a)
    (hne : ∀ p ∈ ps, ∀ n, n < p.2.2 → a ≠ drainPlace c j p.1 n) :
    (putAll s c j.key j.tile ps).mem.read a = s.mem.read a ∧ Settled (putAll s c j.key j.tile ps) a := by
  rw [putAll_eq]
  refine writeDepots_read_of_not_mem (putCells_onLevel _ _ _) ha fun w hw => ?_
  obtain ⟨p, hp, n, hn, rfl⟩ := mem_putCells.mp hw
  exact hne p hp n hn

/-! ### Banks (R75, R76) -/

theorem getCore_setBank_self (s : State) (c : Nat) (z : TReg) (b : Bank) : getCore (setBank s c z b) c = { getCore s c with
    z := (getCore s c).z.set z.toNat b
    zdirty := if (getCore s c).zdirty.contains z.toNat then (getCore s c).zdirty else (getCore s c).zdirty ++ [z.toNat] } :=
  getCore_setCore_self ..

theorem foldl_set_get {α : Type} (t : Tab α) (d : α) (g : Nat → α) (lo n q : Nat) :
    ((List.range n).foldl (fun t i => t.set (lo + i) (g i)) t).get d q = if lo ≤ q ∧ q < lo + n then g (q - lo) else t.get d q := by
  induction n with
  | zero => rw [if_neg (by omega)]; rfl
  | succ n ih =>
    rw [List.range_succ, List.foldl_append, List.foldl_cons, List.foldl_nil]
    by_cases hq : q = lo + n
    · rw [hq, Tab.get_set_self, if_pos (by omega), Nat.add_sub_cancel_left]
    · rw [Tab.get_set_ne _ _ _ _ _ hq, ih]
      exact if_congr (by omega) rfl rfl

theorem updRows_elem (b : Bank) (lo n : Nat) (f : Nat → Nat → AccSum → AccSum) {r m : Nat} (hm : m < 32) :
    (updRows b lo n f).elem r m = if lo ≤ r ∧ r < lo + n then (BitVec.ofInt 80 (f r m ⟨b.elem r m, false, false⟩).v).toInt else b.elem r m := by
  have hfold := foldl_set_get b.elems 0
    (fun i => BitVec.ofInt 80 (f (lo + i / 32) (i % 32) ⟨b.elem (lo + i / 32) (i % 32), false, false⟩).v) (32 * lo) (32 * n) (32 * r + m)
  rw [Bank.elem, updRows]
  simp only [List.foldl_map, hfold]
  by_cases hr : lo ≤ r ∧ r < lo + n
  · rw [if_pos (by omega), if_pos hr, show lo + (32 * r + m - 32 * lo) / 32 = r by omega, show (32 * r + m - 32 * lo) % 32 = m by omega]
  · rw [if_neg (by omega), if_neg hr, Bank.elem]

/-- Some element of the rows has a property, element by element. -/
theorem any_rows_iff {lo n : Nat} (q : Nat → Nat → Bool) : ((List.range (32 * n)).any fun i => q (lo + i / 32) (i % 32)) = true ↔
    ∃ r m, (lo ≤ r ∧ r < lo + n) ∧ m < 32 ∧ q r m = true := by
  rw [List.any_eq_true]
  constructor
  · rintro ⟨i, hi, h⟩
    have hi := List.mem_range.mp hi
    exact ⟨_, _, by omega, by omega, h⟩
  · rintro ⟨r, m, hr, hm, h⟩
    refine ⟨32 * (r - lo) + m, List.mem_range.mpr (by omega), ?_⟩
    rwa [show lo + (32 * (r - lo) + m) / 32 = r by omega, show (32 * (r - lo) + m) % 32 = m by omega]

theorem updRows_inexact (b : Bank) (lo n : Nat) (f : Nat → Nat → AccSum → AccSum) : (updRows b lo n f).inexact = true ↔
    b.inexact = true ∨ ∃ r m, (lo ≤ r ∧ r < lo + n) ∧ m < 32 ∧ (f r m ⟨b.elem r m, false, false⟩).inexact = true := by
  simp only [updRows, Bool.or_eq_true, List.any_map]
  exact or_congr_right (any_rows_iff fun r m => (f r m ⟨b.elem r m, false, false⟩).inexact)

theorem updRows_ovf (b : Bank) (lo n : Nat) (f : Nat → Nat → AccSum → AccSum) : (updRows b lo n f).ovf = true ↔
    b.ovf = true ∨ ∃ r m, (lo ≤ r ∧ r < lo + n) ∧ m < 32 ∧ (f r m ⟨b.elem r m, false, false⟩).ovf = true := by
  simp only [updRows, Bool.or_eq_true, List.any_map]
  exact or_congr_right (any_rows_iff fun r m => (f r m ⟨b.elem r m, false, false⟩).ovf)

/-- A clamped sum fits its element (R76). -/
theorem contribute_fits (zexp : Int) (a : AccSum) (n e : Int) :
    (BitVec.ofInt 80 (contribute zexp a n e).v).toInt = (contribute zexp a n e).v := by
  have hv : -(2 ^ 79) ≤ (contribute zexp a n e).v ∧ (contribute zexp a n e).v ≤ 2 ^ 79 - 1 := by
    unfold contribute
    dsimp only
    generalize a.v + _ = v
    split_ifs <;> dsimp only <;> omega
  rw [BitVec.toInt_ofInt]
  exact Int.bmod_eq_of_le (by omega) (by omega)

/-! ### Scale entries (R169) -/

theorem writeQ_due {q : ScaleQ} {e : List Byte} {r : List (Nat × List Byte)} (h : q.pend = (0, e) :: r) : writeQ q =
    { q with ents := q.ents.set q.wr e, wr := (q.wr + 1) % 16, cnt := q.cnt + 1, pushed := q.pushed + 1, pend := r } := by
  simp only [writeQ, h]

theorem exec_scaleEntryWrite_a (s : State) (c : Nat) :
    exec (.scaleEntryWrite c false) s = .next (setCore s c { getCore s c with sqa := writeQ (getCore s c).sqa }) := rfl

theorem exec_scaleEntryWrite_b (s : State) (c : Nat) :
    exec (.scaleEntryWrite c true) s = .next (setCore s c { getCore s c with sqb := writeQ (getCore s c).sqb }) := rfl

/-! ### A counted beat of the array (R171, R76) -/

/-- The product whose beat is counted, with the scale entries it draws at the start of a block. -/
def drawnJob (k : Core) (j : MmaJob) : MmaJob := if beatDraws j then { j with sa := headQ k.sqa, sb := headQ k.sqb } else j

/-- The bank a counted beat adds to: the first beat of a product that does not accumulate starts from 0. -/
def beatBase (b : Bank) (j : MmaJob) : Bank := if j.u = 0 ∧ !j.acc then { b with elems := .empty, inexact := false, ovf := false } else b

/-- The bank that a counted beat leaves. -/
def beatResult (s : State) (c : Nat) (j : MmaJob) : Bank :=
  updRows (beatBase (coreBank s c j.z) j) 0 64 (beatElem s c (drawnJob (getCore s c) j) (coreBank s c j.z).zexp)

/-- The core that a counted beat leaves. -/
def beatCore (s : State) (c : Nat) (j : MmaJob) : Core :=
  let k := getCore s c
  { k with
    sqa := if beatDraws j then drawQ k.sqa else k.sqa
    sqb := if beatDraws j then drawQ k.sqb else k.sqb
    z := k.z.set j.z.toNat (beatResult s c j)
    zdirty := if k.zdirty.contains j.z.toNat then k.zdirty else k.zdirty ++ [j.z.toNat]
    mma := if j.u + 1 < j.beats then some { drawnJob k j with u := j.u + 1, due := false } else none }

theorem beatBase_zexp (b : Bank) (j : MmaJob) : (beatBase b j).zexp = b.zexp := by
  unfold beatBase
  split <;> rfl

theorem drawnJob_frame (k : Core) (j : MmaJob) : { drawnJob k j with sa := j.sa, sb := j.sb } = j := by
  unfold drawnJob
  split <;> rfl

theorem endBeat_setBank (s : State) (c : Nat) (z : TReg) (b : Bank) (j : MmaJob) : endBeat (setBank s c z b) c j = setCore s c
    { getCore s c with
      z := (getCore s c).z.set z.toNat b
      zdirty := if (getCore s c).zdirty.contains z.toNat then (getCore s c).zdirty else (getCore s c).zdirty ++ [z.toNat]
      mma := if j.u + 1 < j.beats then some { j with u := j.u + 1, due := false } else none } := by
  rw [endBeat, getCore_setBank_self]
  exact setCore_setCore ..

/-- The engines read tiles from memory alone. -/
theorem tileReadN_congr {s t : State} (h : t.mem = s.mem) (c : Nat) (key : BitVec 32) (l : Tile) (b n : Nat) :
    tileReadN t c key l b n = tileReadN s c key l b n := by
  induction n with
  | zero => rfl
  | succ n ih => rw [tileReadN, tileReadN, ih, tileRead, tileRead, h]

theorem elemAt_congr {s t : State} (h : t.mem = s.mem) (c : Nat) (key : BitVec 32) (l : Tile) (o : Nat) :
    elemAt t c key l o = elemAt s c key l o := by
  simp only [elemAt, tileRead, tileReadN_congr h, h]

theorem beatElem_congr {s t : State} (h : t.mem = s.mem) (c : Nat) (j : MmaJob) : beatElem t c j = beatElem s c j := by
  funext zexp r n a
  simp only [beatElem, elemAt_congr h]

/-- The sums of a beat read memory and the product's bank alone. -/
theorem beatSums_congr {s t : State} {c : Nat} {j j1 : MmaJob} (hmem : t.mem = s.mem) (hbank : coreBank t c j.z = coreBank s c j.z) :
    updRows (beatBase (coreBank t c j.z) j) 0 64 (beatElem t c j1 (beatBase (coreBank t c j.z) j).zexp) =
      updRows (beatBase (coreBank s c j.z) j) 0 64 (beatElem s c j1 (coreBank s c j.z).zexp) := by
  rw [hbank, beatBase_zexp, beatElem_congr hmem]

/-- The draws of a beat that begins a block. -/
def drawnState (s : State) (c : Nat) (j : MmaJob) : State :=
  if beatDraws j then setCore s c { getCore s c with sqa := drawQ (getCore s c).sqa, sqb := drawQ (getCore s c).sqb } else s

theorem getCore_drawnState (s : State) (c : Nat) (j : MmaJob) : getCore (drawnState s c j) c = { getCore s c with
    sqa := if beatDraws j then drawQ (getCore s c).sqa else (getCore s c).sqa
    sqb := if beatDraws j then drawQ (getCore s c).sqb else (getCore s c).sqb } := by
  unfold drawnState
  cases beatDraws j
  · rfl
  · exact getCore_setCore_self ..

theorem setCore_drawnState (s : State) (c : Nat) (j : MmaJob) (k : Core) : setCore (drawnState s c j) c k = setCore s c k := by
  unfold drawnState
  split
  · exact setCore_setCore ..
  · rfl

theorem drawnState_mem (s : State) (c : Nat) (j : MmaJob) : (drawnState s c j).mem = s.mem := by
  unfold drawnState
  split <;> rfl

theorem matrixBeat_counted {s : State} {c : Nat} {j : MmaJob} (hj : (getCore s c).mma = some j) (hdue : j.due = true) (hdead : j.dead = false)
    (hempty : beatEmpty s c j = false) : matrixBeat s c = setCore (lastBeat s c) c (beatCore s c j) := by
  have hbank : coreBank (drawnState (lastBeat s c) c j) c j.z = coreBank s c j.z := by rw [coreBank, getCore_drawnState]; rfl
  have hmem : (drawnState (lastBeat s c) c j).mem = s.mem := drawnState_mem ..
  have hbeat : matrixBeat s c = let s1 := drawnState (lastBeat s c) c j
      endBeat (setBank s1 c j.z (updRows (beatBase (coreBank s1 c j.z) j) 0 64
        (beatElem s1 c (drawnJob (getCore s c) j) (beatBase (coreBank s1 c j.z) j).zexp))) c (drawnJob (getCore s c) j) := by
    unfold matrixBeat
    rw [hj]
    dsimp only
    rw [if_neg (by rw [hdue]; decide), if_neg (by rw [hdead]; decide), if_neg (by rw [hempty]; decide)]
    rfl
  rw [hbeat]
  dsimp only
  rw [beatSums_congr hmem hbank, endBeat_setBank, getCore_drawnState, setCore_drawnState]
  have hju : (drawnJob (getCore s c) j).u = j.u := (congrArg MmaJob.u (drawnJob_frame (getCore s c) j) :)
  have hjb : (drawnJob (getCore s c) j).beats = j.beats := (congrArg MmaJob.beats (drawnJob_frame (getCore s c) j) :)
  unfold beatCore
  dsimp only
  rw [hju, hjb]
  rfl

theorem exec_matrixBeat (s : State) (c : Nat) : exec (.matrixBeat c) s = .next (matrixBeat s c) := rfl

theorem beatBase_going {j : MmaJob} (b : Bank) (h : j.acc = true ∨ 0 < j.u) : beatBase b j = b := by
  refine if_neg fun ⟨hu, ha⟩ => ?_
  rcases h with h | h
  · rw [h] at ha; cases ha
  · omega

theorem beatBase_start {j : MmaJob} (b : Bank) (hacc : j.acc = false) (hu : j.u = 0) (r n : Nat) : (beatBase b j).elem r n = 0 := by
  rw [beatBase, if_pos ⟨hu, by rw [hacc]; rfl⟩]
  rfl

theorem beatResult_elem (s : State) (c : Nat) (j : MmaJob) {r n : Nat} (hr : r < 64) (hn : n < 32) : (beatResult s c j).elem r n =
    (BitVec.ofInt 80 (beatElem s c (drawnJob (getCore s c) j) (coreBank s c j.z).zexp r n
      ⟨(beatBase (coreBank s c j.z) j).elem r n, false, false⟩).v).toInt := by
  rw [beatResult, updRows_elem _ _ _ _ hn, if_pos ⟨Nat.zero_le r, by omega⟩]

/-- A bank's elements are all that a property of some row and column ranges over. -/
theorem exists_elem_iff {q : Nat → Nat → Prop} :
    (∃ r n, (0 ≤ r ∧ r < 0 + 64) ∧ n < 32 ∧ q r n) ↔ ∃ r n, r < 64 ∧ n < 32 ∧ q r n :=
  exists_congr fun r => exists_congr fun n => and_congr_left fun _ => by omega

/-- The core and the product's bank after a counted beat. -/
theorem getCore_matrixBeat (s : State) (c : Nat) (j : MmaJob) : getCore (setCore (lastBeat s c) c (beatCore s c j)) c = beatCore s c j :=
  getCore_setCore_self ..

theorem coreBank_matrixBeat (s : State) (c : Nat) (j : MmaJob) : coreBank (setCore (lastBeat s c) c (beatCore s c j)) c j.z = beatResult s c j := by
  rw [coreBank, getCore_matrixBeat]
  exact Tab.get_set_self ..

theorem drawnJob_of_draws {k : Core} {j : MmaJob} (h : beatDraws j = true) : drawnJob k j = { j with sa := headQ k.sqa, sb := headQ k.sqb } := if_pos h

theorem drawnJob_of_not_draws {k : Core} {j : MmaJob} (h : beatDraws j = false) : drawnJob k j = j := by rw [drawnJob, h]; rfl

theorem beatEmpty_of_not_draws (s : State) (c : Nat) {j : MmaJob} (h : beatDraws j = false) : beatEmpty s c j = false := by
  rw [beatEmpty, h, Bool.false_and]

/-! ### A beat that is not performed (Table 7.6) -/

theorem matrixBeat_none {s : State} {c : Nat} (h : (getCore s c).mma = none) : matrixBeat s c = s := by
  rw [matrixBeat, h]

theorem matrixBeat_empty {s : State} {c : Nat} {j : MmaJob} (hj : (getCore s c).mma = some j) (hdue : j.due = true) (hdead : j.dead = false)
    (hempty : beatEmpty s c j = true) : matrixBeat s c =
      if beatWaits s c j then setCore s c { getCore s c with mma := some { j with due := false } }
      else takeTrap (setCore s c { getCore s c with mma := some { j with due := false, dead := true } }) c j.x
        ⟨0x0C, j.slot, true, BitVec.ofNat 64 (0x31 * 2 ^ 32 + j.word.toNat), j.pc⟩ := by
  rw [matrixBeat, hj]
  dsimp only
  rw [if_neg (by rw [hdue]; decide), if_neg (by rw [hdead]; decide), if_pos hempty]

theorem matrixBeat_dead {s : State} {c : Nat} {j : MmaJob} (hj : (getCore s c).mma = some j) (hdue : j.due = true) (hdead : j.dead = true) :
    matrixBeat s c = endBeat (lastBeat s c) c j := by
  rw [matrixBeat, hj]
  dsimp only
  rw [if_neg (by rw [hdue]; decide), if_pos hdead]

/-! ### A beat of a ZST (R78, R173) -/

/-- `t` is `s` but for memory, the dies, the links and the contexts of cores. -/
structure BeatFrame (s t : State) : Prop where
  package : { t with mem := s.mem, dies := s.dies, links := s.links, cores := s.cores } = s
  core : ∀ d, { getCore t d with ctxs := .empty } = { getCore s d with ctxs := .empty }

theorem EngineFrame.beat {s t : State} (h : EngineFrame s t) : BeatFrame s t := ⟨h.package, h.core⟩

theorem BeatFrame.trans {s t u : State} (h : BeatFrame s t) (h' : BeatFrame t u) : BeatFrame s u where
  package := (congrArg (fun v : State => { v with mem := s.mem, dies := s.dies, links := s.links, cores := s.cores }) h'.package).trans h.package
  core d := (h'.core d).trans (h.core d)

theorem setCtx_beatFrame (s : State) (c x : Nat) (k : Ctx) : BeatFrame s (setCtx s c x k) := by
  refine ⟨rfl, fun d => ?_⟩
  by_cases hd : d = c
  · rw [hd, getCore_setCtx_self]
  · rw [getCore_setCtx_ne _ _ _ _ _ hd]

theorem setTile_beatFrame (s : State) (c x : Nat) (t : TReg) (f : Tile → Tile) : BeatFrame s (setTile s c x t f) := setCtx_beatFrame ..

theorem tile_setTile (s : State) (c x : Nat) (t : TReg) (f : Tile → Tile) :
    (getCtx (setTile s c x t f) c x).live.tiles.get Tile.off t.toNat = f ((getCtx s c x).live.tiles.get Tile.off t.toNat) := by
  rw [setTile, getCtx_setCtx_self]
  exact Tab.get_set_self ..

/-- A row of a ZST in its tile. -/
def storeRow (s : State) (c : Nat) (j : DrainJob) (r : Nat) : State :=
  setTile (putAll s c j.key j.tile (drainRow j r).puts) c j.x j.t
    fun t => { t with arrived := t.arrived + ((drainRow j r).puts.map fun p => p.2.2).sum }

theorem storeRow_frame (s : State) (c : Nat) (j : DrainJob) (r : Nat) : BeatFrame s (storeRow s c j r) :=
  (putAll_frame ..).beat.trans (setTile_beatFrame ..)

theorem storeRow_tile_st (s : State) (c : Nat) (j : DrainJob) (r : Nat) :
    ((getCtx (storeRow s c j r) c j.x).live.tiles.get Tile.off j.t.toNat).st = ((getCtx s c j.x).live.tiles.get Tile.off j.t.toNat).st := by
  have h : (getCtx (putAll s c j.key j.tile (drainRow j r).puts) c j.x).live = (getCtx s c j.x).live :=
    (congrArg Ctx.live ((putAll_frame s c j _).ctx c j.x) :)
  rw [storeRow, tile_setTile, h]

theorem storeRow_read (s : State) (c : Nat) {j : DrainJob} {r : Nat} (hr : r < 64) {p : Nat × Nat × Nat} (hp : p ∈ (drainRow j r).puts)
    {n : Nat} (hn : n < p.2.2) : (storeRow s c j r).mem.read (drainPlace c j p.1 n) = BitVec.ofNat 8 (p.2.1 / 2 ^ (8 * n)) :=
  putAll_row_read s c hr hp hn

theorem storeRow_read_of_ne {s : State} {c : Nat} {j : DrainJob} {r a : Nat} (ha : Settled s a)
    (hne : ∀ p ∈ (drainRow j r).puts, ∀ n, n < p.2.2 → a ≠ drainPlace c j p.1 n) :
    (storeRow s c j r).mem.read a = s.mem.read a ∧ Settled (storeRow s c j r) a :=
  putAll_read_of_ne ha hne

/-- The two rows of a beat. -/
def storeRows (s : State) (c : Nat) (j : DrainJob) : State := storeRow (storeRow s c j (2 * j.u)) c j (2 * j.u + 1)

/-- The draining instruction after a beat that stores two rows. -/
def storedJob (j : DrainJob) : DrainJob :=
  let r0 := drainRow j (2 * j.u)
  let r1 := drainRow j (2 * j.u + 1)
  { j with u := j.u + 1, flags := j.flags ||| r0.flags ||| r1.flags, under := j.under + r0.under + r1.under, sat := j.sat + r0.sat + r1.sat }

theorem drainBeat_zst {s : State} {c : Nat} {j : DrainJob} (hj : (getCore s c).drain = some j) (hk : j.kind = .zst) :
    drainBeat s c = setCore (storeRows s c j) c { getCore (storeRows s c j) c with drain := some (storedJob j) } := by
  simp only [drainBeat, hj, hk]
  rfl

theorem storeRows_frame (s : State) (c : Nat) (j : DrainJob) : BeatFrame s (storeRows s c j) := (storeRow_frame ..).trans (storeRow_frame ..)

theorem storeRows_tile_st (s : State) (c : Nat) (j : DrainJob) :
    ((getCtx (storeRows s c j) c j.x).live.tiles.get Tile.off j.t.toNat).st = ((getCtx s c j.x).live.tiles.get Tile.off j.t.toNat).st :=
  (storeRow_tile_st ..).trans (storeRow_tile_st ..)

theorem storeRows_read (s : State) (c : Nat) {j : DrainJob} (hu : j.u < 32) {p : Nat × Nat × Nat}
    (hp : p ∈ (drainRow j (2 * j.u)).puts ++ (drainRow j (2 * j.u + 1)).puts) {n : Nat} (hn : n < p.2.2) :
    (storeRows s c j).mem.read (drainPlace c j p.1 n) = BitVec.ofNat 8 (p.2.1 / 2 ^ (8 * n)) := by
  rcases List.mem_append.mp hp with hp | hp
  · refine (storeRow_read_of_ne (Or.inl (inArea_of_onLevel (tileByte_ge ..))) fun p' hp' n' hn' h => ?_).1.trans
      (storeRow_read s c (by omega) hp hn)
    have hrow := drainRow_row_unique (by omega) (by omega) hp hp' hn hn' (drainPlace_inj h)
    omega
  · exact storeRow_read _ c (by omega) hp hn

theorem storeRows_read_of_ne {s : State} {c : Nat} {j : DrainJob} {a : Nat} (ha : Settled s a)
    (hne : ∀ p ∈ (drainRow j (2 * j.u)).puts ++ (drainRow j (2 * j.u + 1)).puts, ∀ n, n < p.2.2 → a ≠ drainPlace c j p.1 n) :
    (storeRows s c j).mem.read a = s.mem.read a := by
  obtain ⟨hread, hset⟩ := storeRow_read_of_ne (r := 2 * j.u) ha fun p hp => hne p (List.mem_append_left _ hp)
  exact (storeRow_read_of_ne hset fun p hp => hne p (List.mem_append_right _ hp)).1.trans hread

/-! ### A beat of a ZLD or a ZADD (R79, R172) -/

/-- The rows that a beat of a ZLD loads. -/
def loadedRows (s : State) (c : Nat) (j : DrainJob) : Bank :=
  updRows (coreBank s c j.z) (2 * j.u) 2 fun r n _ => ⟨(BitVec.ofNat 80 (tileReadN s c j.key j.tile (512 * r + 16 * n) 10)).toInt, false, false⟩

/-- The rows that a beat of a ZADD adds. -/
def addedRows (s : State) (c : Nat) (j : DrainJob) : Bank :=
  updRows (coreBank s c j.z) (4 * j.u) 4 fun r n acc =>
    contribute (coreBank s c j.z).zexp acc ((coreBank s c j.z2).elem r n) (coreBank s c j.z2).zexp

/-- The core after a beat that leaves bank `b`. -/
def bankBeatCore (k : Core) (j : DrainJob) (b : Bank) : Core := { k with
  z := k.z.set j.z.toNat b
  zdirty := if k.zdirty.contains j.z.toNat then k.zdirty else k.zdirty ++ [j.z.toNat]
  drain := some { j with u := j.u + 1 } }

theorem setCore_setBank_drain (s : State) (c : Nat) (j : DrainJob) (b : Bank) :
    setCore (setBank s c j.z b) c { getCore (setBank s c j.z b) c with drain := some { j with u := j.u + 1 } } =
      setCore s c (bankBeatCore (getCore s c) j b) := by
  rw [getCore_setBank_self]
  exact setCore_setCore ..

theorem drainBeat_zld {s : State} {c : Nat} {j : DrainJob} (hj : (getCore s c).drain = some j) (hk : j.kind = .zld) :
    drainBeat s c = setCore s c (bankBeatCore (getCore s c) j (loadedRows s c j)) := by
  unfold drainBeat
  rw [hj]
  dsimp only
  rw [hk]
  exact setCore_setBank_drain s c j (loadedRows s c j)

theorem drainBeat_zadd {s : State} {c : Nat} {j : DrainJob} (hj : (getCore s c).drain = some j) (hk : j.kind = .zadd) :
    drainBeat s c = setCore s c (bankBeatCore (getCore s c) j (addedRows s c j)) := by
  unfold drainBeat
  rw [hj]
  dsimp only
  rw [hk]
  exact setCore_setBank_drain s c j (addedRows s c j)

theorem loadedRows_elem (s : State) (c : Nat) (j : DrainJob) {r n : Nat} (hn : n < 32) : (loadedRows s c j).elem r n =
    if r / 2 = j.u then (BitVec.ofNat 80 (tileReadN s c j.key j.tile (512 * r + 16 * n) 10)).toInt else (coreBank s c j.z).elem r n := by
  rw [loadedRows, updRows_elem _ _ _ _ hn, BitVec.ofInt_toInt]
  exact if_congr (by omega) rfl rfl

theorem addedRows_elem (s : State) (c : Nat) (j : DrainJob) {r n : Nat} (hn : n < 32) : (addedRows s c j).elem r n =
    if r / 4 = j.u then (contribute (coreBank s c j.z).zexp ⟨(coreBank s c j.z).elem r n, false, false⟩ ((coreBank s c j.z2).elem r n)
      (coreBank s c j.z2).zexp).v else (coreBank s c j.z).elem r n := by
  rw [addedRows, updRows_elem _ _ _ _ hn, contribute_fits]
  exact if_congr (by omega) rfl rfl

/-! ### The end of a drain (R173, R78, R69) -/

theorem exec_drainComplete (s : State) (c : Nat) : exec (.drainComplete c) s = .next (drainComplete s c) := rfl

/-- The drain unit of a core is free. -/
def freeDrain (s : State) (c : Nat) : State := setCore s c { getCore s c with drain := none }

/-- The draining context of a ZST after its last beat: its tile is ready, with its bank's flags, and it has the drain's flags and counts. -/
def drainedCtx (k : Ctx) (j : DrainJob) : Ctx := { k with live := { k.live with
  tiles := k.live.tiles.set j.t.toNat
    { k.live.tiles.get Tile.off j.t.toNat with st := .ready, zd := true, ovf := j.bank.ovf, inexact := j.bank.inexact }
  cstat := k.live.cstat ||| j.flags.setWidth 64
  underzero := k.live.underzero + j.under
  satblk := k.live.satblk + j.sat } }

theorem getCtx_freeDrain (s : State) (c x : Nat) : getCtx (freeDrain s c) c x = getCtx s c x := by
  rw [getCtx, freeDrain, getCore_setCore_self]
  rfl

theorem drainComplete_none {s : State} {c : Nat} (h : (getCore s c).drain = none) : drainComplete s c = s := by
  rw [drainComplete, h]

theorem drainComplete_running {s : State} {c : Nat} {j : DrainJob} (hj : (getCore s c).drain = some j) (hu : j.u < j.beats) :
    drainComplete s c = s := by
  rw [drainComplete, hj]
  exact if_pos hu

theorem drainComplete_bank {s : State} {c : Nat} {j : DrainJob} (hj : (getCore s c).drain = some j) (hu : j.beats ≤ j.u) (hk : j.kind ≠ .zst) :
    drainComplete s c = freeDrain s c := by
  rw [drainComplete, hj]
  dsimp only
  rw [if_neg (Nat.not_lt.mpr hu), if_pos hk]
  rfl

theorem drainComplete_zst {s : State} {c : Nat} {j : DrainJob} (hj : (getCore s c).drain = some j) (hu : j.beats ≤ j.u) (hk : j.kind = .zst) :
    drainComplete s c = setCtx (freeDrain s c) c j.x (drainedCtx (getCtx s c j.x) j) := by
  rw [drainComplete, hj]
  dsimp only
  rw [if_neg (Nat.not_lt.mpr hu), if_neg (not_not.mpr hk), setTile, getCtx_setCtx_self, setCtx_setCtx]
  exact congrArg (fun k => setCtx (freeDrain s c) c j.x (drainedCtx k j)) (getCtx_freeDrain ..)

/-! ### The bank and the job after a beat -/

theorem kind_absurd {j : DrainJob} {q q' : DrainKind} {P : Prop} (hk : j.kind = q) (hq : q ≠ q') (h : j.kind = q') : P :=
  absurd (hk.symm.trans h) hq

theorem updRows_zexp (b : Bank) (lo n : Nat) (f : Nat → Nat → AccSum → AccSum) : (updRows b lo n f).zexp = b.zexp := rfl

theorem updRows_live (b : Bank) (lo n : Nat) (f : Nat → Nat → AccSum → AccSum) : (updRows b lo n f).live = b.live := rfl

theorem beatResult_zexp (s : State) (c : Nat) (j : MmaJob) : (beatResult s c j).zexp = (coreBank s c j.z).zexp := by
  rw [beatResult, updRows_zexp, beatBase_zexp]

/-- The flags of a bank whose product goes on without a draw: its own, and those of the beat's sums. -/
theorem beatResult_flags {s : State} {c : Nat} {j : MmaJob} (hdraw : beatDraws j = false) (hgo : j.acc = true ∨ 0 < j.u) :
    let b := coreBank s c j.z
    let sum := fun r n => beatElem s c j b.zexp r n ⟨b.elem r n, false, false⟩
    (beatResult s c j).live = b.live ∧
    ((beatResult s c j).ovf = true ↔ b.ovf = true ∨ ∃ r n, r < 64 ∧ n < 32 ∧ (sum r n).ovf = true) ∧
    ((beatResult s c j).inexact = true ↔ b.inexact = true ∨ ∃ r n, r < 64 ∧ n < 32 ∧ (sum r n).inexact = true) := by
  rw [beatResult, drawnJob_of_not_draws hdraw, beatBase_going _ hgo, updRows_live, updRows_ovf, updRows_inexact]
  exact ⟨rfl, or_congr_right exists_elem_iff, or_congr_right exists_elem_iff⟩

theorem beatCore_of_not_draws {s : State} {c : Nat} {j : MmaJob} (hdraw : beatDraws j = false) :
    (beatCore s c j).mma = (if j.u + 1 < j.beats then some { j with u := j.u + 1, due := false } else none) ∧
    (beatCore s c j).sqa = (getCore s c).sqa ∧ (beatCore s c j).sqb = (getCore s c).sqb := by
  rw [beatCore, drawnJob_of_not_draws hdraw, hdraw]
  exact ⟨rfl, rfl, rfl⟩

theorem getCore_drainBeat_bank (s : State) (c : Nat) (j : DrainJob) (b : Bank) :
    let t := setCore s c (bankBeatCore (getCore s c) j b)
    (getCore t c).drain = some { j with u := j.u + 1 } ∧ coreBank t c j.z = b ∧
    ∀ y, y ≠ j.z.toNat → (getCore t c).z.get Bank.reset y = (getCore s c).z.get Bank.reset y := by
  dsimp only
  rw [coreBank, getCore_setCore_self]
  exact ⟨rfl, Tab.get_set_self .., fun y hy => Tab.get_set_ne _ _ _ _ _ hy⟩

theorem getCore_drainBeat_zst (s : State) (c : Nat) (j : DrainJob) :
    let t := setCore (storeRows s c j) c { getCore (storeRows s c j) c with drain := some (storedJob j) }
    (getCore t c).drain = some (storedJob j) ∧ (getCore t c).z = (getCore s c).z := by
  dsimp only
  rw [getCore_setCore_self]
  exact ⟨rfl, (congrArg Core.z ((storeRows_frame s c j).core c) :)⟩

/-- Settles O30: scale entries, the beats of a product, the beats of the drain unit, and its end, each through the equation of its row. -/
theorem engineBeats : Obligations.EngineBeats := by
  unfold Obligations.EngineBeats
  refine ⟨fun s c => ⟨fun e r hp => ?scaleA, fun e r hp => ?scaleB, fun hn => ?idle, fun j hj hdue hdead hdraw hempty hgo => ?draws,
    fun j hj hdue hdead hempty hacc hu => ?starts, fun j hj hdue hdead hdraw hgo => ?adds, fun j hj hdue hdead hempty => ?empties,
    fun j hj hdue hdead => ?dead⟩, fun s c j hj hu => ?drain, fun s c => ⟨fun hn => ?free, fun j hj => ⟨fun hu => ?running, fun hu => ?done⟩⟩⟩
  case scaleA =>
    rw [exec_scaleEntryWrite_a, writeQ_due hp]
    refine ⟨_, rfl, ?_⟩
    rw [getCore_setCore_self]
    exact ⟨rfl, Tab.get_set_self .., fun n hn => Tab.get_set_ne _ _ _ _ _ hn, rfl, rfl, rfl, rfl⟩
  case scaleB =>
    rw [exec_scaleEntryWrite_b, writeQ_due hp]
    refine ⟨_, rfl, ?_⟩
    rw [getCore_setCore_self]
    exact ⟨rfl, rfl, Tab.get_set_self ..⟩
  case idle => rw [exec_matrixBeat, matrixBeat_none hn]
  case draws =>
    rw [exec_matrixBeat, matrixBeat_counted hj hdue hdead hempty]
    refine ⟨_, rfl, rfl, rfl, rfl, ?_⟩
    rw [coreBank_matrixBeat, getCore_matrixBeat]
    refine ⟨if_pos hdraw, if_pos hdraw, fun r n hr hn => ?_, ?_⟩
    · rw [beatResult_elem s c j hr hn, drawnJob_of_draws hdraw, beatBase_going _ hgo]
      rfl
    · rw [beatCore, drawnJob_of_draws hdraw]
      rfl
  case starts =>
    rw [exec_matrixBeat, matrixBeat_counted hj hdue hdead hempty]
    refine ⟨_, rfl, fun r n hr hn => ?_⟩
    rw [coreBank_matrixBeat, beatResult_elem s c j hr hn, beatBase_start _ hacc hu]
    rfl
  case adds =>
    rw [exec_matrixBeat, matrixBeat_counted hj hdue hdead (beatEmpty_of_not_draws s c hdraw)]
    refine ⟨_, rfl, rfl, rfl, rfl, ?_⟩
    rw [coreBank_matrixBeat, getCore_matrixBeat]
    obtain ⟨hlive, hovf, hinexact⟩ := beatResult_flags (s := s) (c := c) hdraw hgo
    refine ⟨fun r n hr hn => ?_, beatResult_zexp .., hlive, hovf, hinexact, fun y hy => Tab.get_set_ne _ _ _ _ _ hy, beatCore_of_not_draws hdraw⟩
    rw [beatResult_elem s c j hr hn, drawnJob_of_not_draws hdraw, beatBase_going _ hgo]
  case empties =>
    rw [exec_matrixBeat, matrixBeat_empty hj hdue hdead hempty]
    exact ⟨fun hw => by rw [if_pos hw], fun hw => by rw [if_neg (by rw [hw]; decide)]⟩
  case dead =>
    rw [exec_matrixBeat, matrixBeat_dead hj hdue hdead]
    refine ⟨_, rfl, ?_, rfl⟩
    rw [endBeat, getCore_setCore_self]
    rfl
  case drain =>
    have hkinds : j.kind = .zst ∨ j.kind = .zld ∨ j.kind = .zadd := by cases j.kind <;> decide
    rcases hkinds with hk | hk | hk
    · obtain ⟨hd, hz⟩ := getCore_drainBeat_zst s c j
      have hu : j.u < 32 := by rwa [if_neg (by rw [hk]; decide)] at hu
      rw [drainBeat_zst hj hk]
      refine ⟨_, hd, rfl, fun _ => ⟨rfl, rfl, rfl, fun p hp n hn => storeRows_read s c hu hp hn, fun a ha hs => storeRows_read_of_ne hs ha, hz⟩,
        kind_absurd hk (by decide), kind_absurd hk (by decide)⟩
    · obtain ⟨hd, hb, hz⟩ := getCore_drainBeat_bank s c j (loadedRows s c j)
      rw [drainBeat_zld hj hk]
      dsimp only
      rw [hb]
      exact ⟨_, hd, rfl, kind_absurd hk (by decide), fun _ => ⟨rfl, hz, updRows_zexp .., fun r n _ hn => loadedRows_elem s c j hn⟩,
        kind_absurd hk (by decide)⟩
    · obtain ⟨hd, hb, hz⟩ := getCore_drainBeat_bank s c j (addedRows s c j)
      rw [drainBeat_zadd hj hk]
      dsimp only
      rw [hb]
      exact ⟨_, hd, rfl, kind_absurd hk (by decide), kind_absurd hk (by decide),
        fun _ => ⟨rfl, hz, updRows_zexp .., fun r n _ hn => addedRows_elem s c j hn⟩⟩
  case free => rw [exec_drainComplete, drainComplete_none hn]
  case running => rw [exec_drainComplete, drainComplete_running hj hu]
  case done =>
    rw [exec_drainComplete]
    by_cases hk : j.kind = .zst
    · rw [drainComplete_zst hj hu hk]
      refine ⟨_, rfl, ?_, rfl, rfl, fun d hd => ?_, fun h => absurd hk h, fun _ => ?_⟩
      · rw [getCore_setCtx_self, freeDrain, getCore_setCore_self]
      · rw [getCore_setCtx_ne _ _ _ _ _ hd, freeDrain, getCore_setCore_ne _ _ _ _ hd]
      · rw [getCtx_setCtx_self]
        exact ⟨Tab.get_set_self .., rfl, rfl, rfl, rfl, rfl⟩
    · rw [drainComplete_bank hj hu hk]
      refine ⟨_, rfl, ?_, rfl, rfl, fun d hd => getCore_setCore_ne _ _ _ _ hd, fun _ => getCtx_freeDrain .., fun h => absurd h hk⟩
      rw [freeDrain, getCore_setCore_self]

/-! ### The issue of a ZST (R173) -/

/-- The instruction that takes the drain unit, before its first beat. -/
def startedJob (s : State) (i : Instr) (kind : DrainKind) (z z2 t : TReg) (epi : Word) (beats : Nat) : DrainJob :=
  { x := curX s, kind := kind, z := z, z2 := z2, t := t, tile := tileOfMe s t, epi := epi, fpm := cstatFPM (me s).live.cstat,
    key := myKey s, beats := beats, u := 0, e := BitVec.ofNat 2 (chargedClass i), flags := 0, under := 0, sat := 0, bank := bankOf s z }

theorem startDrain_eq (s : State) (i : Instr) (kind : DrainKind) (z z2 t : TReg) (epi : Word) (beats : Nat) :
    startDrain s i kind z z2 t epi beats =
      drainBeat (setMyCore s { myCore s with drain := some (startedJob s i kind z z2 t epi beats) }) s.focus := rfl

theorem exec_zst (s : State) (e : BitVec 2) (z t u : TReg) (k : BitVec 6) : exec (.zst e z t u k) s =
    runSlot (.zst e z t u k) (fun s => startDrain (setTile s s.focus (curX s) t fun l => { l with st := .filling }) (.zst e z t u k) .zst z 0 t
      ((me s).live.epi.get 0 u.toNat) 32) s := rfl

/-- The tile of a ZST is filling as it issues. -/
def fillingState (s : State) (t : TReg) : State := setTile s s.focus (curX s) t fun l => { l with st := .filling }

theorem fillingState_eq (s : State) (t : TReg) : fillingState s t = setMe s { me s with live := { (me s).live with
    tiles := (me s).live.tiles.set t.toNat { tileOfMe s t with st := .filling } } } := rfl

theorem curX_fillingState (s : State) (t : TReg) : curX (fillingState s t) = curX s := curX_setMe ..

theorem tileOfMe_fillingState (s : State) (t : TReg) : tileOfMe (fillingState s t) t = { tileOfMe s t with st := .filling } := by
  rw [tileOfMe, fillingState_eq, me_setMe]
  exact Tab.get_set_self ..

theorem myKey_fillingState (s : State) (t : TReg) : myKey (fillingState s t) = myKey s := by
  rw [myKey, fillingState_eq, me_setMe]
  rfl

theorem bankOf_fillingState (s : State) (t z : TReg) : bankOf (fillingState s t) z = bankOf s z := by
  rw [bankOf, fillingState_eq, myCore_setMe]
  rfl

/-- The job of a ZST that issues. -/
def zstJob (s : State) (i : Instr) (z t : TReg) (epi : Word) : DrainJob := startedJob (fillingState s t) i .zst z 0 t epi 32

/-- A ZST before its first beat. -/
def zstStart (s : State) (i : Instr) (z t : TReg) (epi : Word) : State :=
  setMyCore (fillingState s t) { myCore (fillingState s t) with drain := some (zstJob s i z t epi) }

/-- The rows of its first beat, in the tile. -/
def zstRows (s : State) (i : Instr) (z t : TReg) (epi : Word) : State := storeRows (zstStart s i z t epi) s.focus (zstJob s i z t epi)

/-- The state that a ZST leaves as it issues. -/
def zstBeat (s : State) (i : Instr) (z t : TReg) (epi : Word) : State :=
  setCore (zstRows s i z t epi) s.focus
    { getCore (zstRows s i z t epi) s.focus with drain := some (storedJob (zstJob s i z t epi)) }

section
variable (s : State) (i : Instr) (z t : TReg) (epi : Word)

theorem getCore_zstStart : getCore (zstStart s i z t epi) s.focus = { myCore (fillingState s t) with drain := some (zstJob s i z t epi) } :=
  myCore_setMyCore (fillingState s t) _

theorem startDrain_zst : startDrain (fillingState s t) i .zst z 0 t epi 32 = zstBeat s i z t epi :=
  drainBeat_zst (s := zstStart s i z t epi) (c := s.focus) (j := zstJob s i z t epi) (by rw [getCore_zstStart]) rfl

theorem zstJob_x : (zstJob s i z t epi).x = curX s := curX_fillingState s t

theorem drainPlace_zstJob (b n : Nat) : drainPlace s.focus (zstJob s i z t epi) b n =
    tileByte s.focus (myKey s) (tileOfMe s t).view ((tileOfMe s t).base + b + n) := by
  have htile : (zstJob s i z t epi).tile = { tileOfMe s t with st := .filling } := tileOfMe_fillingState s t
  have hkey : (zstJob s i z t epi).key = myKey s := myKey_fillingState s t
  rw [drainPlace, htile, hkey]

theorem zstRows_frame : BeatFrame (zstStart s i z t epi) (zstRows s i z t epi) := storeRows_frame ..

/-- The rest of the package, as a ZST leaves it. -/
theorem zstBeat_package : { zstBeat s i z t epi with mem := s.mem, dies := s.dies, links := s.links, cores := s.cores } = s :=
  (congrArg (fun v : State => { v with cores := s.cores }) (zstRows_frame s i z t epi).package :)

theorem zstBeat_focus : (zstBeat s i z t epi).focus = s.focus := (congrArg State.focus (zstBeat_package s i z t epi) :)

theorem getCtx_zstBeat (x : Nat) : getCtx (zstBeat s i z t epi) s.focus x = getCtx (zstRows s i z t epi) s.focus x := by
  rw [getCtx, zstBeat, getCore_setCore_self]
  rfl

theorem curX_zstBeat : curX (zstBeat s i z t epi) = curX s := by
  have hrows : (getCore (zstRows s i z t epi) s.focus).cur = (getCore (zstStart s i z t epi) s.focus).cur :=
    (congrArg Core.cur ((zstRows_frame s i z t epi).core s.focus) :)
  have hstart : (getCore (zstStart s i z t epi) s.focus).cur = (myCore (fillingState s t)).cur := by
    rw [getCore_zstStart]
  rw [curX, zstBeat_focus, zstBeat, getCore_setCore_self]
  dsimp only
  rw [hrows, hstart]
  exact curX_fillingState s t

/-- The tile of a ZST is filling after its first beat. -/
theorem zstBeat_tile : (tileOfMe (zstBeat s i z t epi) t).st = .filling := by
  have hstart : getCtx (zstStart s i z t epi) s.focus (curX s) = getCtx (fillingState s t) s.focus (curX s) := by
    rw [getCtx, getCore_zstStart]
    rfl
  have hrows := storeRows_tile_st (zstStart s i z t epi) s.focus (zstJob s i z t epi)
  rw [zstJob_x, hstart] at hrows
  rw [tileOfMe, me, zstBeat_focus, curX_zstBeat, getCtx_zstBeat]
  refine hrows.trans ?_
  exact congrArg Tile.st (tile_setTile ..)

theorem zstBeat_read {p : Nat × Nat × Nat} (hp : p ∈ (drainRow (zstJob s i z t epi) 0).puts ++ (drainRow (zstJob s i z t epi) 1).puts)
    {n : Nat} (hn : n < p.2.2) : (zstBeat s i z t epi).mem.read (tileByte s.focus (myKey s) (tileOfMe s t).view ((tileOfMe s t).base + p.1 + n)) =
      BitVec.ofNat 8 (p.2.1 / 2 ^ (8 * n)) := by
  rw [← drainPlace_zstJob s i z t epi]
  exact storeRows_read (j := zstJob s i z t epi) _ _ (show 0 < 32 by decide) hp hn

theorem zstBeat_read_of_ne {a : Nat} (hs : Settled s a)
    (ha : ∀ n, n < drainFootprint epi → a ≠ tileByte s.focus (myKey s) (tileOfMe s t).view ((tileOfMe s t).base + n)) :
    (zstBeat s i z t epi).mem.read a = s.mem.read a := by
  refine storeRows_read_of_ne (s := zstStart s i z t epi) (j := zstJob s i z t epi) hs fun p hp n hn => ?_
  have hin : p.1 + n < drainFootprint epi := by
    rcases List.mem_append.mp hp with hp | hp
    · exact drainRow_in_footprint (show 2 * 0 < 64 by decide) hp hn
    · exact drainRow_in_footprint (show 2 * 0 + 1 < 64 by decide) hp hn
  rw [drainPlace_zstJob, Nat.add_assoc]
  exact ha _ hin

end

/-! ### The issue of a ZLD or a ZADD (R172, R173, R75, R79) -/

theorem exec_zld (s : State) (e : BitVec 2) (z t : TReg) (k : BitVec 6) : exec (.zld e z t k) s =
    runSlot (.zld e z t k) (fun s => startDrain (setBank s s.focus z (loadedBank s t)) (.zld e z t k) .zld z 0 t 0 32) s := rfl

theorem exec_zadd (s : State) (h : TH) (d a : TReg) : exec (.zadd h d a) s =
    runSlot (.zadd h d a) (fun s => startDrain (joinFlags s d a) (.zadd h d a) .zadd d a 0 0 16) s := rfl

/-- A bank laid by an instruction that takes the drain unit, before its first beat. -/
def laidCore (k : Core) (z : TReg) (b : Bank) (j : DrainJob) : Core := { k with
  z := k.z.set z.toNat b
  zdirty := if k.zdirty.contains z.toNat then k.zdirty else k.zdirty ++ [z.toNat]
  drain := some j }

theorem me_setBank (s : State) (z : TReg) (b : Bank) : me (setBank s s.focus z b) = me s :=
  me_setMyCore (s := s) (K := { myCore s with
    z := (myCore s).z.set z.toNat b
    zdirty := if (myCore s).zdirty.contains z.toNat then (myCore s).zdirty else (myCore s).zdirty ++ [z.toNat] }) rfl

/-- The job of an instruction that lays bank `z` and drains into it. -/
def bankJob (s : State) (i : Instr) (kind : DrainKind) (z z2 t : TReg) (beats : Nat) (b : Bank) : DrainJob :=
  startedJob (setBank s s.focus z b) i kind z z2 t 0 beats

theorem bankJob_tile (s : State) (i : Instr) (kind : DrainKind) (z z2 t : TReg) (beats : Nat) (b : Bank) :
    (bankJob s i kind z z2 t beats b).tile = tileOfMe s t ∧ (bankJob s i kind z z2 t beats b).key = myKey s := by
  have h := me_setBank s z b
  exact ⟨congrArg (fun k : Ctx => k.live.tiles.get Tile.off t.toNat) h, congrArg (fun k : Ctx => k.live.bankkey.setWidth 32) h⟩

/-- The state before the first beat. -/
def laidState (s : State) (z : TReg) (b : Bank) (j : DrainJob) : State := setMyCore s (laidCore (myCore s) z b j)

theorem startDrain_setBank (s : State) (i : Instr) (kind : DrainKind) (z z2 t : TReg) (beats : Nat) (b : Bank) :
    startDrain (setBank s s.focus z b) i kind z z2 t 0 beats =
      drainBeat (laidState s z b (bankJob s i kind z z2 t beats b)) s.focus := by
  have hcore : myCore (setBank s s.focus z b) = _ := getCore_setBank_self s s.focus z b
  rw [startDrain_eq, hcore]
  exact congrArg (fun u => drainBeat u s.focus) (setCore_setCore ..)

theorem getCore_laidState (s : State) (z : TReg) (b : Bank) (j : DrainJob) : getCore (laidState s z b j) s.focus = laidCore (myCore s) z b j :=
  myCore_setMyCore ..

theorem coreBank_laidState_self (s : State) (z : TReg) (b : Bank) (j : DrainJob) : coreBank (laidState s z b j) s.focus z = b := by
  rw [coreBank, getCore_laidState]
  exact Tab.get_set_self ..

theorem coreBank_laidState_ne (s : State) {z y : TReg} (b : Bank) (j : DrainJob) (h : y ≠ z) :
    coreBank (laidState s z b j) s.focus y = bankOf s y := by
  rw [coreBank, getCore_laidState]
  exact Tab.get_set_ne _ _ _ _ _ fun he => h (BitVec.eq_of_toNat_eq he)

/-- What the issue of such an instruction leaves, where its first beat leaves bank `b'`. -/
theorem issued_bankBeat {s : State} (i : Instr) {z : TReg} (b b' : Bank) {j : DrainJob} (hz : j.z = z)
    (hbeat : drainBeat (laidState s z b j) s.focus =
      setCore (laidState s z b j) s.focus (bankBeatCore (getCore (laidState s z b j) s.focus) j b')) :
    ∃ k', Issued s (endSlot (charge (drainBeat (laidState s z b j) s.focus) i)) i (me s) k' s ∧
      { k' with z := (myCore s).z, zdirty := (myCore s).zdirty, drain := (myCore s).drain } = myCore s ∧
      (∀ y, y ≠ z.toNat → k'.z.get Bank.reset y = (myCore s).z.get Bank.reset y) ∧
      k'.drain = some { j with u := j.u + 1 } ∧ k'.z.get Bank.reset z.toNat = b' := by
  refine ⟨bankBeatCore (laidCore (myCore s) z b j) j b', ?_, rfl, fun y hy => ?_, rfl, ?_⟩
  · have hset : drainBeat (laidState s z b j) s.focus = setMyCore s (bankBeatCore (laidCore (myCore s) z b j) j b') := by
      rw [hbeat, getCore_laidState]
      exact setCore_setCore ..
    rw [hset]
    exact issued_setMyCore i (fun _ _ => rfl) rfl rfl rfl rfl
  · rw [bankBeatCore, hz]
    exact (Tab.get_set_ne _ _ _ _ _ hy).trans (Tab.get_set_ne _ _ _ _ _ hy)
  · rw [bankBeatCore, hz]
    exact Tab.get_set_self ..

/-- The low bytes of a tile's bytes. -/
theorem tileReadN_mod (s : State) (c : Nat) (key : BitVec 32) (t : Tile) (b k n : Nat) :
    tileReadN s c key t b (k + n) % 2 ^ (8 * k) = tileReadN s c key t b k % 2 ^ (8 * k) := by
  induction n with
  | zero => rfl
  | succ n ih =>
    rw [← Nat.add_assoc, tileReadN, Nat.mul_add, pow_add, ← Nat.mul_assoc, Nat.mul_right_comm, Nat.add_mul_mod_self_right, ih]

theorem ofNat_tileReadN (s : State) (c : Nat) (key : BitVec 32) (t : Tile) (b : Nat) :
    BitVec.ofNat 80 (tileReadN s c key t b 16) = BitVec.ofNat 80 (tileReadN s c key t b 10) := by
  refine BitVec.eq_of_toNat_eq ?_
  rw [BitVec.toNat_ofNat, BitVec.toNat_ofNat]
  exact tileReadN_mod s c key t b 10 6

/-- A bank whose rows are loaded keeps its flags. -/
theorem loadedRows_flags (s : State) (c : Nat) (j : DrainJob) :
    (loadedRows s c j).inexact = (coreBank s c j.z).inexact ∧ (loadedRows s c j).ovf = (coreBank s c j.z).ovf := by
  refine ⟨Bool.eq_iff_iff.mpr ?_, Bool.eq_iff_iff.mpr ?_⟩
  · rw [loadedRows, updRows_inexact]
    exact or_iff_left fun ⟨_, _, _, _, h⟩ => nomatch h
  · rw [loadedRows, updRows_ovf]
    exact or_iff_left fun ⟨_, _, _, _, h⟩ => nomatch h

/-- A loaded bank and the rows of its first beat. -/
theorem zldBank (s : State) (i : Instr) (z t : TReg) :
    let b := loadedBank s t
    let j := bankJob s i .zld z 0 t 32 b
    let b' := loadedRows (laidState s z b j) s.focus j
    let raw := fun r n => tileReadN s s.focus (myKey s) (tileOfMe s t) (512 * r + 16 * n) 16
    b'.live = true ∧ b'.zexp = (BitVec.ofNat 16 (raw 0 0 / 2 ^ 80)).toInt ∧ b'.inexact = decide (raw 0 0 / 2 ^ 96 % 2 = 1) ∧
    b'.ovf = decide (raw 0 0 / 2 ^ 97 % 2 = 1) ∧
    ∀ r n, r < 64 → n < 32 → b'.elem r n = if r < 2 then (BitVec.ofNat 80 (raw r n)).toInt else 0 := by
  intro b j b' raw
  obtain ⟨htile, hkey⟩ := bankJob_tile s i .zld z 0 t 32 b
  have hbank : coreBank (laidState s z b j) s.focus j.z = b := coreBank_laidState_self s z b j
  obtain ⟨hinexact, hovf⟩ := loadedRows_flags (laidState s z b j) s.focus j
  rw [hbank] at hinexact hovf
  refine ⟨(updRows_live ..).trans (congrArg Bank.live hbank), (updRows_zexp ..).trans (congrArg Bank.zexp hbank), hinexact, hovf,
    fun r n _ hn => ?_⟩
  have helem := loadedRows_elem (laidState s z b j) s.focus j (r := r) hn
  rw [hbank, htile, hkey, tileReadN_congr (s := s) (t := laidState s z b j) rfl, ← ofNat_tileReadN] at helem
  refine helem.trans (if_congr (by show r / 2 = 0 ↔ _; omega) rfl rfl)

/-- The flags that a ZADD joins stay in its bank (R75). -/
def joinedBank (s : State) (d a : TReg) : Bank :=
  { bankOf s d with inexact := (bankOf s d).inexact || (bankOf s a).inexact, ovf := (bankOf s d).ovf || (bankOf s a).ovf }

theorem joinFlags_eq (s : State) (d a : TReg) : joinFlags s d a = setBank s s.focus d (joinedBank s d a) := rfl

/-- The source of a ZADD, which may be its destination, keeps its elements and exponent. -/
theorem zadd_source (s : State) (d a : TReg) (j : DrainJob) (r n : Nat) :
    let c := coreBank (laidState s d (joinedBank s d a) j) s.focus a
    c.elem r n = (bankOf s a).elem r n ∧ c.zexp = (bankOf s a).zexp := by
  by_cases h : a = d
  · rw [h, coreBank_laidState_self]
    exact ⟨rfl, rfl⟩
  · rw [coreBank_laidState_ne s _ j h]
    exact ⟨rfl, rfl⟩

/-- A joined bank and the rows of its first beat. -/
theorem zaddBank (s : State) (i : Instr) (d a : TReg) :
    let b := joinedBank s d a
    let j := bankJob s i .zadd d a 0 16 b
    let b' := addedRows (laidState s d b j) s.focus j
    b'.zexp = (bankOf s d).zexp ∧ b'.live = (bankOf s d).live ∧
    ((bankOf s d).inexact ∨ (bankOf s a).inexact → b'.inexact = true) ∧ ((bankOf s d).ovf ∨ (bankOf s a).ovf → b'.ovf = true) ∧
    ∀ r n, r < 64 → n < 32 → b'.elem r n =
      if r < 4 then (contribute (bankOf s d).zexp ⟨(bankOf s d).elem r n, false, false⟩ ((bankOf s a).elem r n) (bankOf s a).zexp).v
      else (bankOf s d).elem r n := by
  intro b j b'
  have hbank : coreBank (laidState s d b j) s.focus j.z = b := coreBank_laidState_self s d b j
  refine ⟨(updRows_zexp ..).trans (congrArg Bank.zexp hbank :), (updRows_live ..).trans (congrArg Bank.live hbank :), fun h => ?_, fun h => ?_,
    fun r n _ hn => ?_⟩
  · refine (updRows_inexact ..).mpr (Or.inl ?_)
    rw [hbank]
    exact (Bool.or_eq_true ..).mpr h
  · refine (updRows_ovf ..).mpr (Or.inl ?_)
    rw [hbank]
    exact (Bool.or_eq_true ..).mpr h
  · obtain ⟨helem, hzexp⟩ := zadd_source s d a j r n
    refine (addedRows_elem (laidState s d b j) s.focus j hn).trans ?_
    rw [hbank, show j.z2 = a from rfl, helem, hzexp]
    exact if_congr (by show r / 4 = 0 ↔ _; omega) rfl rfl

/-- Settles O19: a ZST, a ZLD and a ZADD each through the first beat of its drain. -/
theorem engineTransfers : Obligations.EngineTransfers := by
  unfold Obligations.EngineTransfers
  refine ⟨fun s e z w u k hi hl => ?zst, fun s e z w k hi hl => ?zld, fun s h d a hi hl => ?zadd⟩
  case zst =>
    have hpack := zstBeat_package s (.zst e z w u k) z w ((me s).live.epi.get 0 u.toNat)
    refine ⟨_, zstBeat s (.zst e z w u k) z w ((me s).live.epi.get 0 u.toNat), ?_, issuedCtx_same _ _, zstBeat_focus .., ?_, zstBeat_tile ..,
      ?_, ?_, ?_, ?_, ⟨storedJob (zstJob s (.zst e z w u k) z w ((me s).live.epi.get 0 u.toNat)), ?_, rfl, ?_, rfl, rfl, rfl, ?_, rfl,
        fun p hp n hn => zstBeat_read _ _ _ _ _ hp hn⟩, fun a ha hs => zstBeat_read_of_ne _ _ _ _ _ hs ha⟩
    · rw [exec_zst, runSlot_of_issues _ _ _ hi, issueSlot_of_lanes _ _ _ hl]
      exact congrArg (fun v => Host.Outcome.next (endSlot (charge v (.zst e z w u k)))) (startDrain_zst ..)
    · exact (congrArg State.latch hpack :)
    · exact (congrArg State.pairs hpack :)
    · exact (congrArg State.serai hpack :)
    · exact (congrArg State.host hpack :)
    · exact (congrArg State.timers hpack :)
    · rw [myCore, zstBeat_focus, zstBeat, getCore_setCore_self]
    · exact curX_fillingState s w
    · exact bankOf_fillingState s w z
  case zld =>
    have hbeat := drainBeat_zld (s := laidState s z (loadedBank s w) (bankJob s (.zld e z w k) .zld z 0 w 32 (loadedBank s w))) (c := s.focus)
      (j := bankJob s (.zld e z w k) .zld z 0 w 32 (loadedBank s w)) (by rw [getCore_laidState]; rfl) rfl
    obtain ⟨k', hk, hrest, hothers, hdrain, hbank⟩ := issued_bankBeat (z := z) (.zld e z w k) _ _ rfl hbeat
    refine ⟨_, k', ?_, hk, hrest, hothers, ⟨_, hdrain, rfl, rfl, rfl, rfl⟩, ?_⟩
    · rw [exec_zld, runSlot_of_issues _ _ _ hi, issueSlot_of_lanes _ _ _ hl, startDrain_setBank]
    · dsimp only
      rw [hbank]
      exact zldBank ..
  case zadd =>
    have hbeat := drainBeat_zadd (s := laidState s d (joinedBank s d a) (bankJob s (.zadd h d a) .zadd d a 0 16 (joinedBank s d a))) (c := s.focus)
      (j := bankJob s (.zadd h d a) .zadd d a 0 16 (joinedBank s d a)) (by rw [getCore_laidState]; rfl) rfl
    obtain ⟨k', hk, hrest, hothers, hdrain, hbank⟩ := issued_bankBeat (z := d) (.zadd h d a) _ _ rfl hbeat
    refine ⟨_, k', ?_, hk, hrest, hothers, ⟨_, hdrain, rfl, rfl, rfl, rfl, rfl⟩, ?_⟩
    · rw [exec_zadd, runSlot_of_issues _ _ _ hi, issueSlot_of_lanes _ _ _ hl, joinFlags_eq, startDrain_setBank]
    · dsimp only
      rw [hbank]
      exact zaddBank ..

end Sys2Proof.Machine
end

section
/-! SUPPORT. Proofs about the scalar instructions (chapter 5) and the twin window (R156 to R158): results, predicates, branches, links. -/

namespace Sys2Proof.Machine

/-! ### Words and predicates by their bits -/

theorem eq_wordOf_of_bits {f : Nat → Bool} {v : Word} (h : ∀ j < 64, v.getLsbD j = f j) : v = wordOf f := by
  refine BitVec.eq_of_getLsbD_eq fun j hj => ?_
  rw [h j hj, wordOf, BitVec.getLsbD_setWidth, BitVec.getLsbD_ofBoolListLE]
  simp [hj]

theorem getLsbD_packBits (f : Nat → Bool) {n j : Nat} (hn : n ≤ 32) : (packBits f n).getLsbD j = (decide (j < n) && f j) := by
  induction n with
  | zero => simp [packBits]
  | succ n ih =>
    have hbit : (if f n then 1#32 <<< n else 0).getLsbD j = (decide (n = j) && f n) := by
      split_ifs with hf
      · rw [hf, Bool.and_true]
        exact (BitVec.getLsbD_twoPow n j).trans (by rw [decide_eq_true (by omega), Bool.true_and])
      · rw [Bool.eq_false_of_not_eq_true hf, Bool.and_false]
        exact BitVec.getLsbD_zero
    rw [packBits, BitVec.getLsbD_or, ih (by omega), hbit]
    by_cases hj : n = j
    · simp [hj]
    · simp [hj, show j < n + 1 ↔ j < n by omega]

theorem eq_ofBits_of_bits {f : Nat → Bool} {v : Pred} (h : ∀ j < 32, v.getLsbD j = f j) : v = ofBits f := by
  refine BitVec.eq_of_getLsbD_eq fun j hj => ?_
  rw [h j hj, ofBits, getLsbD_packBits f le_rfl, decide_eq_true hj, Bool.true_and]

theorem boolPred_eq_ofBits {b : Bool} {f : Nat → Bool} (h : ∀ j, f j = b) : boolPred b = ofBits f :=
  eq_ofBits_of_bits fun j hj => by
    rw [h j, boolPred]
    cases b
    · exact BitVec.getLsbD_zero
    · exact (BitVec.getLsbD_allOnes ..).trans (decide_eq_true hj)

/-! ### Arithmetic (R95, R96, R99) -/

theorem ofNat_toNat_word (a : Word) : BitVec.ofNat 64 a.toNat = a := by rw [BitVec.ofNat_toNat, BitVec.setWidth_eq]

theorem mulHigh_eq (a b : Word) : mulHigh a b = BitVec.ofInt 64 (a.toInt * b.toInt / 2 ^ 64) := by
  have hp : a.signExtend 128 * b.signExtend 128 = BitVec.ofInt 128 (a.toInt * b.toInt) := by
    rw [BitVec.ofInt_mul, BitVec.signExtend, BitVec.signExtend]
  rw [mulHigh, hp]
  refine BitVec.eq_of_toNat_eq ?_
  rw [BitVec.extractLsb'_toNat, BitVec.toNat_ofInt, BitVec.toNat_ofInt, Nat.shiftRight_eq_div_pow]
  generalize a.toInt * b.toInt = z
  omega

theorem mulHighU_eq (a b : Word) : mulHighU a b = BitVec.ofNat 64 (a.toNat * b.toNat / 2 ^ 64) := by
  have hlt : a.toNat * b.toNat < 2 ^ 128 := (Nat.mul_lt_mul'' a.isLt b.isLt).trans_le (by decide)
  have h : (a.setWidth 128 * b.setWidth 128).toNat = a.toNat * b.toNat := by
    rw [BitVec.toNat_mul, BitVec.toNat_setWidth_of_le (by omega), BitVec.toNat_setWidth_of_le (by omega), Nat.mod_eq_of_lt hlt]
  refine BitVec.eq_of_toNat_eq ?_
  rw [mulHighU, BitVec.extractLsb'_toNat, h, BitVec.toNat_ofNat, Nat.shiftRight_eq_div_pow]

theorem divS_eq (a b : Word) : divS a b = if b = 0 then BitVec.allOnes 64 else BitVec.ofInt 64 (a.toInt.tdiv b.toInt) :=
  if_congr Iff.rfl rfl (BitVec.eq_of_toInt_eq (by rw [BitVec.toInt_sdiv, BitVec.toInt_ofInt]))

theorem divU_eq (a b : Word) : divU a b = if b = 0 then BitVec.allOnes 64 else BitVec.ofNat 64 (a.toNat / b.toNat) :=
  if_congr Iff.rfl rfl (by rw [← BitVec.toNat_udiv, ofNat_toNat_word])

theorem remS_eq (a b : Word) : remS a b = if b = 0 then a else BitVec.ofInt 64 (a.toInt.tmod b.toInt) :=
  if_congr Iff.rfl rfl (by rw [← BitVec.toInt_srem, BitVec.ofInt_toInt])

theorem remU_eq (a b : Word) : remU a b = if b = 0 then a else BitVec.ofNat 64 (a.toNat % b.toNat) :=
  if_congr Iff.rfl rfl (by rw [← BitVec.toNat_umod, ofNat_toNat_word])

theorem slt_ite_min (a b : Word) : (if b.slt a then b else a) = BitVec.ofInt 64 (Min.min a.toInt b.toInt) := by
  rw [min_comm, min_def_lt, apply_ite (BitVec.ofInt 64), BitVec.ofInt_toInt, BitVec.ofInt_toInt]
  exact if_congr BitVec.slt_iff_toInt_lt rfl rfl

theorem slt_ite_max (a b : Word) : (if a.slt b then b else a) = BitVec.ofInt 64 (Max.max a.toInt b.toInt) := by
  rw [max_def_lt, apply_ite (BitVec.ofInt 64), BitVec.ofInt_toInt, BitVec.ofInt_toInt]
  exact if_congr BitVec.slt_iff_toInt_lt rfl rfl

theorem ult_ite_min (a b : Word) : (if b.ult a then b else a) = BitVec.ofNat 64 (Min.min a.toNat b.toNat) := by
  rw [min_comm, min_def_lt, apply_ite (BitVec.ofNat 64), ofNat_toNat_word, ofNat_toNat_word]
  exact if_congr BitVec.ult_iff_toNat_lt rfl rfl

theorem ult_ite_max (a b : Word) : (if a.ult b then b else a) = BitVec.ofNat 64 (Max.max a.toNat b.toNat) := by
  rw [max_def_lt, apply_ite (BitVec.ofNat 64), ofNat_toNat_word, ofNat_toNat_word]
  exact if_congr BitVec.ult_iff_toNat_lt rfl rfl

theorem neg_ite_natAbs (a : Word) : (if a.slt 0 then -a else a) = BitVec.ofNat 64 a.toInt.natAbs := by
  rw [BitVec.slt_eq_decide, ← BitVec.ofInt_natCast, show (0 : Word).toInt = 0 from rfl]
  by_cases h : a.toInt < 0
  · rw [if_pos (decide_eq_true h), Int.ofNat_natAbs_of_nonpos h.le, BitVec.ofInt_neg, BitVec.ofInt_toInt]
  · rw [if_neg (by simpa using h), Int.natAbs_of_nonneg (not_lt.mp h), BitVec.ofInt_toInt]

/-! ### Shifts and fields (R98, R100, R101) -/

theorem shiftLeft_eq_ofNat (a : Word) (n : Nat) : a <<< n = BitVec.ofNat 64 (a.toNat * 2 ^ n) :=
  BitVec.eq_of_toNat_eq (by rw [BitVec.toNat_shiftLeft, BitVec.toNat_ofNat, Nat.shiftLeft_eq])

theorem ushiftRight_eq_ofNat (a : Word) (n : Nat) : a >>> n = BitVec.ofNat 64 (a.toNat / 2 ^ n) := by
  rw [← Nat.shiftRight_eq_div_pow, ← BitVec.toNat_ushiftRight, ofNat_toNat_word]

theorem sshiftRight_eq_ofInt (a : Word) (n : Nat) : a.sshiftRight n = BitVec.ofInt 64 (a.toInt / 2 ^ n) := by
  rw [← BitVec.ofInt_toInt (x := a.sshiftRight n), BitVec.toInt_sshiftRight, Int.shiftRight_eq_div_pow, Nat.cast_pow]
  rfl

theorem getLsbD_onesMask {w j : Nat} (hj : j < 64) : (onesMask w).getLsbD j = decide (j < w) := by
  rw [onesMask, BitVec.getLsbD_ofNat, Nat.testBit_two_pow_sub_one]
  simp [hj]

theorem fieldWidth_le (i : Word) : fieldWidth i ≤ 64 := by
  unfold fieldWidth
  dsimp only
  split_ifs <;> omega

theorem extWidth_bounds (i : Word) : 0 < extWidth i ∧ extWidth i ≤ 64 := by
  unfold extWidth
  dsimp only
  split_ifs <;> omega

theorem bextVal_eq (a i : Word) : bextVal a i = BitVec.ofNat 64 (a.toNat / 2 ^ fieldPos i % 2 ^ fieldWid i) := by
  have hw : 2 ^ fieldWid i ≤ 2 ^ 64 := Nat.pow_le_pow_right (by decide) (fieldWidth_le i)
  have hpos : 0 < 2 ^ fieldWid i := by positivity
  refine BitVec.eq_of_toNat_eq ?_
  rw [bextVal, BitVec.toNat_and, BitVec.toNat_ushiftRight, onesMask, BitVec.toNat_ofNat, BitVec.toNat_ofNat, Nat.shiftRight_eq_div_pow,
    show fieldWidth i = fieldWid i from rfl, Nat.mod_eq_of_lt (a := 2 ^ fieldWid i - 1) (by omega), Nat.and_two_pow_sub_one_eq_mod]
  exact (Nat.mod_eq_of_lt ((Nat.mod_lt _ hpos).trans_le hw)).symm

theorem fieldMask_bit (i : Word) {j : Nat} (hj : j < 64) : (fieldMask i).getLsbD j = decide (fieldPos i ≤ j ∧ j < fieldPos i + fieldWid i) := by
  rw [fieldMask, BitVec.getLsbD_shiftLeft, getLsbD_onesMask (by omega), show cnt6 i = fieldPos i from rfl, show fieldWidth i = fieldWid i from rfl,
    Bool.eq_iff_iff]
  simp only [hj, decide_true, Bool.true_and, Bool.and_eq_true, Bool.not_eq_true', decide_eq_true_eq, decide_eq_false_iff_not]
  omega

theorem binsVal_bit (d a i : Word) {j : Nat} (hj : j < 64) : (binsVal d a i).getLsbD j =
    if fieldPos i ≤ j ∧ j < fieldPos i + fieldWid i then a.getLsbD (j - fieldPos i) else d.getLsbD j := by
  have hs : (a <<< cnt6 i).getLsbD j = (decide (fieldPos i ≤ j) && a.getLsbD (j - fieldPos i)) := by
    rw [BitVec.getLsbD_shiftLeft, decide_eq_true hj, Bool.true_and, ← decide_not, decide_eq_decide.mpr not_lt]
    rfl
  rw [binsVal, BitVec.getLsbD_or, BitVec.getLsbD_and, BitVec.getLsbD_and, BitVec.getLsbD_not, fieldMask_bit i hj, hs]
  split_ifs with h <;> simp [h, hj]

theorem sextVal_bit (a i : Word) {j : Nat} (hj : j < 64) : (sextVal a i).getLsbD j = a.getLsbD (Nat.min j (extWid i - 1)) := by
  obtain ⟨hpos, hle⟩ := extWidth_bounds i
  have hbit (x : Word) : (x &&& onesMask (extWidth i)).getLsbD j = (x.getLsbD j && decide (j < extWidth i)) := by
    rw [BitVec.getLsbD_and, getLsbD_onesMask hj]
  have hfill (x : Word) : (x ||| ~~~ onesMask (extWidth i)).getLsbD j = (x.getLsbD j || !decide (j < extWidth i)) := by
    rw [BitVec.getLsbD_or, BitVec.getLsbD_not, getLsbD_onesMask hj, decide_eq_true hj, Bool.true_and]
  rw [sextVal, show extWid i = extWidth i from rfl, show Nat.min j (extWidth i - 1) = Min.min j (extWidth i - 1) from rfl]
  by_cases h : j < extWidth i
  · rw [min_eq_left (by omega)]
    split_ifs <;> simp [hbit, hfill, h]
  · rw [min_eq_right (by omega)]
    split_ifs with hs <;> simp [hbit, hfill, h, hs]

theorem zextVal_bit (a i : Word) {j : Nat} (hj : j < 64) : (zextVal a i).getLsbD j = (decide (j < extWid i) && a.getLsbD j) := by
  rw [zextVal, BitVec.getLsbD_and, getLsbD_onesMask hj, Bool.and_comm]
  rfl

theorem rotateLeft_bit (a : Word) (n : Nat) {j : Nat} (hj : j < 64) : (a.rotateLeft (n % 64)).getLsbD j = a.getLsbD ((j + 64 - n % 64) % 64) := by
  rw [BitVec.getLsbD_rotateLeft, Nat.mod_mod]
  by_cases h : j < n % 64
  · rw [decide_eq_true h, cond_true, show (j + 64 - n % 64) % 64 = 64 - n % 64 + j by omega]
  · rw [decide_eq_false h, cond_false, decide_eq_true hj, Bool.true_and, show (j + 64 - n % 64) % 64 = j - n % 64 by omega]

/-! ### Counts of bits (R99, R105) -/

theorem runOf_succ (f : Nat → Bool) (n : Nat) : runOf f (n + 1) = if f 0 then 1 + runOf (fun j => f (j + 1)) n else 0 := by
  rw [runOf, List.range_succ_eq_map, List.takeWhile_cons, List.takeWhile_map]
  split_ifs
  · rw [List.length_cons, List.length_map, Nat.add_comm]
    rfl
  · rfl

theorem leadZeros_eq_runOf (a : Word) (n : Nat) : leadZeros a n = runOf (fun j => !a.getLsbD (n - 1 - j)) n := by
  induction n with
  | zero => rfl
  | succ n ih =>
    have hshift : (fun j => !a.getLsbD (n + 1 - 1 - (j + 1))) = fun j => !a.getLsbD (n - 1 - j) :=
      funext fun j => by rw [show n + 1 - 1 - (j + 1) = n - 1 - j by omega]
    rw [runOf_succ, hshift, ← ih, leadZeros, Nat.add_sub_cancel, Nat.sub_zero]
    cases a.getLsbD n <;> rfl

theorem trailZeros_eq_runOf (a : Word) (i n : Nat) : trailZeros a i n = runOf (fun j => !a.getLsbD (i + j)) n := by
  induction n generalizing i with
  | zero => rfl
  | succ n ih =>
    have hshift : (fun j => !a.getLsbD (i + (j + 1))) = fun j => !a.getLsbD (i + 1 + j) :=
      funext fun j => by rw [Nat.add_right_comm, Nat.add_assoc]
    rw [runOf_succ, hshift, ← ih, trailZeros, Nat.add_zero]
    cases a.getLsbD i <;> rfl

theorem countOnes_eq_countP {w : Nat} (a : BitVec w) (n : Nat) : countOnes a n = (List.range n).countP a.getLsbD := by
  induction n with
  | zero => rfl
  | succ n ih =>
    rw [countOnes, ih, List.range_succ, List.countP_append, List.countP_singleton]
    rfl

theorem any_eq_ne_zero (p : Pred) : (List.range 32).any p.getLsbD = (p != 0) := by
  rw [Bool.eq_iff_iff, List.any_eq_true, bne_iff_ne, ne_eq, BitVec.eq_of_getLsbD_eq_iff]
  simp

theorem all_eq_allLanes (p : Pred) : (List.range 32).all p.getLsbD = (p == allLanes) := by
  rw [Bool.eq_iff_iff, List.all_eq_true, beq_iff_eq, BitVec.eq_of_getLsbD_eq_iff]
  refine forall_congr' fun j => imp_congr_ctx List.mem_range fun hj => ?_
  rw [allLanes, BitVec.getLsbD_allOnes, decide_eq_true hj]

/-! ### Scalar results (R95 to R105) -/

/-- A slot that `scalarRule` names performs as one result in its g register. -/
theorem exec_of_scalarRule {s : State} {i : Instr} {d : Reg} {v : Word} {n : Nat} (h : scalarRule s i = some (d, v, n)) :
    ∃ g, exec i s = runSlot i g s ∧ g s = putG s d v n := by
  cases i <;> cases h <;> refine ⟨_, rfl, congrArg (putG s _ · _) ?_⟩
  case add | addi => rw [BitVec.ofInt_add, BitVec.ofInt_toInt, BitVec.ofInt_toInt]
  case sub => rw [Int.sub_eq_add_neg, BitVec.ofInt_add, BitVec.ofInt_neg, BitVec.ofInt_toInt, BitVec.ofInt_toInt, BitVec.sub_eq_add_neg]
  case mul => rw [BitVec.ofInt_mul, BitVec.ofInt_toInt, BitVec.ofInt_toInt]
  case mulh => exact mulHigh_eq ..
  case mulhn => exact mulHighU_eq ..
  case div => exact divS_eq ..
  case divn => exact divU_eq ..
  case rem => exact remS_eq ..
  case remn => exact remU_eq ..
  case and | andi => exact eq_wordOf_of_bits fun j _ => BitVec.getLsbD_and
  case or | ori => exact eq_wordOf_of_bits fun j _ => BitVec.getLsbD_or
  case xor | xori => exact eq_wordOf_of_bits fun j _ => BitVec.getLsbD_xor
  case andn => exact eq_wordOf_of_bits fun j hj => by rw [BitVec.getLsbD_and, BitVec.getLsbD_not, decide_eq_true hj, Bool.true_and]
  case shl | shli => exact shiftLeft_eq_ofNat ..
  case shr | shri => exact ushiftRight_eq_ofNat ..
  case sha | shai => exact sshiftRight_eq_ofInt ..
  case rot => exact eq_wordOf_of_bits fun j => rotateLeft_bit _ _
  case min => exact slt_ite_min ..
  case max => exact slt_ite_max ..
  case minn => exact ult_ite_min ..
  case maxn => exact ult_ite_max ..
  case abs => exact neg_ite_natAbs ..
  case clz => rw [leadZeros_eq_runOf]
  case ctz => simp only [trailZeros_eq_runOf, Nat.zero_add]
  case popc | pcnt => rw [countOnes_eq_countP]
  case bext => exact bextVal_eq ..
  case bins => exact eq_wordOf_of_bits fun j => binsVal_bit _ _ _
  case sext => exact eq_wordOf_of_bits fun j => sextVal_bit _ _
  case zext => exact eq_wordOf_of_bits fun j => zextVal_bit _ _
  case sel | movi => rfl
  case pget => rw [BitVec.ofNat_toNat]
  case vext => rfl

/-- A slot that `predRule` names performs as one result in its predicate. -/
theorem exec_of_predRule {s : State} {i : Instr} {d : PReg} {f : Nat → Bool} (h : predRule s i = some (d, f)) :
    ∃ g, exec i s = runSlot i g s ∧ g s = putP s d (ofBits f) allLanes 1 0 := by
  cases i <;> cases h <;> refine ⟨_, rfl, congrArg (putP s _ · allLanes 1 0) ?_⟩
  case cmpeq | cmpne => exact boolPred_eq_ofBits fun _ => rfl
  case cmplt | cmplti => exact boolPred_eq_ofBits fun _ => BitVec.slt_eq_decide.symm
  case cmple => exact boolPred_eq_ofBits fun _ => BitVec.sle_eq_decide.symm
  case cmpltn => exact boolPred_eq_ofBits fun _ => BitVec.ult_eq_decide.symm
  case cmplen => exact boolPred_eq_ofBits fun _ => BitVec.ule_eq_decide.symm
  case cmpeqi => exact boolPred_eq_ofBits fun _ => decide_eq_decide.mpr BitVec.toInt_inj
  case pand => exact eq_ofBits_of_bits fun j _ => BitVec.getLsbD_and
  case por => exact eq_ofBits_of_bits fun j _ => BitVec.getLsbD_or
  case pxor => exact eq_ofBits_of_bits fun j _ => BitVec.getLsbD_xor
  case pandn => exact eq_ofBits_of_bits fun j hj => by rw [BitVec.getLsbD_and, BitVec.getLsbD_not, decide_eq_true hj, Bool.true_and]
  case pany => exact boolPred_eq_ofBits fun _ => any_eq_ne_zero _
  case pall => exact boolPred_eq_ofBits fun _ => all_eq_allLanes _
  case pset => exact eq_ofBits_of_bits fun j hj => by rw [BitVec.getLsbD_setWidth, decide_eq_true hj, Bool.true_and]

/-- A slot whose own effect is one result in every lane of a predicate: p0 takes none (R33). -/
theorem runSlot_putP (i : Instr) (f : State → State) (s : State) (d : PReg) (v : Pred) (w : Nat) (h : Issues s i)
    (hf : f s = putP s d v allLanes w 0) : ∃ t, runSlot i f s = .next t ∧
      IssuedCtx s t i (withFlight s (if lanesOf s i = 0 ∨ d = 0 then [] else [inWindow s (.p d.toNat) (v.setWidth 1024) allLanes w 0])) := by
  obtain ⟨t, ht, hi⟩ := runSlot_flight i f s _ _ _ w 0 h fun _ => hf
  refine ⟨t, ht, ?_⟩
  by_cases hd : d = 0
  · simpa only [hd, if_true, and_self, or_true] using hi
  · have hm : allLanes ≠ 0 := by decide
    simpa only [hd, if_false, hm, false_and, or_false] using hi

/-- Settles O1: each scalar slot issues as one result, whose value its rule gives. -/
theorem scalarResults : Obligations.ScalarResults := by
  unfold Obligations.ScalarResults
  refine ⟨fun s i d v n hr hi => ?word, fun s i d f hr hi => ?pred⟩
  case word =>
    obtain ⟨g, hx, hg⟩ := exec_of_scalarRule hr
    rw [hx]
    exact runSlot_putG i g s d v n hi hg
  case pred =>
    obtain ⟨g, hx, hg⟩ := exec_of_predRule hr
    rw [hx]
    exact runSlot_putP i g s d _ 1 hi hg

/-! ### Branches and links (R48, R124 to R126) -/

theorem exec_br (s : State) (h : TH) (x : BitVec 15) : exec (.br h x) s =
    runSlot (.br h x) (fun s => jumpTo s (relTarget s (x.signExtend 64))) s := rfl

theorem exec_brl (s : State) (h : TH) (x : BitVec 15) : exec (.brl h x) s =
    runSlot (.brl h x) (fun s => putG (jumpTo s (relTarget s (x.signExtend 64))) 1 (linkVal s) 1) s := rfl

theorem exec_jr (s : State) (h : TH) (a : Reg) : exec (.jr h a) s =
    runSlot (.jr h a) (fun s => jumpTo s ((readG s a).setWidth 48)) s := rfl

theorem exec_jrl (s : State) (h : TH) (a : Reg) : exec (.jrl h a) s =
    runSlot (.jrl h a) (fun s => putG (jumpTo s ((readG s a).setWidth 48)) 1 (linkVal s) 1) s := rfl

theorem exec_loop (s : State) (h : TH) (d : Reg) (i : Imm) : exec (.loop h d i) s =
    runSlot (.loop h d i) (fun s => loopTurn s d i) s := rfl

theorem relTarget_eq (s : State) (n : Word) : relTarget s n = (me s).bpc + 4 * n.setWidth 48 := by
  rw [relTarget, BitVec.mul_comm]

theorem relTarget_signExtend (s : State) (x : BitVec 15) : relTarget s (x.signExtend 64) = (me s).bpc + 4 * x.signExtend 48 := by
  have hx : (x.signExtend 64).setWidth 48 = x.signExtend 48 := by
    refine BitVec.eq_of_getLsbD_eq fun j hj => ?_
    rw [BitVec.getLsbD_setWidth, BitVec.getLsbD_signExtend, BitVec.getLsbD_signExtend, decide_eq_true hj,
      decide_eq_true (show j < 64 by omega), Bool.true_and]
  rw [relTarget_eq, hx]

theorem putG_jumpTo (s : State) (p : BitVec 48) {d : Reg} (v : Word) (w : Nat) (hd : d ≠ 0) : putG (jumpTo s p) d v w =
    setMe s { withFlight s [inWindow s (.g d.toNat) (v.setWidth 1024) allLanes w 0] with pc := p, jumped := true } := by
  rw [putG, if_neg hd, addFlight_some _ _ _ _ _ _ (by decide), jumpTo, setMe_setMe, withFlight, withFlight, inWindow, me_setMe]
  rfl

/-- The link of a BRL or JRL: the address of the next bundle in g1. -/
theorem link_jumpTo (s : State) (p : BitVec 48) : putG (jumpTo s p) 1 (linkVal s) 1 =
    setMe s { withFlight s [inWindow s (.g 1) (s.latch.next.setWidth 1024) allLanes 1 0] with pc := p, jumped := true } := by
  have hv : (linkVal s).setWidth 1024 = s.latch.next.setWidth 1024 := BitVec.eq_of_toNat_eq (by
    rw [linkVal, BitVec.toNat_setWidth_of_le (by decide), BitVec.toNat_setWidth_of_le (by decide), BitVec.toNat_setWidth_of_le (by decide)])
  rw [putG_jumpTo s p _ 1 (by decide), hv]
  rfl

theorem jumpTo_putG (s : State) (p : BitVec 48) (d : Reg) (v : Word) (w : Nat) : jumpTo (putG s d v w) p =
    setMe s { withFlight s (if d = 0 then [] else [inWindow s (.g d.toNat) (v.setWidth 1024) allLanes w 0]) with pc := p, jumped := true } := by
  by_cases hd : d = 0
  · rw [putG, if_pos hd, if_pos hd, withFlight_nil, jumpTo]
  · rw [putG, if_neg hd, if_neg hd, addFlight_some _ _ _ _ _ _ (by decide), jumpTo, setMe_setMe, me_setMe]

theorem loopTurn_back {s : State} {d : Reg} (i : Imm) (hpos : 0 < (readG s d - 1).toInt) :
    loopTurn s d i = jumpTo (putG s d (readG s d - 1) 1) ((me s).bpc + 4 * i.sval.setWidth 48) := by
  rw [loopTurn, BitVec.slt_eq_decide, ← relTarget_eq]
  exact if_pos (decide_eq_true hpos)

theorem loopTurn_through {s : State} {d : Reg} (i : Imm) (hpos : ¬0 < (readG s d - 1).toInt) : loopTurn s d i = putG s d (readG s d - 1) 1 := by
  rw [loopTurn, BitVec.slt_eq_decide]
  exact if_neg (by simpa using hpos)

/-! ### The twin window (R156 to R158, R337, R348) -/

theorem carry_cores (s : State) (a b : Nat) (m : MsgBody) : (carry s a b m).cores = s.cores := by
  unfold carry logInbound
  dsimp only
  split_ifs <;> rfl

theorem curX_congr {s t : State} (hf : t.focus = s.focus) (hc : t.cores = s.cores) : curX t = curX s := by rw [curX, curX, getCore, getCore, hf, hc]

theorem logInbound_setMe (s : State) (k : Ctx) (a b : Nat) (sq : BitVec 32) (m : MsgBody) :
    logInbound (setMe s k) a b sq m = setMe (logInbound s a b sq m) k := by
  rw [logInbound, logInbound, show keepsLog (setMe s k) b = keepsLog s b from rfl]
  split_ifs <;> rfl

/-- A transfer reads nothing of a context and changes none. -/
theorem carry_setMe (s : State) (k : Ctx) (a b : Nat) (m : MsgBody) : carry (setMe s k) a b m = setMe (carry s a b m) k := by
  have hstay : staysBehind (setMe s k) b m = staysBehind s b m := by cases m <;> rfl
  rw [carry, carry, hstay]
  split_ifs
  · rfl
  · rfl
  · exact logInbound_setMe (setLink s a b (passLink (getLink s a b) s.now)) ..

theorem getAny_me (s : State) : getAny s s.focus (curX s) = me s := if_pos (Fin.isLt _)

theorem setAny_me (s : State) (k : Ctx) : setAny s s.focus (curX s) k = setMe s k := if_pos (Fin.isLt _)

theorem sentBefore_me (s : State) (p q : Nat) : sentBefore s s.focus (curX s) p q = ((me s).ghost || (me s).redo.contains (p, q)) := by
  rw [sentBefore, getAny_me]

theorem noteSent_setMe {s : State} {c x : Nat} (k : Ctx) (p q : Nat) (hc : s.focus = c) (hx : curX s = x) : noteSent (setMe s k) c x p q =
    setMe s { k with sent := if keepsLog s (coreEnd c) then k.sent ++ [(p, q)] else k.sent } := by
  have hany := getAny_me (setMe s k)
  have hset := setAny_me (setMe s k)
  rw [setMe_focus, curX_setMe, hc, hx] at hany hset
  rw [noteSent, hany, hset, show keepsLog (setMe s k) (coreEnd c) = keepsLog s (coreEnd c) from rfl, me_setMe, setMe_setMe]
  split_ifs <;> rfl

/-- Has the current context sent its next write to the twin window before a reset (R348)? -/
def twinAgain (s : State) : Bool := sentBefore s s.focus (curX s) (me s).nload SendKind.twin.code

/-- The state that the transfer of a write to the twin window leaves. -/
def twinCarried (s : State) (w : TReg) (v : Word) (valid : Bool) : State :=
  let e := coreEnd s.focus
  let e' := coreEnd (twinOf s.focus)
  if twinAgain s then (if e' = e then s else setLink s e e' (repeatLink (getLink s e e'))) else carry s e e' (.twin s.focus (curX s) w.toNat v valid)

/-- The current context after a write of its outbound register `w`; `b` is the state that the transfer leaves. -/
def twinCtx (s b : State) (w : TReg) (new : Word × Bool) : Ctx := { me s with
  nload := (me s).nload + 1
  sent := if twinAgain s = false ∧ keepsLog b (coreEnd s.focus) then (me s).sent ++ [((me s).nload, SendKind.twin.code)] else (me s).sent
  w := if twinAgain s then (me s).w else (me s).w.set w.toNat (putWReg s ((me s).w.get WReg.reset w.toNat) new) }

theorem writeTwin_eq (s : State) (w : TReg) (f : WReg → Word × Bool) {v : Word} {valid : Bool}
    (hf : f ((me s).w.get WReg.reset w.toNat) = (v, valid)) :
    writeTwin s w f = setMe (twinCarried s w v valid) (twinCtx s (twinCarried s w v valid) w (v, valid)) := by
  have hsent : sentBefore (setMe s { me s with nload := (me s).nload + 1 }) s.focus (curX s) (me s).nload SendKind.twin.code = twinAgain s := by
    have h := sentBefore_me (setMe s { me s with nload := (me s).nload + 1 }) (me s).nload SendKind.twin.code
    rw [setMe_focus, curX_setMe, me_setMe] at h
    rw [h, twinAgain, sentBefore_me]
  unfold writeTwin
  dsimp only
  rw [hf, sendOnce, hsent]
  cases hag : twinAgain s with
  | true =>
    unfold twinCarried twinCtx
    rw [hag]
    by_cases he : coreEnd (twinOf s.focus) = coreEnd s.focus
    · simp only [if_true, if_pos he]
      rfl
    · simp only [if_true, if_neg he]
      rfl
  | false =>
    have hb : twinCarried s w v valid = carry s (coreEnd s.focus) (coreEnd (twinOf s.focus)) (.twin s.focus (curX s) w.toNat v valid) := by
      unfold twinCarried
      rw [hag]
      rfl
    have hfr : (twinCarried s w v valid).focus = s.focus := by rw [hb]; exact (congrArg State.focus (carry_frame ..).package :)
    have hcur : curX (twinCarried s w v valid) = curX s := curX_congr hfr (by rw [hb]; exact carry_cores ..)
    rw [carry_setMe, ← hb, noteSent_setMe _ _ _ hfr hcur, setMe_setMe, me_setMe]
    unfold twinCtx
    rw [hag]
    simp

theorem runSlot_no_lane (i : Instr) (f : State → State) (s : State) (h : Issues s i) (hl : lanesOf s i = 0) :
    ∃ t, runSlot i f s = .next t ∧ IssuedCtx s t i (me s) :=
  ⟨_, (runSlot_of_issues i f s h).trans (congrArg Host.Outcome.next (issueSlot_of_no_lane i f s hl)), issuedCtx_same s i⟩

theorem exec_twset (s : State) (h : TH) (w : TReg) (a : Reg) : exec (.twset h w a) s =
    runSlot (.twset h w a) (fun s => writeTwin s w fun _ => (readG s a, true)) s := rfl

theorem exec_twclr (s : State) (h : TH) (w : TReg) : exec (.twclr h w) s =
    runSlot (.twclr h w) (fun s => writeTwin s w fun r => (r.val, false)) s := rfl

theorem exec_twget (s : State) (h : TH) (d : Reg) (w : TReg) : exec (.twget h d w) s =
    runSlot (.twget h d w) (fun s => putG s d (twinReg s w).1 1) s := rfl

/-- A slot that writes the twin window issues with one transfer, and only its own register changes. -/
theorem runSlot_writeTwin {i : Instr} {g : State → State} {s : State} {w : TReg} {f : WReg → Word × Bool} {v : Word} {valid : Bool}
    (h : Issues s i) (hl : lanesOf s i ≠ 0) (hg : g s = writeTwin s w f) (hf : f ((me s).w.get WReg.reset w.toNat) = (v, valid)) :
    ∃ t k, runSlot i g s = .next t ∧ IssuedCtx (twinCarried s w v valid) t i k ∧
      { k with w := (me s).w, sent := (me s).sent } = { me s with nload := (me s).nload + 1 } ∧
      (k.w.get WReg.reset w.toNat).val = (if twinAgain s then ((me s).w.get WReg.reset w.toNat).val else v) ∧
      (k.w.get WReg.reset w.toNat).valid = (if twinAgain s then ((me s).w.get WReg.reset w.toNat).valid else valid) ∧
      ∀ y, y ≠ w.toNat → k.w.get WReg.reset y = (me s).w.get WReg.reset y := by
  obtain ⟨t, ht, hk⟩ := runSlot_from i g s _ _ h hl (hg.trans (writeTwin_eq s w f hf))
  refine ⟨t, _, ht, hk, rfl, ?_⟩
  unfold twinCtx
  cases twinAgain s with
  | true => exact ⟨rfl, rfl, fun _ _ => rfl⟩
  | false =>
    refine ⟨?_, ?_, fun y hy => Tab.get_set_ne _ _ _ _ _ hy⟩
    · exact congrArg WReg.val (Tab.get_set_self ..)
    · exact congrArg WReg.valid (Tab.get_set_self ..)

/-- Settles O8: a branch through the context it leaves, a write of the twin window through its one transfer. -/
theorem branchesAndTwins : Obligations.BranchesAndTwins := by
  unfold Obligations.BranchesAndTwins
  refine ⟨fun s h x a d m => ⟨fun hi => ?br, fun hi => ?brl, fun hi => ?jr, fun hi => ?jrl, fun hi => ?loop⟩,
    fun s h w a d => ⟨fun hi => ⟨fun hl => ?_, fun hl => ?twset⟩, fun hi => ⟨fun hl => ?_, fun hl => ?twclr⟩, fun hi => ?twget⟩⟩
  case br =>
    rw [exec_br]
    exact runSlot_ctx _ _ s _ hi fun _ => by rw [relTarget_signExtend]; rfl
  case brl =>
    rw [exec_brl]
    exact runSlot_ctx _ _ s _ hi fun _ => by rw [relTarget_signExtend, link_jumpTo]
  case jr =>
    rw [exec_jr]
    exact runSlot_ctx _ _ s _ hi fun _ => rfl
  case jrl =>
    rw [exec_jrl]
    exact runSlot_ctx _ _ s _ hi fun _ => link_jumpTo ..
  case loop =>
    rw [exec_loop]
    by_cases hpos : 0 < (readG s d - 1).toInt
    · rw [if_pos hpos]
      exact runSlot_ctx _ _ s _ hi fun _ => by rw [loopTurn_back m hpos, jumpTo_putG]
    · obtain ⟨t, ht, hk⟩ := runSlot_putG (.loop h d m) (fun s => loopTurn s d m) s d _ 1 hi (loopTurn_through m hpos)
      refine ⟨t, ht, ?_⟩
      rw [if_neg hpos]
      by_cases hl : lanesOf s (.loop h d m) = 0
      · rw [if_pos (Or.inl hl), withFlight_nil] at hk
        rwa [if_pos hl]
      · rw [if_neg hl]
        simpa only [hl, false_or] using hk
  case twset =>
    rw [exec_twset]
    exact runSlot_writeTwin hi hl rfl rfl
  case twclr =>
    rw [exec_twclr]
    exact runSlot_writeTwin hi hl rfl rfl
  case twget =>
    rw [exec_twget]
    exact runSlot_putG _ _ s d _ 1 hi rfl
  · rw [exec_twset]
    exact runSlot_no_lane _ _ s hi hl
  · rw [exec_twclr]
    exact runSlot_no_lane _ _ s hi hl

end Sys2Proof.Machine
end

section
/-! SUPPORT. Proofs about placement (R109, R244) and the slots that record what they hand over at their commit: releases, atomics and copies
(chapters 5 to 7). -/

namespace Sys2Proof.Machine

/-! ### Bytes read after a clearing and after a write of a number -/

theorem findCell_filter_of_false {α : Type} {p : Nat × α → Bool} {k : Nat} (hp : ∀ v, p (k, v) = false) (l : List (Nat × α)) :
    findCell k (l.filter p) = none := by
  induction l with
  | nil => rfl
  | cons e r ih =>
    obtain ⟨j, v⟩ := e
    by_cases hj : p (j, v) = true
    · have hne : j ≠ k := fun h => absurd (hp v) (by rw [← h, hj]; decide)
      rw [List.filter_cons_of_pos hj, findCell, if_neg hne, ih]
    · rw [List.filter_cons_of_neg hj, ih]

theorem Memory.read_clear_of_mem (m : Memory) {a n b : Nat} (h : a ≤ b ∧ b < a + n) : (m.clear a n).read b = 0 := by
  have hp : ∀ v : BitVec 8, (!(decide (a ≤ (b, v).1) && decide ((b, v).1 < a + n))) = false := fun v => by simp [h]
  rw [Memory.read, Memory.clear, findCell_filter_of_false hp]
  rfl

theorem Memory.read_clear_of_outside (m : Memory) {a n b : Nat} (h : b < a ∨ a + n ≤ b) : (m.clear a n).read b = m.read b := by
  have hp : ∀ v : BitVec 8, (!(decide (a ≤ (b, v).1) && decide ((b, v).1 < a + n))) = true := fun v => by
    simp only [Bool.not_eq_true', Bool.and_eq_false_iff, decide_eq_false_iff_not]
    omega
  rw [Memory.read, Memory.clear, findCell_filter_of_true hp]
  rfl

theorem mem_cellsOf {a v n : Nat} {c : Nat × BitVec 8} : c ∈ cellsOf a v n ↔ ∃ i < n, c = (a + i, BitVec.ofNat 8 (v / 2 ^ (8 * i))) := by
  induction n with
  | zero => simp [cellsOf]
  | succ n ih => simp only [cellsOf, List.mem_append, List.mem_singleton, ih, Nat.lt_succ_iff_lt_or_eq, or_and_right, exists_or, exists_eq_left]

theorem Memory.writeCells_append (m : Memory) (l r : List (Nat × BitVec 8)) : m.writeCells (l ++ r) = (m.writeCells l).writeCells r := by
  induction l generalizing m with
  | nil => rfl
  | cons c l ih => exact ih _

theorem Memory.writeN_succ (m : Memory) (a v n : Nat) :
    m.writeN a v (n + 1) = (m.writeN a v n).write (a + n) (BitVec.ofNat 8 (v / 2 ^ (8 * n))) :=
  Memory.writeCells_append ..

theorem Memory.read_writeN_of_outside (m : Memory) {a v n b : Nat} (h : b < a ∨ a + n ≤ b) : (m.writeN a v n).read b = m.read b :=
  Memory.read_writeCells_of_not_mem _ _ _ fun c hc hb => by
    obtain ⟨i, hi, rfl⟩ := mem_cellsOf.mp hc
    dsimp only at hb
    omega

theorem Memory.readN_congr {m m' : Memory} {a n : Nat} (h : ∀ b, a ≤ b → b < a + n → m'.read b = m.read b) : m'.readN a n = m.readN a n := by
  induction n with
  | zero => rfl
  | succ n ih =>
    rw [Memory.readN, Memory.readN, h (a + n) (by omega) (by omega), ih fun b hlo hhi => h b hlo (by omega)]

/-- A number reads as it was last written (R6). -/
theorem Memory.readN_writeN (m : Memory) (a v n : Nat) : (m.writeN a v n).readN a n = v % 2 ^ (8 * n) := by
  induction n with
  | zero => rw [Nat.mul_zero, pow_zero, Nat.mod_one]; rfl
  | succ n ih =>
    have hlow : (m.writeN a v (n + 1)).readN a n = v % 2 ^ (8 * n) := by
      rw [← ih, Memory.writeN_succ]
      exact Memory.readN_congr fun b _ hb => Memory.read_write_ne _ _ _ _ (by omega)
    rw [Memory.readN, hlow, Memory.writeN_succ, Memory.read_write_self, BitVec.toNat_ofNat, Nat.mul_succ, pow_add, Nat.mod_mul,
      Nat.mul_comm (2 ^ (8 * n))]

/-! ### What placement keeps (R109, R216, R244) -/

/-- `t` is `s` but for memory, the Serai, the dies and the cores' first-level caches. -/
structure PlaceFrame (s t : State) : Prop where
  package : { t with mem := s.mem, serai := s.serai, dies := s.dies, cores := s.cores } = s
  core : ∀ c, { getCore t c with l1 := (getCore s c).l1 } = getCore s c

theorem PlaceFrame.refl (s : State) : PlaceFrame s s := ⟨rfl, fun _ => rfl⟩

theorem PlaceFrame.trans {s t u : State} (h : PlaceFrame s t) (h' : PlaceFrame t u) : PlaceFrame s u where
  package := (congrArg (fun v : State => { v with mem := s.mem, serai := s.serai, dies := s.dies, cores := s.cores }) h'.package).trans h.package
  core c := (congrArg (fun k : Core => { k with l1 := (getCore s c).l1 }) (h'.core c)).trans (h.core c)

theorem PlaceFrame.of_serai {s t : State} (h : { t with serai := s.serai } = s) : PlaceFrame s t where
  package := (congrArg (fun v : State => { v with mem := s.mem, serai := s.serai, dies := s.dies, cores := s.cores }) h :)
  core c := by rw [show getCore t c = getCore s c from (congrArg (getCore · c) h :)]

section
variable {s t : State} (h : PlaceFrame s t)
include h

theorem PlaceFrame.focus : t.focus = s.focus := (congrArg State.focus h.package :)
theorem PlaceFrame.now : t.now = s.now := (congrArg State.now h.package :)
theorem PlaceFrame.fresh : t.fresh = s.fresh := (congrArg State.fresh h.package :)
theorem PlaceFrame.latch : t.latch = s.latch := (congrArg State.latch h.package :)
theorem PlaceFrame.ctx (c x : Nat) : getCtx t c x = getCtx s c x := (congrArg (fun k : Core => k.ctxs.get Ctx.reset x) (h.core c) :)
theorem PlaceFrame.curX : curX t = curX s := by
  rw [Machine.curX, h.focus]
  exact (congrArg (fun k : Core => k.cur.val) (h.core s.focus) :)
theorem PlaceFrame.me : me t = me s := by rw [Machine.me, h.focus, h.curX, h.ctx, Machine.me]

end

theorem frameIn_serai {s u : State} {m f : Nat} (h : frameIn s m = some (u, f)) : { u with serai := s.serai } = s := by
  unfold frameIn at h
  split at h
  · cases h; rfl
  · dsimp only at h
    split_ifs at h
    all_goals cases h; rfl

theorem frameFrom_serai {s u : State} {l : List Nat} {f : Nat} (h : frameFrom s l = some (u, f)) : { u with serai := s.serai } = s := by
  induction l with
  | nil => cases h
  | cons m r ih =>
    unfold frameFrom at h
    split at h
    case h_1 q hq => cases h; exact frameIn_serai hq
    case h_2 => exact ih h

theorem getCore_dropCopies (s : State) (a n c : Nat) : ∃ l1, getCore (dropCopies s a n) c = { getCore s c with l1 := l1 } :=
  ⟨_, Tab.get_map _ _ _ _ rfl⟩

theorem dropCopies_frame (s : State) (a n : Nat) : PlaceFrame s (dropCopies s a n) where
  package := rfl
  core c := by
    obtain ⟨l1, h⟩ := getCore_dropCopies s a n c
    rw [h]

theorem setMem_placeFrame (s : State) (m : Memory) : PlaceFrame s { s with mem := m } := ⟨rfl, fun _ => rfl⟩

theorem event_frame (s : State) (src : Nat) (p : List Word) : PlaceFrame s (event s src p) := .of_serai rfl

/-- The state with a frame cleared for a tile and the tile's entry written. -/
def filledFrame (s u : State) (l : Layout) (tile f : Nat) : State :=
  { dropCopies { u with mem := u.mem.clear f 65536 } f 65536 with
    mem := (u.mem.clear f 65536).writeN (l.ttab + 8 * tile) (2 ^ 62 + pkgNo s * 2 ^ 48 + f / 65536 * 65536) 8 }

theorem putFrame_of_free {s u : State} {c tile f : Nat} (l : Layout) (tid : Nat) (h : frameFrom s (stackOrder c tile) = some (u, f)) :
    putFrame s c l tid tile = filledFrame s u l tile f := by
  rw [putFrame, h]
  rfl

theorem putFrame_of_none {s : State} {c tile : Nat} (l : Layout) (tid : Nat) (h : frameFrom s (stackOrder c tile) = none) :
    putFrame s c l tid tile = event s 0x0F [BitVec.ofNat 64 (tileKey tid tile)] := by
  rw [putFrame, h]

theorem filledFrame_frame {s u : State} (l : Layout) (tile f : Nat) (h : { u with serai := s.serai } = s) : PlaceFrame s (filledFrame s u l tile f) :=
  ((PlaceFrame.of_serai h).trans (setMem_placeFrame u _)).trans ((dropCopies_frame ..).trans (setMem_placeFrame ..))

theorem putFrame_frame (s : State) (c : Nat) (l : Layout) (tid tile : Nat) : PlaceFrame s (putFrame s c l tid tile) := by
  cases h : frameFrom s (stackOrder c tile) with
  | none => rw [putFrame_of_none l tid h]; exact event_frame ..
  | some q => rw [putFrame_of_free l tid h]; exact filledFrame_frame l tile q.2 (frameFrom_serai h)

theorem placeTile_frame (s : State) (c : Nat) (k : Ctx) (tid tile : Nat) : PlaceFrame s (placeTile s c k tid tile) := by
  unfold placeTile
  split
  · exact .refl s
  split
  · exact .refl s
  · exact putFrame_frame ..

theorem placeRead_frame (s : State) (c : Nat) (k : Ctx) (tid tile : Nat) : PlaceFrame s (placeRead s c k tid tile) := by
  unfold placeRead
  split
  · exact placeTile_frame ..
  · exact .refl s

theorem setAside_frame (s : State) (c e key : Nat) : PlaceFrame s (setAside s c e key) := by
  unfold setAside
  split
  · exact .refl s
  split
  · exact .refl s
  split
  case h_1 hf => exact (PlaceFrame.of_serai (frameFrom_serai hf)).trans (.of_serai rfl)
  case h_2 => exact event_frame ..

theorem placeWrite_frame (s : State) (c : Nat) (k : Ctx) (tid tile : Nat) : PlaceFrame s (placeWrite s c k tid tile) := by
  unfold placeWrite
  split
  · split
    · exact .refl s
    · exact setAside_frame ..
  · exact placeRead_frame ..

theorem eachTile_frame {f : State → Nat → Nat → State} (hf : ∀ u tid tile, PlaceFrame u (f u tid tile)) (s : State) (ts : List (Nat × Nat)) :
    PlaceFrame s (eachTile f s ts) := by
  induction ts generalizing s with
  | nil => exact .refl s
  | cons t r ih => exact (hf s t.1 t.2).trans (ih _)

theorem placeStores_frame (s : State) (ls : LaneLocs) : PlaceFrame s (placeStores s ls) :=
  eachTile_frame (fun _ _ _ => placeWrite_frame ..) s _

theorem placeTiles_frame (s : State) (write : Bool) (ts : List (Nat × Nat)) : PlaceFrame s (placeTiles s write ts) :=
  eachTile_frame (fun u tid tile => by
    cases write
    · exact placeRead_frame ..
    · exact placeWrite_frame ..) s ts

theorem scalarWrite_frame (s : State) (r : Word) (w : Nat) : PlaceFrame s (scalarWrite s r w).1 := by
  unfold scalarWrite
  split
  · exact .refl s
  · split
    · exact .refl s
    · exact placeWrite_frame ..

/-! ### First touch -/

theorem placeTile_placed {s : State} {c tid tile : Nat} {k : Ctx} {l : Layout} (hl : layoutOf s k.pid tid = some l)
    (he : entryAt s l tile / 2 ^ 62 ≠ 0) : placeTile s c k tid tile = s := by
  rw [placeTile, hl]
  exact if_pos he

theorem placeTile_unplaced {s u : State} {c f tid tile : Nat} {k : Ctx} {l : Layout} (hl : layoutOf s k.pid tid = some l)
    (he : entryAt s l tile / 2 ^ 62 = 0) (hf : frameFrom s (stackOrder c tile) = some (u, f)) :
    placeTile s c k tid tile = filledFrame s u l tile f := by
  rw [placeTile, hl]
  exact (if_neg (not_not_intro he)).trans (putFrame_of_free l tid hf)

theorem filledFrame_read_frame {s u : State} {l : Layout} {tile f a : Nat} (hd : f + 65536 ≤ l.ttab + 8 * tile ∨ l.ttab + 8 * tile + 8 ≤ f)
    (ha : f ≤ a ∧ a < f + 65536) : (filledFrame s u l tile f).mem.read a = 0 :=
  (Memory.read_writeN_of_outside _ (by omega)).trans (Memory.read_clear_of_mem _ ha)

theorem filledFrame_read_outside {s u : State} {l : Layout} {tile f a : Nat} (hf : a < f ∨ f + 65536 ≤ a)
    (he : a < l.ttab + 8 * tile ∨ l.ttab + 8 * tile + 8 ≤ a) : (filledFrame s u l tile f).mem.read a = u.mem.read a :=
  (Memory.read_writeN_of_outside _ he).trans (Memory.read_clear_of_outside _ hf)

/-- The entry of a resident tile: its state, its package and its frame (Table 10.4). -/
theorem entryAt_filledFrame (s u : State) (l : Layout) {tile f : Nat} (hlt : f / 65536 < 2 ^ 24) (hf : f % 65536 = 0) :
    entryAt (filledFrame s u l tile f) l tile = 2 ^ 62 + pkgNo s * 2 ^ 48 + f := by
  have hpkg : pkgNo s < 256 := BitVec.isLt _
  refine (Memory.readN_writeN ..).trans ?_
  omega

theorem frameOf_entry {s : State} {f : Nat} (hlt : f / 65536 < 2 ^ 24) (hf : f % 65536 = 0) :
    frameOf s (2 ^ 62 + pkgNo s * 2 ^ 48 + f) = f := by
  have hpkg : pkgNo s < 256 := BitVec.isLt _
  have hhome : (2 ^ 62 + pkgNo s * 2 ^ 48 + f) / 2 ^ 48 % 256 = pkgNo s := by omega
  rw [frameOf, hhome, if_pos rfl]
  omega

/-- Settles O9: a placed tile stays, an unplaced one leaves the state with its frame cleared and its entry written. -/
theorem firstTouch : Obligations.FirstTouch := by
  unfold Obligations.FirstTouch
  intro s u c f tid tile k l hl
  refine ⟨placeTile_placed hl, fun he hf => ?_⟩
  have hfr := placeTile_frame s c k tid tile
  have hu : u.mem = s.mem := (congrArg State.mem (frameFrom_serai hf) :)
  have hpk : pkgNo (placeTile s c k tid tile) = pkgNo s := (congrArg pkgNo hfr.package :)
  have ht := placeTile_unplaced hl he hf
  refine ⟨fun hd hlt hal => ?_, fun a hout hent => ?_, hfr.now, hfr.latch, (congrArg State.timers hfr.package :),
    (congrArg State.procs hfr.package :), (congrArg State.host hfr.package :), (congrArg State.pairs hfr.package :),
    (congrArg State.clusters hfr.package :), (congrArg State.pkg hfr.package :), hfr.ctx⟩
  · have hent : entryAt (placeTile s c k tid tile) l tile = 2 ^ 62 + pkgNo s * 2 ^ 48 + f := by rw [ht]; exact entryAt_filledFrame s u l hlt hal
    have hpkg : pkgNo s < 256 := BitVec.isLt _
    refine ⟨by rw [hent]; omega, ?_, fun a hlo hhi => by rw [ht]; exact filledFrame_read_frame hd ⟨hlo, hhi⟩⟩
    rw [hent, ← hpk]
    exact frameOf_entry hlt hal
  · rw [ht, filledFrame_read_outside hout hent, hu]

/-! ### Non-residency and a place in program order -/

/-- The context that takes a place in program order; NR is set if an access of its slot found no resident tile (R108). -/
def placedCtx (k : Ctx) (nr : Prop) [Decidable nr] : Ctx := { k with
  nload := k.nload + 1
  live := if nr then { k.live with cstat := k.live.cstat ||| 0x8000 } else k.live }

theorem setFlags_flNR (b : State) : setFlags b flNR = setMe b (markNR (me b) []) := rfl

theorem newPlace_flagged (b : State) (nr : Prop) [Decidable nr] :
    newPlace (if nr then setFlags b flNR else b) = setMe b (placedCtx (me b) nr) := by
  unfold placedCtx
  split_ifs
  · rw [setFlags_flNR, newPlace, setMe_setMe, me_setMe]
    rfl
  · rfl

theorem record_setMe (b : State) (k : Ctx) (a : Act) : record (setMe b k) a = setMe b { k with acts := k.acts ++ [a] } := by
  rw [record, setMe_setMe, me_setMe]

/-! ### Releases and atomics (R117, R118, R154) -/

theorem exec_stl (s : State) (h : MH) (d a : Reg) (x : Idx) : exec (.stl h d a x) s =
    runSlot (.stl h d a x) (fun s => storeRelease s (scalarRef s a x) (readG s d) h.oc) s := rfl

theorem storeRelease_eq (s : State) (r v : Word) (oc : BitVec 4) :
    let b := (scalarWrite s r 8).1
    let as := (scalarWrite s r 8).2
    storeRelease s r v oc = setMe b (if as = [] then markNR (me b) as
      else { me b with nload := (me b).nload + 1, acts := (me b).acts ++ [.stl (scalarEntry (me b) r as 8 v oc true)] }) := by
  dsimp only [storeRelease]
  split_ifs with h
  · rw [setFlags_flNR, h]
  · rw [newPlace, record_setMe]

/-- A slot that `scalarAtomic` names performs as that atomic. -/
theorem exec_of_scalarAtomic {s : State} {i : Instr} {f : AtomicForm} (h : scalarAtomic s i = some f) :
    ∃ g, exec i s = runSlot i g s ∧ g s = atomicScalar s f.op f.dest f.ref f.x f.y f.cls := by
  unfold scalarAtomic at h
  split at h <;> cases h
  case h_8 mh d a x =>
    have hnext : BitVec.ofNat 5 (2 * d.toNat) + 1 = BitVec.ofNat 5 (2 * d.toNat + 1) := by rw [BitVec.ofNat_add]; rfl
    refine ⟨_, rfl, ?_⟩
    dsimp only
    rw [hnext]
  all_goals exact ⟨_, rfl, rfl⟩

theorem atomicScalar_eq (s : State) (f : AtomicForm) :
    let b := (scalarWrite s f.ref 8).1
    let as := (scalarWrite s f.ref 8).2
    atomicScalar s f.op f.dest f.ref f.x f.y f.cls = setMe b { markNR (me b) as with
      nload := (me b).nload + 1
      loads := (me b).loads ++ [atomicEntryOf b f as]
      acts := (me b).acts ++ [.atomic (me b).nload] } := by
  intro b as
  have hfr : PlaceFrame s b := scalarWrite_frame ..
  have hme : me (if as = [] then setFlags b flNR else b) = markNR (me b) as := by
    unfold markNR
    split_ifs with h
    · rw [setFlags_flNR, me_setMe]; rfl
    · rfl
  unfold atomicScalar
  dsimp only
  rw [newPlace_flagged, setMe_setMe, me_setMe, record_setMe, hme, ← hfr.now, ← hfr.latch]
  unfold placedCtx markNR
  split_ifs <;> rfl

/-- A slot that `vectorAtomic` names performs as that lane atomic. -/
theorem exec_of_vectorAtomic {s : State} {i : Instr} {f : VAtomicForm} (h : vectorAtomic s i = some f) :
    ∃ g, exec i s = runSlot i g s ∧ g s = atomicVector s f.op f.dest f.ref f.lanes f.val f.cls (lanesOf s i) := by
  unfold vectorAtomic at h
  split at h <;> cases h <;> exact ⟨_, rfl, rfl⟩

theorem atomicVector_eq (s : State) (f : VAtomicForm) (m : Pred) :
    let b := placeStores s f.lanes
    atomicVector s f.op f.dest f.ref f.lanes f.val f.cls m = setMe b { me b with
      nload := (me b).nload + 1
      loads := (me b).loads ++ [laneAtomicOf b f m (storeAddrs b 4 f.lanes)]
      acts := (me b).acts ++ [.atomic (me b).nload] } := by
  intro b
  have hfr : PlaceFrame s b := placeStores_frame ..
  unfold atomicVector
  dsimp only
  rw [newPlace, setMe_setMe, me_setMe, record_setMe, ← hfr.now, ← hfr.latch]
  rfl

/-- Settles O12: each slot through what its operation leaves in the context of the state that placed its tiles. -/
theorem releasesAndAtomics : Obligations.ReleasesAndAtomics := by
  unfold Obligations.ReleasesAndAtomics
  refine ⟨⟨fun s h d a x hi hl => ?stl, fun s i f hf hi hl => ?scalar⟩, fun s i f hf hi hl => ?vector⟩
  case stl =>
    rw [exec_stl]
    exact runSlot_from _ _ s _ _ hi hl (storeRelease_eq ..)
  case scalar =>
    obtain ⟨g, hx, hg⟩ := exec_of_scalarAtomic hf
    rw [hx]
    exact runSlot_from _ _ s _ _ hi hl (hg.trans (atomicScalar_eq s f))
  case vector =>
    obtain ⟨g, hx, hg⟩ := exec_of_vectorAtomic hf
    rw [hx]
    exact runSlot_from _ _ s _ _ hi hl (hg.trans (atomicVector_eq s f _))

/-! ### Copies (R174) -/

/-- A slot that `copySlot` names performs as the issue of that copy. -/
theorem exec_of_copySlot {s : State} {i : Instr} {f : CopyForm} (h : copySlot s i = some f) :
    ∃ g, exec i s = runSlot i g s ∧ g s = issueCopy s f.kind f.t f.src f.dst f.desc f.desc2 f.refs f.rows := by
  unfold copySlot at h
  split at h <;> cases h <;> exact ⟨_, rfl, rfl⟩

theorem issueCopy_eq (s : State) (f : CopyForm) :
    let ts := refTiles s (me s) f.refs
    let b := placeTiles s (f.kind == .cpout) ts
    let fr := lookTiles b (f.kind == .cpout) ts
    issueCopy s f.kind f.t f.src f.dst f.desc f.desc2 f.refs f.rows = setMe b { me b with
      nload := (me b).nload + 1
      acts := (me b).acts ++ [.copy (copyCommand b f fr)]
      live := if fr.any (fun q => q.2.isNone) then { (me b).live with cstat := (me b).live.cstat ||| 0x8000 } else (me b).live } := by
  intro ts b fr
  have hfr : PlaceFrame s b := placeTiles_frame ..
  unfold issueCopy
  dsimp only
  rw [show placeTiles s (f.kind == .cpout) (refTiles s (me s) f.refs) = b from rfl, show lookTiles b (f.kind == .cpout) _ = fr from rfl,
    newPlace_flagged, record_setMe, slotWord, ← hfr.latch, ← hfr.fresh, ← hfr.me]
  unfold placedCtx
  split_ifs
  · simp only [setFlags_flNR, tileOfMe, myKey, rowWide, me_setMe]
    rfl
  · rfl

/-- Settles O20: a copy slot through what its issue leaves in the context of the state that placed its tiles. -/
theorem copySlots : Obligations.CopySlots := by
  unfold Obligations.CopySlots
  intro s i f hf hi hl
  obtain ⟨g, hx, hg⟩ := exec_of_copySlot hf
  rw [hx]
  exact runSlot_from _ _ s _ _ hi hl (hg.trans (issueCopy_eq s f))

end Sys2Proof.Machine
end

section
/-! SUPPORT. Proofs about the vector instructions (chapter 6): integer results (R132, R134, R141 to R144, R156) and lane compares (R131,
R133, R135, R136). -/

namespace Sys2Proof.Machine

/-! ### Vectors by their lanes (R129) -/

theorem getLsbD_packLanes (f : Nat → BitVec 32) {n j : Nat} (hn : n ≤ 32) :
    (packLanes f n).getLsbD j = (decide (j < 32 * n) && (f (j / 32)).getLsbD (j % 32)) := by
  induction n with
  | zero => simp [packLanes]
  | succ n ih =>
    have htop : ((f n).setWidth 1024 <<< (32 * n)).getLsbD j = (decide (j / 32 = n) && (f n).getLsbD (j % 32)) := by
      rw [BitVec.getLsbD_shiftLeft, BitVec.getLsbD_setWidth]
      by_cases hj : j / 32 = n
      · rw [show j - 32 * n = j % 32 by omega]
        simp [hj, show j < 1024 by omega, show ¬j < 32 * n by omega, show j % 32 < 1024 by omega]
      · by_cases hlo : j < 32 * n
        · simp [hj, hlo]
        · simp [hj, BitVec.getLsbD_of_ge (f n) (j - 32 * n) (by omega)]
    rw [packLanes, BitVec.getLsbD_or, ih (by omega), htop]
    by_cases hj : j / 32 = n
    · simp [hj, show ¬j < 32 * n by omega, show j < 32 * (n + 1) by omega]
    · simp [hj, show j < 32 * (n + 1) ↔ j < 32 * n by omega]

theorem getLsbD_ofLanes (f : Nat → BitVec 32) {j : Nat} (hj : j < 1024) : (ofLanes f).getLsbD j = (f (j / 32)).getLsbD (j % 32) := by
  rw [ofLanes, getLsbD_packLanes f le_rfl, decide_eq_true hj, Bool.true_and]

theorem getLsbD_lane (v : Vec) {i j : Nat} (hj : j < 32) : (lane v i).getLsbD j = v.getLsbD (32 * i + j) := by
  rw [lane, BitVec.getLsbD_extractLsb', decide_eq_true hj, Bool.true_and]

/-- A vector has 32 lanes: what a function gives beyond them does not matter. -/
theorem ofLanes_congr {f g : Nat → BitVec 32} (h : ∀ j < 32, f j = g j) : ofLanes f = ofLanes g :=
  BitVec.eq_of_getLsbD_eq fun j hj => by rw [getLsbD_ofLanes f hj, getLsbD_ofLanes g hj, h (j / 32) (by omega)]

theorem ofLanes_lane (v : Vec) : ofLanes (lane v) = v :=
  BitVec.eq_of_getLsbD_eq fun j hj => by rw [getLsbD_ofLanes _ hj, getLsbD_lane v (by omega), Nat.div_add_mod]

theorem lane_not (v : Vec) {i : Nat} (hi : i < 32) : lane (~~~v) i = ~~~lane v i :=
  BitVec.eq_of_getLsbD_eq fun j hj => by
    rw [getLsbD_lane _ hj, BitVec.getLsbD_not, BitVec.getLsbD_not, getLsbD_lane v hj, decide_eq_true hj, decide_eq_true (by omega)]

theorem lane_and (v w : Vec) (i : Nat) : lane (v &&& w) i = lane v i &&& lane w i := BitVec.extractLsb'_and

theorem lane_or (v w : Vec) (i : Nat) : lane (v ||| w) i = lane v i ||| lane w i := BitVec.extractLsb'_or

theorem lane_xor (v w : Vec) (i : Nat) : lane (v ^^^ w) i = lane v i ^^^ lane w i := BitVec.extractLsb'_xor

/-! ### Lane arithmetic (R132), at every width -/

section
variable {n : Nat} (a b : BitVec n)

theorem slt_ite_eq_ofInt_min : (if b.slt a then b else a) = BitVec.ofInt n (Min.min a.toInt b.toInt) := by
  rw [min_comm, min_def_lt, apply_ite (BitVec.ofInt n), BitVec.ofInt_toInt, BitVec.ofInt_toInt]
  exact if_congr BitVec.slt_iff_toInt_lt rfl rfl

theorem slt_ite_eq_ofInt_max : (if a.slt b then b else a) = BitVec.ofInt n (Max.max a.toInt b.toInt) := by
  rw [max_def_lt, apply_ite (BitVec.ofInt n), BitVec.ofInt_toInt, BitVec.ofInt_toInt]
  exact if_congr BitVec.slt_iff_toInt_lt rfl rfl

theorem ult_ite_eq_ofNat_min : (if b.ult a then b else a) = BitVec.ofNat n (Min.min a.toNat b.toNat) := by
  rw [min_comm, min_def_lt, apply_ite (BitVec.ofNat n), BitVec.ofNat_toNat, BitVec.ofNat_toNat, BitVec.setWidth_eq, BitVec.setWidth_eq]
  exact if_congr BitVec.ult_iff_toNat_lt rfl rfl

theorem ult_ite_eq_ofNat_max : (if a.ult b then b else a) = BitVec.ofNat n (Max.max a.toNat b.toNat) := by
  rw [max_def_lt, apply_ite (BitVec.ofNat n), BitVec.ofNat_toNat, BitVec.ofNat_toNat, BitVec.setWidth_eq, BitVec.setWidth_eq]
  exact if_congr BitVec.ult_iff_toNat_lt rfl rfl

theorem neg_ite_eq_ofNat_natAbs : (if a.slt 0 then -a else a) = BitVec.ofNat n a.toInt.natAbs := by
  rw [BitVec.slt_eq_decide, ← BitVec.ofInt_natCast, show (0 : BitVec n).toInt = 0 from BitVec.toInt_zero]
  by_cases h : a.toInt < 0
  · rw [if_pos (decide_eq_true h), Int.ofNat_natAbs_of_nonpos h.le, BitVec.ofInt_neg, BitVec.ofInt_toInt]
  · rw [if_neg (by simpa using h), Int.natAbs_of_nonneg (not_lt.mp h), BitVec.ofInt_toInt]

theorem shiftLeft_eq_ofNat_mul (k : Nat) : a <<< k = BitVec.ofNat n (a.toNat * 2 ^ k) :=
  BitVec.eq_of_toNat_eq (by rw [BitVec.toNat_shiftLeft, BitVec.toNat_ofNat, Nat.shiftLeft_eq])

theorem ushiftRight_eq_ofNat_div (k : Nat) : a >>> k = BitVec.ofNat n (a.toNat / 2 ^ k) := by
  rw [← Nat.shiftRight_eq_div_pow, ← BitVec.toNat_ushiftRight, BitVec.ofNat_toNat, BitVec.setWidth_eq]

theorem sshiftRight_eq_ofInt_div (k : Nat) : a.sshiftRight k = BitVec.ofInt n (a.toInt / 2 ^ k) := by
  rw [← BitVec.ofInt_toInt (x := a.sshiftRight k), BitVec.toInt_sshiftRight, Int.shiftRight_eq_div_pow, Nat.cast_pow]
  rfl

end

theorem mulHigh_lane_eq_ofInt (a b : BitVec 32) :
    (a.signExtend 64 * b.signExtend 64).extractLsb' 32 32 = BitVec.ofInt 32 (a.toInt * b.toInt / 2 ^ 32) := by
  have hp : a.signExtend 64 * b.signExtend 64 = BitVec.ofInt 64 (a.toInt * b.toInt) := by
    rw [BitVec.ofInt_mul, BitVec.signExtend, BitVec.signExtend]
  refine BitVec.eq_of_toNat_eq ?_
  rw [hp, BitVec.extractLsb'_toNat, BitVec.toNat_ofInt, BitVec.toNat_ofInt, Nat.shiftRight_eq_div_pow]
  generalize a.toInt * b.toInt = z
  omega

/-! ### Across lanes (R141, R143) -/

theorem packString_eq_sum (v : Vec) (w n : Nat) :
    packString v w n = ((List.range n).map fun i => (lane v i).toNat % 2 ^ w * 2 ^ (w * i)).sum := by
  induction n with
  | zero => rfl
  | succ n ih => rw [packString, ih, List.sum_range_succ]

theorem extremeLane_cons_cons (v : Vec) (max : Bool) (i j : Nat) (r : List Nat) : extremeLane v max (i :: j :: r) =
    let e := extremeLane v max (j :: r)
    if (if max then e < sl v i else sl v i < e) then sl v i else e := rfl

theorem extremeLane_true (v : Vec) (l : List Nat) : extremeLane v true l = ((l.map (slane v)).max?).getD 0 := by
  induction l with
  | nil => rfl
  | cons i r ih =>
    cases r with
    | nil => rfl
    | cons j r =>
      rw [extremeLane_cons_cons, ih]
      simp only [List.map_cons, List.max?_cons, Option.elim_some, Option.getD_some, max_comm (slane v i), max_def_lt]
      rfl

theorem extremeLane_false (v : Vec) (l : List Nat) : extremeLane v false l = ((l.map (slane v)).min?).getD 0 := by
  induction l with
  | nil => rfl
  | cons i r ih =>
    cases r with
    | nil => rfl
    | cons j r =>
      rw [extremeLane_cons_cons, ih]
      simp only [List.map_cons, List.min?_cons, Option.elim_some, Option.getD_some, min_def_lt]
      rfl

/-! ### Integer results -/

theorem and_lane_bit (m : Pred) (k : Nat) : m &&& ((1 : Pred) <<< k) = if m.getLsbD k then (1 : Pred) <<< k else 0 := by
  have h := BitVec.and_twoPow m k
  rwa [BitVec.twoPow_eq] at h

/-- A slot that `vectorRule` names performs as one result in its v register. -/
theorem exec_of_vectorRule {s : State} {i : Instr} {d : Reg} {f : Nat → BitVec 32} {w : Pred} {n : Nat} (h : vectorRule s i = some (d, f, w, n)) :
    ∃ g, exec i s = runSlot i g s ∧ g s = putV s d (ofLanes f) w n 0 false := by
  cases i <;> cases h
  case vins => exact ⟨_, rfl, by rw [and_lane_bit, ← BitVec.ofNat_toNat]⟩
  case vpack => exact ⟨_, rfl, by rw [vpackVal, packString_eq_sum, ofLanes_lane]; rfl⟩
  all_goals refine ⟨_, rfl, congrArg (putV s _ · _ _ 0 false) (ofLanes_congr fun j hj => ?_)⟩
  case vmov | vsel | vperm | vrotl | viota | vradd | vunpk => rfl
  case vmulh => exact mulHigh_lane_eq_ofInt ..
  case vand => exact (lane_and ..).symm
  case vor => exact (lane_or ..).symm
  case vxor => exact (lane_xor ..).symm
  case vandn => rw [lane_and, lane_not _ hj]
  case vshl => exact shiftLeft_eq_ofNat_mul ..
  case vshr => exact ushiftRight_eq_ofNat_div ..
  case vsha => exact sshiftRight_eq_ofInt_div ..
  case vmin => exact slt_ite_eq_ofInt_min ..
  case vmax => exact slt_ite_eq_ofInt_max ..
  case vminn => exact ult_ite_eq_ofNat_min ..
  case vmaxn => exact ult_ite_eq_ofNat_max ..
  case vabs => exact neg_ite_eq_ofNat_natAbs ..
  case vrmax => exact congrArg (BitVec.ofInt 32) (extremeLane_true ..)
  case vrmin => exact congrArg (BitVec.ofInt 32) (extremeLane_false ..)
  case vsplat => exact (BitVec.ofNat_toNat ..).symm

/-- Settles O2: each integer vector slot issues as one result, whose lanes its rule gives. -/
theorem vectorResults : Obligations.VectorResults := by
  unfold Obligations.VectorResults
  intro s i d f w n hr hi
  obtain ⟨g, hx, hg⟩ := exec_of_vectorRule hr
  obtain ⟨t, ht, hk⟩ := runSlot_flight i g s _ _ _ n 0 hi fun _ => hg
  refine ⟨t, hx.trans ht, ?_⟩
  simpa only [and_true] using hk

/-! ### Lane compares -/

theorem allFlags_zero (m : Pred) : allFlags m (fun _ => 0) = 0 := by
  have h : (fun (a : BitVec 16) (_ : Nat) => a ||| 0) = fun a _ => a := funext₂ fun _ _ => BitVec.or_zero
  rw [allFlags, h, List.foldl_fixed]

/-- A slot that `compareRule` names performs as a compare without flags in its enabled lanes. -/
theorem exec_of_compareRule {s : State} {i : Instr} {d : PReg} {f : Nat → Bool} (h : compareRule s i = some (d, f)) :
    ∃ g, exec i s = runSlot i g s ∧ g s = laneCompare s d (lanesOf s i) 2 fun j => (f j, 0) := by
  cases i <;> cases h <;> refine ⟨_, rfl, congrArg (laneCompare s _ _ 2) (funext fun j => congrArg (·, 0) ?_)⟩
  case vcmpeq => rfl
  case vcmplt => exact BitVec.slt_eq_decide
  case vcmple => exact BitVec.sle_eq_decide
  case vcmpltn => exact BitVec.ult_eq_decide

/-- A slot that `floatCompareRule` names performs as a compare in the lanes it names, none for a guard that fails. -/
theorem exec_of_floatCompareRule {s : State} {i : Instr} {d : PReg} {f : Nat → Bool × BitVec 16} {w : Pred}
    (h : floatCompareRule s i = some (d, f, w)) :
    ∃ g, exec i s = runSlot i g s ∧ g s = laneCompare s d w (modeWin s 4 8) f ∧ (lanesOf s i = 0 → w = 0) := by
  cases i <;> cases h <;> refine ⟨_, rfl, rfl, ?_⟩
  case vfcmpeq | vfcmplt | vfcmple => exact id
  case vdcmplt => exact fun hl => by rw [hl]; exact pairMask_no_lane

/-- A slot whose own effect is a compare: p0 takes none of its lanes, and its flags land all the same (R33, R131). -/
theorem runSlot_laneCompare {i : Instr} {g : State → State} {s : State} {d : PReg} {w : Pred} {n : Nat} {f : Nat → Bool × BitVec 16}
    (h : Issues s i) (hg : g s = laneCompare s d w n f) (hw : lanesOf s i = 0 → w = 0) :
    let fl := allFlags w fun j => (f j).2
    ∃ t, runSlot i g s = .next t ∧ IssuedCtx s t i (withFlight s (if w = 0 ∨ d = 0 ∧ fl = 0 then []
      else [inWindow s (.p d.toNat) ((ofBits fun j => (f j).1).setWidth 1024) (if d = 0 then 0 else w) n fl])) := by
  intro fl
  obtain ⟨t, ht, hk⟩ := runSlot_flight i g s _ _ _ n fl h fun _ => hg
  have hfl : w = 0 → fl = 0 := fun h0 => by simp only [fl, h0, allFlags_no_lane]
  have hc : lanesOf s i = 0 ∨ ((if d = 0 then 0 else w) = 0 ∧ fl = 0) ↔ w = 0 ∨ d = 0 ∧ fl = 0 := by
    split_ifs <;> tauto
  exact ⟨t, ht, by rwa [if_congr hc rfl rfl] at hk⟩

/-- Settles O4: each compare issues as one result in its predicate; without flags, p0 leaves no trace of it. -/
theorem compareResults : Obligations.CompareResults := by
  unfold Obligations.CompareResults
  refine ⟨fun s i d f hr hi => ?integer, fun s i d f w hr hi => ?float⟩
  case integer =>
    obtain ⟨g, hx, hg⟩ := exec_of_compareRule hr
    obtain ⟨t, ht, hk⟩ := runSlot_laneCompare hi hg id
    refine ⟨t, hx.trans ht, ?_⟩
    by_cases hd : d = 0
    · simpa only [allFlags_zero, hd, true_and, or_true, if_true] using hk
    · simpa only [allFlags_zero, hd, false_and, or_false, if_false] using hk
  case float =>
    obtain ⟨g, hx, hg, hw⟩ := exec_of_floatCompareRule hr
    rw [hx]
    exact runSlot_laneCompare hi hg hw

end Sys2Proof.Machine
end

section
/-! SUPPORT. Proofs about the set-up of the matrix engine (chapter 7) and about the licence of its arrays (R180 and chapter 12). -/

namespace Sys2Proof.Machine

/-! ### Tiles, products, banks and queues as they are set up (R164, R166, R169, R171, R172) -/

theorem exec_tcfg (s : State) (h : TH) (t : TReg) (a : Reg) :
    exec (.tcfg h t a) s = runSlot (.tcfg h t a) (fun s => bindTile s t (readG s a)) s := rfl

theorem exec_tstat (s : State) (h : TH) (d : Reg) (t : TReg) :
    exec (.tstat h d t) s = runSlot (.tstat h d t) (fun s => putG s d (tstatWord (tileOfMe s t)) 1) s := rfl

theorem exec_mma (s : State) (e : BitVec 2) (z ta tb : TReg) (k : BitVec 6) (tr ac : Bool) : exec (.mma e z ta tb k tr ac) s =
    runSlot (.mma e z ta tb k tr ac) (fun s => startMma s (.mma e z ta tb k tr ac) z ta tb k false tr ac) s := rfl

theorem exec_mmat (s : State) (e : BitVec 2) (z ta tb : TReg) (k : BitVec 6) (tr ac : Bool) : exec (.mmat e z ta tb k tr ac) s =
    runSlot (.mmat e z ta tb k tr ac) (fun s => startMma s (.mmat e z ta tb k tr ac) z ta tb k true tr ac) s := rfl

theorem exec_zclr (s : State) (h : TH) (z : TReg) (m : Imm) :
    exec (.zclr h z m) s = runSlot (.zclr h z m) (fun s => setBank s s.focus z ⟨true, .empty, m.sval.toInt, false, false⟩) s := rfl

theorem exec_sqld (s : State) (h : TH) (q : Bool) (a : Reg) :
    exec (.sqld h q a) s = runSlot (.sqld h q a) (fun s => pushScale s q (readG s a)) s := rfl

/-- A TCFG within the claim binds its handle in the context that issues it. -/
theorem bindTile_of_claimed {s : State} {t : TReg} {w : Word} (h : overClaim s t w = false) : bindTile s t w =
    setMe s { me s with live := { (me s).live with tiles := (me s).live.tiles.set t.toNat (tileOfWord w) } } := by
  rw [bindTile, h]
  rfl

/-- A slot whose own effect is on the matrix units of its core. -/
theorem runSlot_core {i : Instr} {f : State → State} {s : State} {K : Core} (h : Issues s i) (hl : lanesOf s i ≠ 0)
    (hf : f s = setMyCore s K) (hrest : { K with mma := none, z := .empty, zdirty := [], sqa := .reset, sqb := .reset } =
      { myCore s with mma := none, z := .empty, zdirty := [], sqa := .reset, sqb := .reset }) :
    ∃ t, runSlot i f s = .next t ∧ Issued s t i (me s) K s := by
  have hctxs : K.ctxs = (myCore s).ctxs := (congrArg Core.ctxs hrest :)
  have hissued := issued_setMyCore (s := s) i (K := K) (fun x _ => by rw [hctxs]; rfl) (congrArg Core.cur hrest :)
    (congrArg Core.ebal hrest :) (congrArg Core.floorcnt hrest :) (congrArg Core.l1 hrest :)
  rw [hctxs] at hissued
  exact ⟨_, runSlot_of_issues i f s h, by rw [issueSlot_of_lanes i f s hl, hf]; exact hissued⟩

/-- A product that issues takes the array, unless no lane of it runs. -/
theorem runSlot_startMma {i : Instr} {s : State} {z ta tb : TReg} {k : BitVec 6} {trn tbt acc : Bool} {f : State → State} {j : MmaJob}
    (h : Issues s i) (hf : f s = startMma s i z ta tb k trn tbt acc)
    (hj : startMma s i z ta tb k trn tbt acc = setMyCore s { myCore s with mma := some j }) :
    ∃ t, runSlot i f s = .next t ∧
      Issued s t i (me s) (if lanesOf s i = 0 then myCore s else { myCore s with mma := some j }) s := by
  by_cases hl : lanesOf s i = 0
  · rw [if_pos hl]
    exact ⟨_, runSlot_of_issues i f s h, by rw [issueSlot_of_no_lane i f s hl]; exact issuedCtx_same s i⟩
  · rw [if_neg hl]
    exact runSlot_core h hl (hf.trans hj) rfl

/-- Settles O18: a TCFG, TSTAT, product, ZCLR or SQLD that issues performs its own effect on its context or on its core's units. -/
theorem engineSetup : Obligations.EngineSetup := by
  unfold Obligations.EngineSetup
  refine ⟨fun s h w a d => ⟨fun hi hc => ?tcfg, fun hi => ?tstat⟩, fun s e z ta tb k tr ac => ⟨fun hi => ?mma, fun hi => ?mmat⟩,
    fun s h z m q a => ⟨fun hi hl => ?zclr, fun hi hl => ?sqld⟩⟩
  case tcfg =>
    rw [exec_tcfg]
    exact runSlot_ctx _ _ s _ hi fun _ => bindTile_of_claimed hc
  case tstat =>
    rw [exec_tstat]
    exact runSlot_putG _ _ s d _ 1 hi rfl
  case mma =>
    rw [exec_mma]
    exact runSlot_startMma hi rfl rfl
  case mmat =>
    rw [exec_mmat]
    exact runSlot_startMma hi rfl rfl
  case zclr =>
    rw [exec_zclr]
    exact runSlot_core hi hl rfl rfl
  case sqld =>
    rw [exec_sqld]
    cases q <;> exact runSlot_core hi hl rfl rfl

/-! ### The grant to a LICQ (R180, R274, R279) -/

theorem exec_licq (s : State) (h : TH) : exec (.licq h) s = runSlot (.licq h) takeLicence s := rfl

theorem takeLicence_of_mine {s : State} (h : licMine s s.focus (curX s) = true) : takeLicence s = s := by
  rw [takeLicence]
  exact if_pos h

/-- The pair of the core in focus after a grant to its current context, whose request is gone. -/
def grantedPair (s : State) : Pair :=
  let p := getPair s (pairOf s.focus)
  let q := { p with reqs := p.reqs.filter fun r => !(r.core = s.focus && r.x = curX s) }
  if p.mode then setAlt q s.focus (some (curX s)) else { q with st := licSide s.focus, holder := some (s.focus, curX s), gapEnd := s.now }

theorem setPair_setPair (s : State) (n : Nat) (p q : Pair) : setPair (setPair s n p) n q = setPair s n q := by
  rw [setPair, setPair, Tab.set_set]
  rfl

theorem takeLicence_of_not_mine {s : State} (h : licMine s s.focus (curX s) = false) :
    takeLicence s = setMe (setPair s (pairOf s.focus) (grantedPair s)) { me s with grantInInterval := true } := by
  rw [takeLicence, h]
  simp only [licWithdraw, getPair_setPair_self, setPair_setPair]
  rfl

/-- A change of a pair's licence touches no core and no byte. -/
theorem Issued.of_setPair {s t : State} {i : Instr} {k : Ctx} {m : Core} {n : Nat} {p : Pair}
    (h : Issued (setPair s n p) t i k m (setPair s n p)) : Issued s t i k m (setPair s n p) where
  ctx := h.ctx
  others := h.others
  core := h.core
  energy := h.energy
  floorcnt := h.floorcnt
  cores := h.cores
  package := h.package
  buffer := h.buffer
  bytes := h.bytes

/-- Settles O21: a LICQ does nothing for the holder, and else gives its pair's licence to its context. -/
theorem licenceRequests : Obligations.LicenceRequests := by
  unfold Obligations.LicenceRequests
  refine fun s h hi hl => ⟨fun hm => ?_, fun hm => ?_⟩
  · rw [exec_licq]
    refine ⟨_, runSlot_of_issues _ _ s hi, ?_⟩
    rw [issueSlot_of_lanes _ _ s hl, takeLicence_of_mine hm]
    exact issuedCtx_same s _
  · rw [exec_licq]
    obtain ⟨t, ht, hk⟩ := runSlot_from _ _ s _ _ hi hl (takeLicence_of_not_mine hm)
    exact ⟨t, ht, Issued.of_setPair hk⟩

/-! ### The end of a gap (R275) -/

theorem exec_passingGapEnd {s : State} {pr : Nat} {g : LicReq} (h : (getPair s pr).grantee = some g) :
    exec (.passingGapEnd pr) s = .next (restoreParked (passingEnd s pr) g.core g.x) := by
  show Host.Outcome.next (match (getPair s pr).grantee with | some g => _ | none => _) = _
  rw [h]

theorem exec_passingGapEnd_none {s : State} {pr : Nat} (h : (getPair s pr).grantee = none) : exec (.passingGapEnd pr) s = .next s := by
  show Host.Outcome.next (match (getPair s pr).grantee with | some g => _ | none => passingEnd s pr) = _
  rw [h, passingEnd, h]

theorem passingEnd_over {s : State} {pr : Nat} {g : LicReq} (h : (getPair s pr).grantee = some g) (hst : (getPair s pr).st = .passing)
    (hgap : (getPair s pr).gapEnd ≤ s.now) :
    passingEnd s pr = setPair s pr { getPair s pr with st := licSide g.core, holder := some (g.core, g.x) } := by
  simp only [passingEnd, h]
  exact if_pos ⟨hst, hgap⟩

theorem passingEnd_waits {s : State} {pr : Nat} (h : (getPair s pr).st ≠ .passing ∨ s.now < (getPair s pr).gapEnd) : passingEnd s pr = s := by
  rw [passingEnd]
  cases (getPair s pr).grantee with
  | none => rfl
  | some g => exact if_neg fun ⟨hst, hgap⟩ => h.elim (absurd hst) (absurd hgap ∘ Nat.not_le.mpr)

theorem restoreParked_waits {s : State} {c x : Nat} (h : moveBackOver s c x = false) : restoreParked s c x = s := by
  rw [restoreParked, h]
  rfl

theorem moveBackOver_of_still {s : State} {c x : Nat} (h : (getCtx s c x).restoring = false) : moveBackOver s c x = false := by
  rw [moveBackOver, h]
  rfl

/-! ### The end of a ZXT move (R180, R278, R298) -/

theorem exec_zxtMoveDone (s : State) (c x : Nat) : exec (.zxtMoveDone c x) s = .next (zxtMoveDone s c x) := rfl

theorem zxtMoveDone_waits {s : State} {c x : Nat} (h : zxtOver s c x = false) : zxtMoveDone s c x = s := by
  rw [zxtMoveDone, zxtDone, h]
  rfl

/-- The pair of a core whose ZXT's move is over. -/
def movedPair (s : State) (c : Nat) : Pair :=
  let p := getPair s (pairOf c)
  { p with moving := p.moving.filter (· != c) }

/-- The pair of a core whose matrix state has been parked under EXCL. -/
def parkedPair (s : State) (c x : Nat) : Pair :=
  { movedPair s c with holder := none, grantee := none, parkedFor := some (c, x), st := .parked }

theorem zxtDone_over {s : State} {c x : Nat} (h : zxtOver s c x = true) : zxtDone s c x =
    if (getPair s (pairOf c)).mode then altNext (setPair s (pairOf c) (movedPair s c)) (pairOf c) c
    else licUnpark (setPair s (pairOf c) (parkedPair s c x)) (pairOf c) := by
  rw [zxtDone, h]
  rfl

/-- Without a pre-emption that waits for the move, the licence alone goes on. -/
theorem zxtMoveDone_eq {s : State} {c x : Nat} (h : (getCtx (zxtDone s c x) c x).status ≠ .parking) : zxtMoveDone s c x = zxtDone s c x :=
  if_neg fun hp => h hp.2

/-- Who takes a licence that is parked as a move ends depends on the waiting requests alone. -/
theorem parkedTaker_parked (s : State) (c x : Nat) : parkedTaker (setPair s (pairOf c) (parkedPair s c x)) (parkedPair s c x) (c, x) =
    parkedTaker s (movedPair s c) (c, x) := rfl

/-- A PARKED licence goes to the request that may take it; none may under a pending LICMODE (R273). -/
theorem licUnpark_parked {s : State} {pr : Nat} {h : Nat × Nat} (hfor : (getPair s pr).parkedFor = some h) : licUnpark s pr =
    if (getPair s pr).pendMode.isSome then s
    else match parkedTaker s (getPair s pr) h with | some r => licChoose s pr r | none => s := by
  rw [licUnpark, hfor]
  split_ifs <;> rfl

/-- Under EXCL the licence is parked, or goes to the request that may take it. -/
theorem zxtDone_parks {s : State} {c x : Nat} (h : zxtOver s c x = true) (hm : (getPair s (pairOf c)).mode = false) :
    let t := setPair s (pairOf c) (parkedPair s c x)
    zxtDone s c x = if (getPair s (pairOf c)).pendMode.isSome then t
      else match parkedTaker s (movedPair s c) (c, x) with | some r => licChoose t (pairOf c) r | none => t := by
  intro t
  have hpair : getPair t (pairOf c) = parkedPair s c x := getPair_setPair_self ..
  rw [zxtDone_over h, hm, if_neg Bool.false_ne_true, licUnpark_parked (h := (c, x)) (by rw [hpair]; rfl), hpair, parkedTaker_parked]
  rfl

/-- A field that a change of one context keeps, in every context. -/
theorem getCtx_setCtx_field {α : Type} (f : Ctx → α) {s : State} {c x : Nat} {k : Ctx} (h : f k = f (getCtx s c x)) (d y : Nat) :
    f (getCtx (setCtx s c x k) d y) = f (getCtx s d y) := by
  by_cases hd : d = c ∧ y = x
  · rw [hd.1, hd.2, getCtx_setCtx_self, h]
  · rw [getCtx_setCtx_ne _ _ _ _ _ _ (not_and_or.mp hd)]

/-- The writes of an engine and the transfers between dies change no field of a context but its monitor. -/
theorem EngineFrame.ctx_field {α : Type} {s t : State} (h : EngineFrame s t) (f : Ctx → α) (hf : ∀ k m, f { k with mon := m } = f k)
    (c x : Nat) : f (getCtx t c x) = f (getCtx s c x) :=
  (hf _ _).symm.trans (congrArg f (h.ctx c x))

theorem status_signal (s : State) (a b d y : Nat) : (getCtx (signal s a b) d y).status = (getCtx s d y).status := by
  rw [signal]
  exact (carry_frame ..).ctx_field Ctx.status (fun _ _ => rfl) d y

theorem status_markGrant (s : State) (r : LicReq) (d y : Nat) : (getCtx (markGrant s r) d y).status = (getCtx s d y).status := by
  unfold markGrant
  split_ifs
  · rfl
  · refine getCtx_setCtx_field Ctx.status ?_ d y
    rfl

theorem getCtx_after (s : State) (n : Nat) (i : Due) (d y : Nat) : getCtx (after s n i) d y = getCtx s d y := rfl

theorem status_startRestore (s : State) (c x d y : Nat) : (getCtx (startRestore s c x) d y).status = (getCtx s d y).status := by
  unfold startRestore
  split
  · dsimp only
    rw [getCtx_after]
    refine (getCtx_setCtx_field Ctx.status ?_ d y).trans (status_signal ..)
    exact (status_signal ..).symm
  · rfl

/-- No context begins or ends a task as the licence is given. -/
theorem status_licChoose (s : State) (pr : Nat) (r : LicReq) (d y : Nat) : (getCtx (licChoose s pr r) d y).status = (getCtx s d y).status := by
  unfold licChoose
  refine (status_startRestore ..).trans ?_
  split_ifs <;> exact (status_markGrant ..).trans (status_signal ..)

/-- A half with no waiting request of its core is free. -/
theorem altNext_free {s : State} {pr c : Nat} (h : ∀ r ∈ (getPair s pr).reqs, r.core ≠ c) :
    altNext s pr c = setPair s pr (setAlt (getPair s pr) c none) := by
  have hreqs : reqsOf (getPair s pr) c = [] := List.filter_eq_nil_iff.mpr fun r hr => by simpa using h r hr
  have hnone : (if (getPair s pr).pendMode.isSome then none else licBest (reqsOf (getPair s pr) c)) = none := by
    rw [hreqs]
    exact ite_self _
  simp only [altNext, hnone]

/-! ### The end of a move back (R180, R278, R299) -/

theorem exec_parkedRestoreDone (s : State) (c x : Nat) : exec (.parkedRestoreDone c x) s = .next (restoreParked s c x) := rfl

theorem twinOf_ne (c : Nat) : twinOf c ≠ c := by
  unfold twinOf
  split_ifs <;> omega

theorem getAny_of_lt (s : State) (c : Nat) {x : Nat} (h : x < 4) : getAny s c x = getCtx s c x := if_pos h

theorem setAny_of_lt (s : State) (c : Nat) {x : Nat} (k : Ctx) (h : x < 4) : setAny s c x k = setCtx s c x k := if_pos h

/-- Does a core's parking SRAM hold a state of context `x` of core `c`? -/
def parksFor (k : Core) (c x : Nat) : Prop := ∃ o, k.park = some o ∧ o.core = c ∧ o.x = x

/-- A state that leaves its parking place leaves the twin's SRAM and the context's image. -/
theorem clearParked_cases (s : State) (c : Nat) {x : Nat} (hx : x < 4) :
    let s1 := setCtx s c x { getCtx s c x with mstate := none }
    ¬ parksFor (getCore s (twinOf c)) c x ∧ clearParked s c x = s1 ∨
      clearParked s c x = setCore s1 (twinOf c) { getCore s (twinOf c) with park := none } := by
  intro s1
  have htwin : getCore s1 (twinOf c) = getCore s (twinOf c) := getCore_setCtx_ne _ _ _ _ _ (twinOf_ne c)
  rw [clearParked, setAny_of_lt _ _ _ hx, getAny_of_lt _ _ hx, htwin]
  cases hp : (getCore s (twinOf c)).park with
  | none => exact Or.inl ⟨fun ⟨o, ho, _⟩ => Option.some_ne_none o (ho.symm.trans hp), rfl⟩
  | some o =>
    by_cases ho : o.core = c ∧ o.x = x
    · exact Or.inr (if_pos ho)
    · refine Or.inl ⟨fun ⟨o', ho', h'⟩ => ho ?_, if_neg ho⟩
      rw [hp] at ho'
      cases ho'
      exact h'

theorem clearParked_package (s : State) (c : Nat) {x : Nat} (hx : x < 4) : { clearParked s c x with cores := s.cores } = s := by
  rcases clearParked_cases s c hx with ⟨-, h⟩ | h <;> rw [h] <;> rfl

theorem getCtx_clearParked (s : State) (c : Nat) {x : Nat} (hx : x < 4) :
    getCtx (clearParked s c x) c x = { getCtx s c x with mstate := none } := by
  rcases clearParked_cases s c hx with ⟨-, h⟩ | h
  · rw [h, getCtx_setCtx_self]
  · rw [h, getCtx, getCore_setCore_ne _ _ _ _ (twinOf_ne c).symm]
    exact getCtx_setCtx_self ..

theorem clearParked_not_parksFor (s : State) (c : Nat) {x : Nat} (hx : x < 4) : ¬ parksFor (getCore (clearParked s c x) (twinOf c)) c x := by
  rcases clearParked_cases s c hx with ⟨hn, h⟩ | h
  · rw [h, getCore_setCtx_ne _ _ _ _ _ (twinOf_ne c)]
    exact hn
  · rw [h, getCore_setCore_self]
    exact fun ⟨o, ho, _⟩ => nomatch ho

theorem parkedOf_none {s : State} {c x : Nat} (hx : x < 4) (hk : (getCtx s c x).mstate = none) (hp : ¬ parksFor (getCore s (twinOf c)) c x) :
    parkedOf s c x = none := by
  simp only [parkedOf, if_pos hx, hk]
  cases hpark : (getCore s (twinOf c)).park with
  | none => rfl
  | some o => exact if_neg fun ho => hp ⟨o, hpark, ho⟩

/-- The core of a context whose parked state is back. -/
def restoredCore (q : Core) (k : Ctx) (m : Parked) : Core :=
  { q with z := m.banks, zwp := k.zwp, zdirty := k.zdirty, sqa := m.sqa, sqb := m.sqb }

/-- The context whose parked state is back. -/
def restoredCtx (k : Ctx) (m : Parked) : Ctx :=
  let lost := droppedBindings k m.cmds
  { k with
    restoring := false
    zwp := .empty
    zdirty := []
    unpark := if m.bySave then k.unpark else if k.grantInInterval then some m else none
    dropped := if m.bySave then k.dropped else lost.map fun r => r.2.2
    reserved := k.reserved ++ lost
    live := { k.live with tiles := m.tiles } }

/-- A move back that is over: the state `u`, from which the parked state is gone, takes it on the core and in the context. -/
theorem restoreParked_over {s u : State} {c x : Nat} {m : Parked} (h : moveBackOver s c x = true) (hm : parkedOf s c x = some m)
    (hu : clearParked s c x = u) : restoreParked s c x =
      setCtx (setCore u c (restoredCore (getCore u c) (getCtx u c x) m)) c x (restoredCtx (getCtx u c x) m) := by
  rw [restoreParked, h, hm, hu]
  rfl

/-- What stands after a core and its context have been written. -/
theorem setCtx_setCore_reads (u : State) (c x : Nat) (q : Core) (k : Ctx) :
    let t := setCtx (setCore u c q) c x k
    t.mem = u.mem ∧ t.pairs = u.pairs ∧ getCtx t c x = k ∧ getCore t c = { q with ctxs := q.ctxs.set x k } ∧
      ∀ d, d ≠ c → getCore t d = getCore u d := by
  refine ⟨rfl, rfl, getCtx_setCtx_self .., ?_, fun d hd => ?_⟩
  · rw [getCore_setCtx_self, getCore_setCore_self]
  · rw [getCore_setCtx_ne _ _ _ _ _ hd, getCore_setCore_ne _ _ _ _ hd]

/-! ### LICMODE (R273) -/

theorem exec_licmodeWrite (s : State) (pr : Nat) (v : Word) :
    exec (.licmodeWrite pr v) s = .next (if valueOk 0x013 v then modeWrite s pr v else s) := rfl

theorem exec_licmodeTakesEffect (s : State) (pr : Nat) : exec (.licmodeTakesEffect pr) s = .next (modeEffect s pr) := rfl

/-- LICMODE holds one bit; the others are reserved (R41). -/
theorem valueOk_licmode (v : Word) : valueOk 0x013 v = true ↔ v.toNat < 2 := by
  have h : valueOk 0x013 v = (wf v 63 1 == 0) := rfl
  have hv : v.toNat < 2 ^ 64 := v.isLt
  rw [h, wf, beq_iff_eq]
  omega

theorem modeDue_iff (s : State) (pr : Nat) : modeDue s pr = true ↔ (getPair s pr).pendMode.isSome = true ∧ (getPair s pr).st = .free ∧
    (getPair s pr).freeLower ≤ s.now ∧ (getPair s pr).freeUpper ≤ s.now := by
  simp only [modeDue, Bool.and_eq_true, beq_iff_eq, decide_eq_true_eq, and_assoc]

theorem modeEffect_waits {s : State} {pr : Nat} (h : modeDue s pr = false) : modeEffect s pr = s := by
  rw [modeEffect, h]
  split <;> rfl

theorem licServe_idle {s : State} {pr : Nat} (h : (getPair s pr).reqs = []) : licServe s pr = s := by
  have hreqs (c : Nat) : (reqsOf (getPair s pr) c).isEmpty = true := by rw [reqsOf, h]; rfl
  simp only [licServe, hreqs, h, licBest, Bool.true_eq_false, and_false, if_false, ite_self]

theorem modeEffect_due {s : State} {pr : Nat} {m : Bool} (hm : (getPair s pr).pendMode = some m) (h : modeDue s pr = true)
    (hr : (getPair s pr).reqs = []) : modeEffect s pr =
      setPair s pr { getPair s pr with mode := m, pendMode := none, choose := none, altLower := none, altUpper := none } := by
  rw [modeEffect, hm, h]
  exact licServe_idle (by rw [getPair_setPair_self]; exact hr)

/-- Settles O33: each row of the licence is the equation of its transition, under the condition that its rule gives. -/
theorem licencePasses : Obligations.LicencePasses := by
  unfold Obligations.LicencePasses
  refine ⟨fun s pr c x => ⟨fun g hg hst hgap => ⟨?passes, fun hr => ?still⟩, fun hw hb => ?gap, fun hz => ?moving,
      fun hz hm hk => ⟨fun hn => ?parks, fun r hp hr => ?taken⟩, fun hz hm hr hk => ?half, fun hb => ?back, fun m hx hb hm => ?restored⟩,
    fun s pr v => ⟨fun hv => ?writes, fun hv => ?reserved, fun hw => ?pending, fun m hm hst hlo hup hr => ?effect⟩⟩
  case passes => rw [exec_passingGapEnd hg, passingEnd_over hg hst hgap]
  case still => exact restoreParked_waits (moveBackOver_of_still hr)
  case gap =>
    cases hg : (getPair s pr).grantee with
    | none => exact exec_passingGapEnd_none hg
    | some g =>
      have hw := hw.resolve_left (by rw [hg]; exact Option.some_ne_none g)
      rw [exec_passingGapEnd hg, passingEnd_waits hw, restoreParked_waits (hb g hg)]
  case moving => rw [exec_zxtMoveDone, zxtMoveDone_waits hz]
  case parks =>
    have hdone : zxtDone s c x = setPair s (pairOf c) (parkedPair s c x) := by
      rw [zxtDone_parks hz hm]
      rcases hn with hn | hn
      · exact if_pos hn
      · rw [show parkedTaker s (movedPair s c) (c, x) = none from hn]
        exact ite_self _
    rw [exec_zxtMoveDone, zxtMoveDone_eq (by rw [hdone]; exact hk), hdone]
    rfl
  case taken =>
    have hdone : zxtDone s c x = licChoose (setPair s (pairOf c) (parkedPair s c x)) (pairOf c) r := by
      rw [zxtDone_parks hz hm, if_neg (by rw [hp]; decide), show parkedTaker s (movedPair s c) (c, x) = some r from hr]
    rw [exec_zxtMoveDone, zxtMoveDone_eq (by rw [hdone, status_licChoose]; exact hk), hdone]
    rfl
  case half =>
    have hdone : zxtDone s c x = setPair s (pairOf c) (setAlt (movedPair s c) c none) := by
      rw [zxtDone_over hz, hm, if_pos rfl, altNext_free (by rw [getPair_setPair_self]; exact hr), getPair_setPair_self, setPair_setPair]
    rw [exec_zxtMoveDone, zxtMoveDone_eq (by rw [hdone]; exact hk), hdone]
    rfl
  case back => rw [exec_parkedRestoreDone, restoreParked_waits hb]
  case restored =>
    obtain ⟨u, hu⟩ : ∃ u, clearParked s c x = u := ⟨_, rfl⟩
    have hk : getCtx u c x = { getCtx s c x with mstate := none } := hu ▸ getCtx_clearParked s c hx
    have hpack : { u with cores := s.cores } = s := hu ▸ clearParked_package s c hx
    have hpark : ¬ parksFor (getCore u (twinOf c)) c x := hu ▸ clearParked_not_parksFor s c hx
    obtain ⟨hmem, hpairs, hctx, hcore, hothers⟩ :=
      setCtx_setCore_reads u c x (restoredCore (getCore u c) (getCtx u c x) m) (restoredCtx (getCtx u c x) m)
    rw [exec_parkedRestoreDone, restoreParked_over hb hm hu]
    rw [hk] at hmem hpairs hctx hcore hothers ⊢
    refine ⟨_, rfl, hmem.trans (congrArg State.mem hpack :), hpairs.trans (congrArg State.pairs hpack :), ?_⟩
    rw [hcore, hctx]
    refine ⟨rfl, rfl, rfl, rfl, rfl, rfl, rfl, parkedOf_none hx (by rw [hctx]; rfl) ?_⟩
    rw [hothers _ (twinOf_ne c)]
    exact hpark
  case writes => rw [exec_licmodeWrite, if_pos ((valueOk_licmode v).mpr hv)]; rfl
  case reserved => rw [exec_licmodeWrite, if_neg (by rw [valueOk_licmode]; omega)]
  case pending =>
    have hdue : modeDue s pr = false := by
      rw [← Bool.not_eq_true, modeDue_iff]
      rintro ⟨hm, hst, hlo, hup⟩
      rcases hw with hw | hw | hw | hw
      · rw [hw] at hm; cases hm
      · exact hw hst
      · omega
      · omega
    rw [exec_licmodeTakesEffect, modeEffect_waits hdue]
  case effect =>
    rw [exec_licmodeTakesEffect, modeEffect_due hm ((modeDue_iff s pr).mpr ⟨by rw [hm]; rfl, hst, hlo, hup⟩) hr]

end Sys2Proof.Machine
end

section
/-! SUPPORT. Proofs about the deliveries of copies and relays (R174 to R177). -/

namespace Sys2Proof.Machine

/-! ### Contexts on their cores and in images -/

theorem getAny_of_ge (s : State) (c : Nat) {x : Nat} (h : ¬ x < 4) :
    getAny s c x = ((s.serai.images.find (x - 4)).map (·.ctx)).getD Ctx.reset := by
  rw [getAny, if_neg h]
  cases s.serai.images.find (x - 4) <;> rfl

/-- The state with the context of an image slot changed. -/
def setImageCtx (s : State) (n : Nat) (i : Image) (k : Ctx) : State :=
  { s with serai := { s.serai with images := s.serai.images.set n { i with ctx := k } } }

theorem setAny_of_image {s : State} (c : Nat) {x : Nat} {i : Image} (k : Ctx) (h : ¬ x < 4) (hi : s.serai.images.find (x - 4) = some i) :
    setAny s c x k = setImageCtx s (x - 4) i k := by
  rw [setAny, if_neg h, hi]
  rfl

theorem setAny_of_no_image {s : State} (c : Nat) {x : Nat} (k : Ctx) (h : ¬ x < 4) (hi : s.serai.images.find (x - 4) = none) :
    setAny s c x k = s := by
  rw [setAny, if_neg h, hi]

/-- A change of a context is one of a hardware context, one of an image, or none. -/
theorem setAny_cases (s : State) (c x : Nat) (k : Ctx) :
    (x < 4 ∧ setAny s c x k = setCtx s c x k) ∨
    (¬ x < 4 ∧ ∃ i, s.serai.images.find (x - 4) = some i ∧ setAny s c x k = setImageCtx s (x - 4) i k) ∨
    (¬ x < 4 ∧ s.serai.images.find (x - 4) = none ∧ setAny s c x k = s) := by
  by_cases hx : x < 4
  · exact Or.inl ⟨hx, setAny_of_lt s c k hx⟩
  · cases hi : s.serai.images.find (x - 4) with
    | some i => exact Or.inr (Or.inl ⟨hx, i, rfl, setAny_of_image c k hx hi⟩)
    | none => exact Or.inr (Or.inr ⟨hx, rfl, setAny_of_no_image c k hx hi⟩)

theorem setAny_mem (s : State) (c x : Nat) (k : Ctx) : (setAny s c x k).mem = s.mem := by
  rcases setAny_cases s c x k with ⟨-, h⟩ | ⟨-, i, -, h⟩ | ⟨-, -, h⟩ <;> rw [h] <;> rfl

/-- A field that a change of one context keeps, in every context and image. -/
theorem getAny_setAny_field {α : Type} (f : Ctx → α) {s : State} {c x : Nat} {k : Ctx} (h : f k = f (getAny s c x)) (d y : Nat) :
    f (getAny (setAny s c x k) d y) = f (getAny s d y) := by
  rcases setAny_cases s c x k with ⟨hx, hs⟩ | ⟨hx, i, hi, hs⟩ | ⟨hx, hi, hs⟩
  · rw [getAny_of_lt _ _ hx] at h
    by_cases hy : y < 4
    · rw [hs, getAny_of_lt _ _ hy, getAny_of_lt _ _ hy, getCtx_setCtx_field f h]
    · rw [hs, getAny_of_ge _ _ hy, getAny_of_ge _ _ hy, setCtx_serai]
  · by_cases hy : y < 4
    · rw [hs, getAny_of_lt _ _ hy, getAny_of_lt _ _ hy]
      rfl
    · rw [getAny_of_ge _ _ hx, hi] at h
      rw [hs, getAny_of_ge _ _ hy, getAny_of_ge _ _ hy]
      by_cases hn : y - 4 = x - 4
      · have hfind : (setImageCtx s (x - 4) i k).serai.images.find (x - 4) = some { i with ctx := k } := Tab.find_set_self ..
        rw [hn, hfind, hi]
        exact h
      · exact congrArg (fun o : Option Image => f ((o.map (·.ctx)).getD Ctx.reset)) (Tab.find_set_ne _ _ _ _ hn)
  · rw [hs]

/-- A context that is there takes what is written to it: one with a copy command is. -/
theorem getAny_setAny_self {s : State} {c x : Nat} (h : (getAny s c x).copyq ≠ []) (k : Ctx) : getAny (setAny s c x k) c x = k := by
  rcases setAny_cases s c x k with ⟨hx, hs⟩ | ⟨hx, i, hi, hs⟩ | ⟨hx, hi, hs⟩
  · rw [hs, getAny_of_lt _ _ hx, getCtx_setCtx_self]
  · rw [hs, getAny_of_ge _ _ hx]
    exact congrArg (fun o : Option Image => (o.map (·.ctx)).getD Ctx.reset) (Tab.find_set_self ..)
  · rw [getAny_of_ge _ _ hx, hi] at h
    exact absurd rfl h

/-! ### What a delivery keeps of the package and of the queues (R174) -/

/-- `t` is `s` but for memory, the dies, the links, the cores and the Serai; every queue of copy commands is the same. -/
structure QueueFrame (s t : State) : Prop where
  package : { t with mem := s.mem, dies := s.dies, links := s.links, cores := s.cores, serai := s.serai } = s
  queue : ∀ c x, (getAny t c x).copyq = (getAny s c x).copyq

theorem QueueFrame.refl (s : State) : QueueFrame s s := ⟨rfl, fun _ _ => rfl⟩

theorem QueueFrame.trans {s t u : State} (h : QueueFrame s t) (h' : QueueFrame t u) : QueueFrame s u where
  package := (congrArg (fun v : State => { v with mem := s.mem, dies := s.dies, links := s.links, cores := s.cores, serai := s.serai })
    h'.package).trans h.package
  queue c x := (h'.queue c x).trans (h.queue c x)

theorem EngineFrame.serai {s t : State} (h : EngineFrame s t) : t.serai = s.serai := (congrArg State.serai h.package :)

theorem EngineFrame.queues {s t : State} (h : EngineFrame s t) : QueueFrame s t where
  package := (congrArg (fun v : State => { v with serai := s.serai }) h.package :)
  queue c x := by
    by_cases hx : x < 4
    · rw [getAny_of_lt _ _ hx, getAny_of_lt _ _ hx]
      exact h.ctx_field Ctx.copyq (fun _ _ => rfl) c x
    · rw [getAny_of_ge _ _ hx, getAny_of_ge _ _ hx, h.serai]

theorem setAny_package (s : State) (c x : Nat) (k : Ctx) : { setAny s c x k with cores := s.cores, serai := s.serai } = s := by
  rcases setAny_cases s c x k with ⟨-, h⟩ | ⟨-, i, -, h⟩ | ⟨-, -, h⟩ <;> rw [h] <;> rfl

theorem setAny_queues {s : State} {c x : Nat} {k : Ctx} (h : k.copyq = (getAny s c x).copyq) : QueueFrame s (setAny s c x k) where
  package := (congrArg (fun v : State => { v with mem := s.mem, dies := s.dies, links := s.links }) (setAny_package s c x k) :)
  queue := getAny_setAny_field Ctx.copyq h

theorem setCtx_queues {s : State} {c x : Nat} {k : Ctx} (h : k.copyq = (getCtx s c x).copyq) : QueueFrame s (setCtx s c x k) where
  package := rfl
  queue d y := by
    by_cases hy : y < 4
    · rw [getAny_of_lt _ _ hy, getAny_of_lt _ _ hy, getCtx_setCtx_field Ctx.copyq h]
    · rw [getAny_of_ge _ _ hy, getAny_of_ge _ _ hy, setCtx_serai]

theorem setCore_queues {s : State} {c : Nat} {v : Core} (h : v.ctxs = (getCore s c).ctxs) : QueueFrame s (setCore s c v) where
  package := rfl
  queue d y := by
    by_cases hy : y < 4
    · rw [getAny_of_lt _ _ hy, getAny_of_lt _ _ hy, getCtx, getCtx]
      by_cases hd : d = c
      · rw [hd, getCore_setCore_self, h]
      · rw [getCore_setCore_ne _ _ _ _ hd]
    · rw [getAny_of_ge _ _ hy, getAny_of_ge _ _ hy]
      rfl

/-- A parked state is laid in the image of its context or in its twin's parking SRAM. -/
theorem layParked_cases (s : State) (c x : Nat) (p : Parked) :
    layParked s c x p = setAny s c x { getAny s c x with mstate := some p } ∨
    layParked s c x p = setCore s (twinOf c) { getCore s (twinOf c) with park := some p } := by
  unfold layParked
  dsimp only
  split_ifs
  · exact Or.inl rfl
  · split
    · exact Or.inr rfl
    · split_ifs
      · exact Or.inr rfl
      · exact Or.inl rfl

theorem layParked_frame (s : State) (c x : Nat) (p : Parked) : QueueFrame s (layParked s c x p) ∧ (layParked s c x p).mem = s.mem := by
  rcases layParked_cases s c x p with h | h <;> rw [h]
  · exact ⟨setAny_queues rfl, setAny_mem ..⟩
  · exact ⟨setCore_queues rfl, rfl⟩

theorem rollTile_copyq (k : Ctx) (q : CopyCmd) (f : Tile → Tile) : (rollTile k q f).copyq = k.copyq := by
  unfold rollTile
  split
  · rfl
  · split_ifs <;> rfl

/-- A command's tile changes: memory and every queue stand as before. -/
theorem cmdTile_frame (s : State) (c x : Nat) (q : CopyCmd) (f : Tile → Tile) :
    QueueFrame s (cmdTile s c x q f) ∧ (cmdTile s c x q f).mem = s.mem := by
  unfold cmdTile
  dsimp only
  split_ifs
  · exact ⟨setAny_queues (rollTile_copyq ..), setAny_mem ..⟩
  · exact ⟨.refl s, rfl⟩
  · split
    · split_ifs
      · exact ⟨(layParked_frame ..).1.trans (setAny_queues (rollTile_copyq ..)), (setAny_mem ..).trans (layParked_frame ..).2⟩
      · exact layParked_frame ..
    · exact ⟨setAny_queues (rollTile_copyq ..), setAny_mem ..⟩

theorem countArrival_frame (s : State) (c x : Nat) (q : CopyCmd) (n : Nat) :
    QueueFrame s (countArrival s c x q n) ∧ (countArrival s c x q n).mem = s.mem := by
  unfold countArrival
  split_ifs
  · exact ⟨setAny_queues rfl, setAny_mem ..⟩
  · exact ⟨.refl s, rfl⟩

/-! ### A command of a queue -/

theorem copyq_ne_nil_of_findCmd {k : Ctx} {n : Nat} {q : CopyCmd} (h : findCmd k n = some q) : k.copyq ≠ [] := by
  intro hn
  rw [findCmd, hn] at h
  cases h

theorem id_of_findCmd {k : Ctx} {n : Nat} {q : CopyCmd} (h : findCmd k n = some q) : q.id = n := by
  simpa using List.find?_some h

theorem find?_replaced {l : List CopyCmd} {n : Nat} {q q' : CopyCmd} (h : l.find? (fun o => o.id == n) = some q) (hid : q'.id = n) :
    (l.map fun o => if o.id = q'.id then q' else o).find? (fun o => o.id == n) = some q' := by
  induction l with
  | nil => cases h
  | cons o r ih =>
    rw [List.map_cons]
    by_cases ho : o.id = n
    · rw [if_pos (ho.trans hid.symm), List.find?_cons_of_pos (by simpa using hid)]
    · rw [List.find?_cons_of_neg (by simpa using ho)] at h
      rw [if_neg (by rw [hid]; exact ho), List.find?_cons_of_neg (by simpa using ho), ih h]

/-- A command that is put back in its queue is found there. -/
theorem findCmd_putCmd {s : State} {c x n : Nat} {q q' : CopyCmd} (h : findCmd (getAny s c x) n = some q) (hid : q'.id = n) :
    findCmd (getAny (putCmd s c x q') c x) n = some q' := by
  rw [putCmd, getAny_setAny_self (copyq_ne_nil_of_findCmd h)]
  exact find?_replaced h hid

theorem putCmd_mem (s : State) (c x : Nat) (q : CopyCmd) : (putCmd s c x q).mem = s.mem := setAny_mem ..

theorem putCmd_package (s : State) (c x : Nat) (q : CopyCmd) : { putCmd s c x q with cores := s.cores, serai := s.serai } = s := setAny_package ..

/-! ### The data of a copy (R175, R337, R348) -/

theorem askHomes_frame (s : State) (a : Nat) (m : MsgBody) (l : List Nat) : EngineFrame s (askHomes s a m l) := by
  induction l generalizing s with
  | nil => exact .refl s
  | cons b r ih =>
    cases r with
    | nil => exact (carry_frame ..).trans (carry_frame ..)
    | cons b' r => exact ((carry_frame ..).trans (carry_frame ..)).trans (ih _)

theorem askHomes_mem (s : State) (a : Nat) (m : MsgBody) (l : List Nat) : (askHomes s a m l).mem = s.mem := by
  induction l generalizing s with
  | nil => rfl
  | cons b r ih =>
    cases r with
    | nil => exact (carry_mem ..).trans (carry_mem ..)
    | cons b' r => exact (ih _).trans ((carry_mem ..).trans (carry_mem ..))

theorem setDie_capture {s : State} {d : Nat} {v : Die} (h : v.capture = (getDie s d).capture) (e : Nat) :
    (getDie (setDie s d v) e).capture = (getDie s e).capture := by
  by_cases he : e = d
  · rw [he, getDie_setDie_self, h]
  · rw [getDie_setDie_ne _ _ _ _ he]

theorem logInbound_capture (s : State) (a b : Nat) (sq : BitVec 32) (m : MsgBody) (e : Nat) :
    (getDie (logInbound s a b sq m) e).capture = (getDie s e).capture := by
  unfold logInbound
  split
  · refine setDie_capture ?_ e
    rfl
  · rfl

theorem carry_capture (s : State) (a b : Nat) (m : MsgBody) (e : Nat) : (getDie (carry s a b m) e).capture = (getDie s e).capture := by
  unfold carry
  split
  · rfl
  split
  · refine setDie_capture ?_ e
    rfl
  · exact logInbound_capture ..

theorem askHomes_capture (s : State) (a : Nat) (m : MsgBody) (l : List Nat) (e : Nat) :
    (getDie (askHomes s a m l) e).capture = (getDie s e).capture := by
  induction l generalizing s with
  | nil => rfl
  | cons b r ih =>
    cases r with
    | nil => exact (carry_capture ..).trans (carry_capture ..)
    | cons b' r => exact (ih _).trans ((carry_capture ..).trans (carry_capture ..))

/-- The data of a copy change memory and the captures of no die. -/
theorem copyData_frame (s : State) (o x : Nat) (q : CopyCmd) (p : Nat) (f : State → List Byte) :
    EngineFrame s (copyData s o x q p f).1 ∧ (copyData s o x q p f).1.mem = s.mem ∧
      ∀ a, waitsCopy (copyData s o x q p f).1 a = waitsCopy s a := by
  unfold copyData
  dsimp only
  split
  case h_1 r hr =>
    obtain ⟨v, -, rfl⟩ := Option.map_eq_some_iff.mp hr
    refine ⟨setDie_frame .., rfl, waitsCopy_congr fun e => setDie_capture ?_ e⟩
    rfl
  case h_2 => exact ⟨askHomes_frame .., askHomes_mem .., waitsCopy_congr fun e => askHomes_capture _ _ _ _ e⟩

theorem copyData_snd (s : State) (o x : Nat) (q : CopyCmd) (p : Nat) (f : State → List Byte) :
    (copyData s o x q p f).2 = ((takeReplay s o (isRow (getAny s o x).run q.seq p)).map (·.1)).getD (f s) := by
  unfold copyData
  dsimp only
  cases takeReplay s o (isRow (getAny s o x).run q.seq p) <;> rfl

theorem copyData_of_no_replay {s : State} {o x : Nat} {q : CopyCmd} {p : Nat} (f : State → List Byte)
    (h : takeReplay s o (isRow (getAny s o x).run q.seq p) = none) : (copyData s o x q p f).2 = f s := by
  rw [copyData_snd, h]
  rfl

theorem getProc_congr {s t : State} (h : t.procs = s.procs) (pid : Nat) : getProc t pid = getProc s pid := by rw [getProc, getProc, h]

theorem layoutOf_congr {s t : State} (h : t.procs = s.procs) (pid tid : Nat) : layoutOf t pid tid = layoutOf s pid tid := by
  rw [layoutOf, layoutOf, getProc_congr h]

theorem refHalf_congr {s t : State} (h : t.procs = s.procs) (k : Ctx) (r : Word) : refHalf t k r = refHalf s k r := by
  rw [refHalf, refHalf, layoutOf_congr h]

theorem halfOf_congr {s t : State} (h : t.procs = s.procs) (pid tid : Nat) : halfOf t pid tid = halfOf s pid tid :=
  refHalf_congr h _ _

theorem elemLoc_congr {s t : State} (h : t.procs = s.procs) (pid tid i : Nat) : elemLoc t pid tid i = elemLoc s pid tid i := by
  rw [elemLoc, elemLoc, getProc_congr h]

/-- Where a packed byte stands on the tensor side depends on the process tables alone. -/
theorem packedLoc_congr {s t : State} (h : t.procs = s.procs) (q : CopyCmd) (i : Nat) : packedLoc t q i = packedLoc s q i := by
  simp only [packedLoc, halfOf_congr h, elemLoc_congr h]

/-- A packed byte reads as before where its tile's place and the byte there do. -/
theorem packedBytes_congr {s t : State} (hprocs : t.procs = s.procs) {c : Nat} (hread : ∀ b, readAt t c 5 b = readAt s c 5 b)
    (q : CopyCmd) (a n : Nat) : packedBytes t c q a n = packedBytes s c q a n := by
  unfold packedBytes packedByte
  simp only [packedLoc_congr hprocs, hread]

theorem readAt_pieces (s : State) (l : List (Nat × Nat)) (c sc a : Nat) : readAt { s with pieces := l } c sc a = readAt s c sc a :=
  readAt_congr s _ c sc a rfl rfl rfl rfl rfl rfl

theorem packedBytes_pieces (s : State) (l : List (Nat × Nat)) (c : Nat) (q : CopyCmd) (a n : Nat) :
    packedBytes { s with pieces := l } c q a n = packedBytes s c q a n := by
  have hr : ∀ b, readAt { s with pieces := l } c 5 b = readAt s c 5 b := fun b => readAt_pieces s l c 5 b
  have hp : State.procs { s with pieces := l } = s.procs := rfl
  generalize { s with pieces := l } = t at *
  exact packedBytes_congr hp hr q a n

theorem takeReplay_fst {α : Type} (s : State) (c : Nat) (f : MsgBody → Option α) :
    (takeReplay s c f).map (·.1) = (takeItem f (if isMgmt c then [] else (getDie s (dieOf c)).replay)).map (·.1) :=
  Option.map_map ..

/-- What the data of a copy are does not depend on the script of its pieces. -/
theorem copyData_pieces (s : State) (l : List (Nat × Nat)) (c o x : Nat) (q : CopyCmd) (p a n : Nat) :
    (copyData { s with pieces := l } o x q p fun u => packedBytes u c q a n).2 = (copyData s o x q p fun u => packedBytes u c q a n).2 := by
  rw [copyData_snd, copyData_snd, takeReplay_fst, takeReplay_fst, packedBytes_pieces]
  rfl

/-! ### Where the bytes of a run go (R175, R176, R248) -/

theorem clusterByte_injective (k : Nat) (key : BitVec 32) (view : Bool) : Function.Injective (clusterByte k key view) := by
  intro a b h
  have hh := hashed_injective key (Nat.add_left_cancel h)
  cases view
  · exact hh
  · exact swizzled_injective hh

/-- Two bytes of an on-chip level stand in two places. -/
theorem engineByte_injective (key : BitVec 32) (w c tid : Nat) : Function.Injective (engineByte key w c tid) := by
  unfold engineByte
  split_ifs
  · exact fun a b h => Nat.add_left_cancel h
  · exact tileByte_injective ..
  · exact tileByte_injective ..
  · exact clusterByte_injective ..
  · exact clusterByte_injective ..
  · exact fun a b h => Nat.add_left_cancel h

theorem engineByte_ge (key : BitVec 32) (w c tid b : Nat) : 2 ^ 44 ≤ engineByte key w c tid b := by
  unfold engineByte clusterByte clusterBase sliceBase scratchBase
  split_ifs
  · omega
  · exact tileByte_ge ..
  · exact tileByte_ge ..
  all_goals omega

/-- Copies whose packed bytes go to one run of places of an on-chip level. -/
def movesRun (q : CopyCmd) : Prop := q.kind = .cpin ∨ q.kind = .cpcl ∨ q.kind = .cpsc

/-- Where packed byte `i` of such a copy goes. -/
def movePlace (c : Nat) (q : CopyCmd) (i : Nat) : Nat :=
  if q.kind = .cpsc then scaleBase c + q.dst.toNat % 65536 + i
  else if q.kind = .cpcl then engineByte q.key q.slbase c (refTid q.dst) (refIdx q.dst + i)
  else tileByte c q.key q.view (q.base + q.off + i)

theorem putPlace_of_movesRun {q : CopyCmd} (h : movesRun q) (c : Nat) : putPlace c q = movePlace c q := by
  funext i
  unfold putPlace movePlace
  rcases h with h | h | h <;> rw [h] <;> rfl

theorem movePlace_injective (c : Nat) (q : CopyCmd) : Function.Injective (movePlace c q) := by
  intro a b h
  unfold movePlace at h
  split_ifs at h
  · exact Nat.add_left_cancel h
  · exact Nat.add_left_cancel (engineByte_injective _ _ _ _ h)
  · exact Nat.add_left_cancel (tileByte_injective _ _ _ h)

theorem movePlace_ge (c : Nat) (q : CopyCmd) (i : Nat) : 2 ^ 44 ≤ movePlace c q i := by
  unfold movePlace scaleBase
  split_ifs
  · omega
  · exact engineByte_ge ..
  · exact tileByte_ge ..

theorem mem_zip_places {f : Nat → Nat} {n : Nat} {bs : List Byte} {w : Nat × Byte} :
    w ∈ ((List.range n).map f).zip bs ↔ ∃ i, (i < n ∧ i < bs.length) ∧ w = (f i, bs.getD i 0) := by
  rw [List.mem_iff_getElem]
  constructor
  · rintro ⟨i, hi, rfl⟩
    rw [List.length_zip, List.length_map, List.length_range, Nat.lt_min] at hi
    exact ⟨i, hi, by simp [List.getElem_zip, hi.2]⟩
  · rintro ⟨i, hi, rfl⟩
    exact ⟨i, by rw [List.length_zip, List.length_map, List.length_range]; exact Nat.lt_min.mpr hi, by simp [List.getElem_zip, hi.2]⟩

/-- Cells of an on-chip level, one for each place: every one stands there, and every other byte reads as before. -/
theorem writeDepots_places {s : State} {l : List (Nat × Byte)} {P : Nat → Prop} {place : Nat → Nat} {val : Nat → Byte}
    (hl : ∀ w, w ∈ l ↔ ∃ i, P i ∧ w = (place i, val i)) (hinj : Function.Injective place) (hge : ∀ i, 2 ^ 44 ≤ place i) :
    EngineFrame s (writeDepots s l) ∧ (∀ i, P i → (writeDepots s l).mem.read (place i) = val i) ∧
      ∀ a, (∀ i, P i → a ≠ place i) → Settled s a → (writeDepots s l).mem.read a = s.mem.read a := by
  have hlevel : ∀ w ∈ l, hbmTop ≤ w.1 := fun w hw => by
    obtain ⟨i, -, rfl⟩ := (hl w).mp hw
    exact le_trans (by decide) (hge i)
  refine ⟨writeDepots_frame s hlevel, fun i hi => ?_, fun a ha hs => ?_⟩
  · refine writeDepots_read_of_mem hlevel (inArea_of_onLevel (hge i)) ((hl _).mpr ⟨i, hi, rfl⟩) fun w hw h => ?_
    obtain ⟨j, -, rfl⟩ := (hl w).mp hw
    rw [hinj h]
  · refine (writeDepots_read_of_not_mem hlevel hs fun w hw => ?_).1
    obtain ⟨i, hi, rfl⟩ := (hl w).mp hw
    exact ha i hi

/-! ### A delivery of a CPIN, CPCL or CPSC (R174) -/

theorem deliverData_eq (s : State) (c o x : Nat) (q : CopyCmd) (p : Nat × Nat) (f : State → List Byte) :
    let t := copyData s o x q p.1 f
    let u := writeDepots t.1 ((runPlaces c q p).zip t.2)
    QueueFrame u (deliverData s c o x q p f) ∧ (deliverData s c o x q p f).mem = u.mem := by
  intro t u
  unfold deliverData
  dsimp only
  obtain ⟨hq, hm⟩ := countArrival_frame (if tilePart q p = 0 then u else cmdTile u o x q (arriveTile (tilePart q p))) o x q (countPart q p)
  split_ifs at hq hm ⊢ with hn
  · exact ⟨hq, hm⟩
  · obtain ⟨hq', hm'⟩ := cmdTile_frame u o x q (arriveTile (tilePart q p))
    exact ⟨hq'.trans hq, hm.trans hm'⟩

/-- The bytes of a run stand in their places, and every other byte reads as before. -/
theorem deliverData_moves {s : State} {c o x : Nat} {q : CopyCmd} {p : Nat × Nat} {f : State → List Byte} (hk : movesRun q) :
    let t := deliverData s c o x q p f
    let bs := (copyData s o x q p.1 f).2
    QueueFrame s t ∧ (∀ i, i < p.2 → i < bs.length → t.mem.read (movePlace c q (p.1 + i)) = bs.getD i 0) ∧
      ∀ a, (∀ i, i < p.2 → a ≠ movePlace c q (p.1 + i)) → Settled s a → t.mem.read a = s.mem.read a := by
  intro t bs
  obtain ⟨hdata, hdmem, hwaits⟩ := copyData_frame s o x q p.1 f
  obtain ⟨hrest, hmem⟩ := deliverData_eq s c o x q p f
  have hcells (w : Nat × Byte) : w ∈ (runPlaces c q p).zip bs ↔
      ∃ i, (i < p.2 ∧ i < bs.length) ∧ w = (movePlace c q (p.1 + i), bs.getD i 0) := by
    rw [runPlaces, putPlace_of_movesRun hk]
    exact mem_zip_places
  obtain ⟨hframe, hself, hother⟩ := writeDepots_places (s := (copyData s o x q p.1 f).1) hcells
    (fun i j h => Nat.add_left_cancel (movePlace_injective c q h)) fun i => movePlace_ge c q _
  refine ⟨(hdata.trans hframe).queues.trans hrest, fun i hi hb => ?_, fun a ha hs => ?_⟩
  · rw [hmem]
    exact hself i ⟨hi, hb⟩
  · rw [hmem, ← hdmem]
    exact hother a (fun i hi => ha i hi.1) (hs.imp_right fun h b => (hwaits b).trans (h b))

theorem exec_copyDelivery (s : State) (c x n : Nat) : exec (.copyDelivery c x n) s = .next (copyDelivery s c x n) := rfl

theorem exec_copyComplete (s : State) (c x n : Nat) : exec (.copyComplete c x n) s = .next (copyComplete s n) := rfl

section
variable {s : State} {c x n o y : Nat} {q : CopyCmd} (ho : ownerOf s n = some (o, y)) (hq : findCmd (getAny s o y) n = some q)
include ho hq

theorem copyDelivery_idle (h : q.done = true ∨ q.started = false) : copyDelivery s c x n = s := by
  have hidle : (q.done || !q.started) = true := by rcases h with h | h <;> simp [h]
  simp only [copyDelivery, ho, hq, hidle, if_true]

theorem copyDelivery_broken (hd : q.done = false) (hs : q.started = true) (hb : copyBroken s c q = true) :
    copyDelivery s c x n = stopCopy s o y q (brokenFault q.slot q.pc) := by
  simp only [copyDelivery, ho, hq, hd, hs, hb, Bool.not_true, Bool.or_self, Bool.false_eq_true, if_false, if_true]

theorem copyDelivery_waits (hd : q.done = false) (hs : q.started = true) (hb : copyBroken s c q = false)
    (hw : deliveryWaits s c q (nextPiece s o y q) = true) : copyDelivery s c x n = after s 1 (.copyDelivery c x n) := by
  simp only [copyDelivery, ho, hq, hd, hs, hb, hw, Bool.not_true, Bool.or_self, Bool.false_eq_true, if_false, if_true]

/-- The state after a run of a CPIN, CPCL or CPSC: the command has the rest still due, and its next row falls due. -/
def movedState (s : State) (c x n o y : Nat) (q : CopyCmd) : State :=
  let p := nextPiece s o y q
  let todo := dropPiece q.todo p
  later (putCmd (deliverData { s with pieces := s.pieces.drop 1 } c o y q p fun u => packedBytes u c q p.1 p.2) o y
    { q with todo := todo, done := todo.isEmpty }) (if todo.isEmpty then .copyComplete c x n else .copyDelivery c x n)

theorem copyDelivery_moves (hd : q.done = false) (hs : q.started = true) (hb : copyBroken s c q = false)
    (hw : deliveryWaits s c q (nextPiece s o y q) = false) (hk : movesRun q) : copyDelivery s c x n = movedState s c x n o y q := by
  have hpiece (u : State) (p : Nat × Nat) :
      deliverPiece u c o y q p = some (deliverData u c o y q p fun u => packedBytes u c q p.1 p.2) := by
    unfold deliverPiece
    rcases hk with h | h | h <;> rw [h]
  have hout : q.kind ≠ .cpout := by rcases hk with h | h | h <;> rw [h] <;> decide
  simp only [copyDelivery, ho, hq, hd, hs, hb, hw, hpiece, hout, Bool.not_true, Bool.or_self, Bool.false_eq_true, if_false, and_false, movedState]
  split_ifs <;> rfl

theorem copyComplete_runs (hd : q.done = false) : copyComplete s n = s := by
  simp only [copyComplete, ho, hq, hd, Bool.not_false, if_true]

theorem copyComplete_done (hd : q.done = true) : copyComplete s n = setAny s o y { getAny s o y with
    copyq := (getAny s o y).copyq.filter fun r => r.id != n
    reserved := (getAny s o y).reserved.filter fun r => r.2.2 != n } := by
  simp only [copyComplete, ho, hq, hd, Bool.not_true, Bool.false_eq_true, if_false]

end

/-- What stands after a run of a CPIN, CPCL or CPSC. -/
theorem movedState_reads {s : State} {c x n o y : Nat} {q : CopyCmd} (hq : findCmd (getAny s o y) n = some q) (hk : movesRun q) :
    let p := nextPiece s o y q
    let bs := (copyData s o y q p.1 fun u => packedBytes u c q p.1 p.2).2
    let left := dropPiece q.todo p
    let t := movedState s c x n o y q
    (∀ i, i < p.2 → i < bs.length → t.mem.read (movePlace c q (p.1 + i)) = bs.getD i 0) ∧
    (∀ a, (∀ i, i < p.2 → a ≠ movePlace c q (p.1 + i)) → Settled s a → t.mem.read a = s.mem.read a) ∧
    findCmd (getAny t o y) n = some { q with todo := left, done := left.isEmpty } ∧
    t.timers = s.timers ++ [(s.now + nextDelay s, if left.isEmpty then .copyComplete c x n else .copyDelivery c x n)] ∧
    t.pieces = s.pieces.drop 1 ∧ t.pairs = s.pairs ∧ t.host = s.host ∧ t.clusters = s.clusters := by
  intro p bs left t
  obtain ⟨hframe, hself, hother⟩ := deliverData_moves (s := { s with pieces := s.pieces.drop 1 }) (c := c) (o := o) (x := y) (p := p)
    (f := fun u => packedBytes u c q p.1 p.2) hk
  rw [copyData_pieces] at hself
  obtain ⟨u, hu⟩ : ∃ u, deliverData { s with pieces := s.pieces.drop 1 } c o y q p (fun u => packedBytes u c q p.1 p.2) = u := ⟨_, rfl⟩
  rw [hu] at hframe hself hother
  obtain ⟨v, hv⟩ : ∃ v, putCmd u o y { q with todo := left, done := left.isEmpty } = v := ⟨_, rfl⟩
  have ht : t = later v (if left.isEmpty then .copyComplete c x n else .copyDelivery c x n) := by rw [← hv, ← hu]; rfl
  have hmem : v.mem = u.mem := hv ▸ putCmd_mem ..
  have hpack : { v with mem := s.mem, dies := s.dies, links := s.links, cores := s.cores, serai := s.serai } =
      { s with pieces := s.pieces.drop 1 } := by
    rw [← hv]
    exact (congrArg (fun w : State => { w with mem := s.mem, dies := s.dies, links := s.links, cores := s.cores, serai := s.serai })
      (putCmd_package u o y _)).trans hframe.package
  have hfind : findCmd (getAny u o y) n = some q := by rw [findCmd, hframe.queue]; exact hq
  have hdelay : nextDelay v = nextDelay s := (congrArg nextDelay hpack :)
  rw [ht]
  have hread (a : Nat) : v.mem.read a = u.mem.read a := by rw [hmem]
  refine ⟨fun i hi hb => (hread _).trans (hself i hi hb), fun a ha hs => (hread a).trans (hother a ha hs), ?_, ?_,
    (congrArg State.pieces hpack :), (congrArg State.pairs hpack :), (congrArg State.host hpack :), (congrArg State.clusters hpack :)⟩
  · rw [← hv]
    exact findCmd_putCmd hfind (show q.id = n from id_of_findCmd hq)
  · rw [← hdelay, ← show v.timers = s.timers from (congrArg State.timers hpack :), ← show v.now = s.now from (congrArg State.now hpack :)]
    rfl

/-! ### The run that comes next (R174, R295) -/

/-- The byte is one of those still due. -/
def isDue (l : List (Nat × Nat)) (i : Nat) : Prop := ∃ r ∈ l, r.1 ≤ i ∧ i < r.1 + r.2

/-- A run that is cut from byte `a` on, before byte `e` and the end of its row, to at most `m` bytes. -/
def cutRun (wide a e m : Nat) : Nat × Nat := (a, Nat.min (e - a) (Nat.min (wide - a % wide) (if m = 0 then wide else m)))

/-- The run that the script asks for lies in one of the runs still due. -/
theorem pieceOf_eq {wide : Nat} {l : List (Nat × Nat)} (w : Nat × Nat) (hne : l ≠ []) (hpos : ∀ r ∈ l, 0 < r.2) :
    ∃ r ∈ l, ∃ a, r.1 ≤ a ∧ a < r.1 + r.2 ∧ pieceOf wide l w = cutRun wide a (r.1 + r.2) w.2 := by
  unfold pieceOf
  dsimp only
  split
  case h_1 r hr =>
    have hin := List.find?_some hr
    simp only [Bool.and_eq_true, decide_eq_true_eq] at hin
    exact ⟨r, List.mem_of_find?_eq_some hr, w.1, hin.1, hin.2, rfl⟩
  case h_2 =>
    cases l with
    | nil => exact absurd rfl hne
    | cons r l => exact ⟨r, List.mem_cons_self, r.1, le_rfl, Nat.lt_add_of_pos_right (hpos r List.mem_cons_self), rfl⟩

/-- A cut run is not empty, and ends no later than its row and its run. -/
theorem cutRun_bounds {wide a e m : Nat} (hwide : 0 < wide) (ha : a < e) :
    0 < (cutRun wide a e m).2 ∧ a % wide + (cutRun wide a e m).2 ≤ wide ∧ a + (cutRun wide a e m).2 ≤ e := by
  have hrow := Nat.mod_lt a hwide
  have hmin : (cutRun wide a e m).2 = min (e - a) (min (wide - a % wide) (if m = 0 then wide else m)) := rfl
  have hm : 0 < if m = 0 then wide else m := by split_ifs <;> omega
  omega

/-- Every byte still due can come next, alone. -/
theorem pieceOf_single {wide : Nat} {l : List (Nat × Nat)} {i : Nat} (hwide : 0 < wide) (hi : isDue l i) : pieceOf wide l (i, 1) = (i, 1) := by
  have hrow := Nat.mod_lt i hwide
  obtain ⟨r, hr, hlo, hhi⟩ := hi
  unfold pieceOf
  dsimp only
  split
  case h_1 q hq =>
    have hin := List.find?_some hq
    simp only [Bool.and_eq_true, decide_eq_true_eq] at hin
    have hmin : Nat.min (q.1 + q.2 - i) (Nat.min (wide - i % wide) (if 1 = 0 then wide else 1)) = 1 := by
      show min _ (min _ 1) = 1
      omega
    rw [hmin]
  case h_2 hnone =>
    have hno := List.find?_eq_none.mp hnone r hr
    simp [hlo, hhi] at hno

/-- What is left of a run when a piece within it has come. -/
theorem isDue_rest {r p : Nat × Nat} (hlo : r.1 ≤ p.1) (hhi : p.1 + p.2 ≤ r.1 + r.2) (i : Nat) :
    isDue ([(r.1, p.1 - r.1), (p.1 + p.2, r.1 + r.2 - (p.1 + p.2))].filter fun t => decide (0 < t.2)) i ↔
      (r.1 ≤ i ∧ i < r.1 + r.2) ∧ ¬ (p.1 ≤ i ∧ i < p.1 + p.2) := by
  simp only [isDue, List.mem_filter, List.mem_cons, List.not_mem_nil, or_false, decide_eq_true_eq]
  constructor
  · rintro ⟨t, ⟨rfl | rfl, -⟩, h⟩ <;> dsimp only at h <;> omega
  · rintro ⟨hin, hout⟩
    by_cases hi : i < p.1
    · exact ⟨_, ⟨Or.inl rfl, by dsimp only; omega⟩, by dsimp only; omega⟩
    · exact ⟨_, ⟨Or.inr rfl, by dsimp only; omega⟩, by dsimp only; omega⟩

theorem apart_of_pairwise {l : List (Nat × Nat)} (hl : l.Pairwise fun a b => a.1 + a.2 ≤ b.1) {r t : Nat × Nat} (hr : r ∈ l) (ht : t ∈ l)
    (hne : t ≠ r) : t.1 + t.2 ≤ r.1 ∨ r.1 + r.2 ≤ t.1 := by
  have hsymm : Std.Symm fun a b : Nat × Nat => a.1 + a.2 ≤ b.1 ∨ b.1 + b.2 ≤ a.1 := ⟨fun _ _ h => h.symm⟩
  exact List.Pairwise.forall (R := fun a b => a.1 + a.2 ≤ b.1 ∨ b.1 + b.2 ≤ a.1) (hl.imp fun h => Or.inl h) ht hr hne

/-- A run that has come is due no longer, while every other byte is. -/
theorem isDue_dropPiece {l : List (Nat × Nat)} {r p : Nat × Nat} (hl : l.Pairwise fun a b => a.1 + a.2 ≤ b.1) (hr : r ∈ l)
    (hlo : r.1 ≤ p.1) (hin : p.1 < r.1 + r.2) (hhi : p.1 + p.2 ≤ r.1 + r.2) (i : Nat) :
    isDue (dropPiece l p) i ↔ isDue l i ∧ ¬ (p.1 ≤ i ∧ i < p.1 + p.2) := by
  have hrun : ∀ t ∈ l, isDue (if t.1 ≤ p.1 ∧ p.1 < t.1 + t.2 then
      [(t.1, p.1 - t.1), (p.1 + p.2, t.1 + t.2 - (p.1 + p.2))].filter fun u => decide (0 < u.2) else [t]) i ↔
      (t.1 ≤ i ∧ i < t.1 + t.2) ∧ ¬ (p.1 ≤ i ∧ i < p.1 + p.2) := by
    intro t ht
    by_cases htr : t = r
    · rw [htr, if_pos ⟨hlo, hin⟩]
      exact isDue_rest hlo hhi i
    · have hapart := apart_of_pairwise hl hr ht htr
      rw [if_neg (by omega)]
      simp only [isDue, List.mem_singleton, exists_eq_left]
      omega
  calc isDue (dropPiece l p) i ↔ ∃ t ∈ l, isDue (if t.1 ≤ p.1 ∧ p.1 < t.1 + t.2 then
        [(t.1, p.1 - t.1), (p.1 + p.2, t.1 + t.2 - (p.1 + p.2))].filter fun u => decide (0 < u.2) else [t]) i := by
          simp only [isDue, dropPiece, List.mem_flatMap]
          constructor
          · rintro ⟨u, ⟨t, ht, hu⟩, hi⟩
            exact ⟨t, ht, u, hu, hi⟩
          · rintro ⟨t, ht, u, hu, hi⟩
            exact ⟨u, ⟨t, ht, hu⟩, hi⟩
    _ ↔ ∃ t ∈ l, (t.1 ≤ i ∧ i < t.1 + t.2) ∧ ¬ (p.1 ≤ i ∧ i < p.1 + p.2) :=
        exists_congr fun t => and_congr_right fun ht => hrun t ht
    _ ↔ isDue l i ∧ ¬ (p.1 ≤ i ∧ i < p.1 + p.2) := by simp only [isDue, ← and_assoc, exists_and_right]

/-! ### Relays (R177, R329, R339) -/

theorem exec_relayDelivery (s : State) (c x n i : Nat) : exec (.relayDelivery c x n i) s = .next (relayDelivery s c x n i) := rfl

theorem exec_relayHoldTimeout (s : State) (c x n : Nat) : exec (.relayHoldTimeout c x n) s = .next (relayTimeout s c n) := rfl

/-- A relay that waits for an empty tile on core `k` notes since when it is held. -/
def heldCmd (s : State) (c k : Nat) (q : CopyCmd) : CopyCmd :=
  if (findCell k q.held).isSome then q else { q with held := q.held ++ [(k, cyclesOf s c)] }

theorem findCell_append_self {α : Type} (k : Nat) (v : α) (l : List (Nat × α)) : (findCell k (l ++ [(k, v)])).isSome = true := by
  induction l with
  | nil => simp [findCell]
  | cons e r ih =>
    obtain ⟨j, w⟩ := e
    simp only [List.cons_append, findCell]
    split_ifs
    · rfl
    · exact ih

theorem heldCmd_held (s : State) (c k : Nat) (q : CopyCmd) :
    (findCell k (heldCmd s c k q).held).isSome = true ∧ (heldCmd s c k q).served = q.served ∧ (heldCmd s c k q).id = q.id := by
  unfold heldCmd
  split_ifs with h
  · exact ⟨h, rfl, rfl⟩
  · exact ⟨findCell_append_self .., rfl, rfl⟩

/-- A relay that has served core `k`. -/
def servedCmd (c k : Nat) (q : CopyCmd) : CopyCmd :=
  let served := q.served ++ [k]
  { q with
    served := served
    held := q.held.filter fun h => h.1 != k
    done := ((List.range 8).filter fun n => (dMask q.desc).testBit n).all fun n => served.contains (c / 8 * 8 + n) }

/-- Must a relay's delivery wait: its messages cannot pass now, or its core's engine is frozen by it? -/
def relayWaits (s : State) (c : Nat) (q : CopyCmd) : Bool :=
  !homesPass s c (copyHomes s q) || ((getCore s c).engineFrozen && relayExpired s c q)

section
variable {s : State} {c x n i o y : Nat} {q : CopyCmd} (ho : ownerOf s n = some (o, y)) (hq : findCmd (getAny s o y) n = some q)
include ho hq

theorem relayDelivery_idle (h : q.served.contains (c / 8 * 8 + i) = true ∨ q.started = false) : relayDelivery s c x n i = s := by
  have hidle : (q.served.contains (c / 8 * 8 + i) || !q.started) = true := by
    rcases h with h | h <;> simp only [h, Bool.true_or, Bool.not_false, Bool.or_true]
  simp only [relayDelivery, ho, hq, hidle, if_true]

theorem relayDelivery_broken (hgo : (q.served.contains (c / 8 * 8 + i) || !q.started) = false) (hb : copyBroken s c q = true) :
    relayDelivery s c x n i = stopCopy s o y q (brokenFault q.slot q.pc) := by
  simp only [relayDelivery, ho, hq, hgo, hb, Bool.false_eq_true, if_false, if_true]

theorem relayDelivery_waits (hgo : (q.served.contains (c / 8 * 8 + i) || !q.started) = false) (hb : copyBroken s c q = false)
    (hw : relayWaits s c q = true) : relayDelivery s c x n i = after s 1 (.relayDelivery c x n i) := by
  unfold relayWaits at hw
  simp only [relayDelivery, ho, hq, hgo, hb, hw, Bool.false_eq_true, if_false, if_true]

theorem relayDelivery_held (hgo : (q.served.contains (c / 8 * 8 + i) || !q.started) = false) (hb : copyBroken s c q = false)
    (hw : relayWaits s c q = false)
    (ht : relayTile s (c / 8 * 8 + i) q = none ∨ ∃ r, relayTile s (c / 8 * 8 + i) q = some r ∧ r.2.2.st ≠ .empty) :
    relayDelivery s c x n i = after (putCmd s o y (heldCmd s c (c / 8 * 8 + i) q)) 1 (.relayDelivery c x n i) := by
  unfold relayWaits at hw
  rcases ht with ht | ⟨r, ht, hr⟩
  · simp only [relayDelivery, ho, hq, hgo, hb, hw, ht, Bool.false_eq_true, if_false]
    rfl
  · simp only [relayDelivery, ho, hq, hgo, hb, hw, ht, hr, Bool.false_eq_true, if_false, ne_eq, not_false_eq_true, if_true]
    rfl

theorem relayDelivery_delivers {r : Nat × Nat × Tile} (hgo : (q.served.contains (c / 8 * 8 + i) || !q.started) = false)
    (hb : copyBroken s c q = false) (hw : relayWaits s c q = false) (ht : relayTile s (c / 8 * 8 + i) q = some r) (hr : r.2.2.st = .empty) :
    relayDelivery s c x n i =
      let u := putCmd (deliverRelay s c (c / 8 * 8 + i) o y q r) o y (servedCmd c (c / 8 * 8 + i) q)
      if (servedCmd c (c / 8 * 8 + i) q).done then later u (.copyComplete c x n) else u := by
  unfold relayWaits at hw
  simp only [relayDelivery, ho, hq, hgo, hb, hw, ht, hr, Bool.false_eq_true, if_false, ne_eq, not_true_eq_false]
  rfl

theorem relayTimeout_idle (h : (getCore s c).engineFrozen = true ∨ relayExpired s c q = false) : relayTimeout s c n = s := by
  have hidle : ((getCore s c).engineFrozen || !relayExpired s c q) = true := by
    rcases h with h | h <;> simp only [h, Bool.true_or, Bool.not_false, Bool.or_true]
  simp only [relayTimeout, ho, hq, hidle, if_true]

theorem relayTimeout_freezes (hf : (getCore s c).engineFrozen = false) (he : relayExpired s c q = true) : relayTimeout s c n =
    event (setCore s c { getCore s c with engineFrozen := true }) 0x02 [BitVec.ofNat 64 (2 ^ 47 + c % 2048 * 2 ^ 32)] := by
  simp only [relayTimeout, ho, hq, hf, he, Bool.not_true, Bool.or_self, Bool.false_eq_true, if_false]

end

/-- The bytes of a relay stand in the receiving tile, and every other byte reads as before. -/
theorem deliverRelay_reads (s : State) (c k o y : Nat) (q : CopyCmd) (r : Nat × Nat × Tile) :
    let t := deliverRelay s c k o y q r
    let bs := (copyData s o y q k fun u => packedBytes u c q 0 (q.rows * q.wide)).2
    let place := fun j => tileByte k ((getCtx s k r.1).live.bankkey.setWidth 32) r.2.2.view (r.2.2.base + 0 + j)
    QueueFrame s t ∧ (∀ j, j < bs.length → t.mem.read (place j) = bs.getD j 0) ∧
      ∀ a, (∀ j, j < bs.length → a ≠ place j) → Settled s a → t.mem.read a = s.mem.read a := by
  intro t bs place
  obtain ⟨hdata, hdmem, hwaits⟩ := copyData_frame s o y q k fun u => packedBytes u c q 0 (q.rows * q.wide)
  have hcells (w : Nat × Byte) : w ∈ tileCells k ((getCtx s k r.1).live.bankkey.setWidth 32) r.2.2.view r.2.2.base 0 bs ↔
      ∃ j, j < bs.length ∧ w = (place j, bs.getD j 0) := by
    simp only [tileCells, List.mem_map, List.mem_range, eq_comm]
    rfl
  obtain ⟨hframe, hself, hother⟩ :=
    writeDepots_places (s := (copyData s o y q k fun u => packedBytes u c q 0 (q.rows * q.wide)).1) hcells
      (fun i j h => Nat.add_left_cancel (tileByte_injective _ _ _ h)) fun j => tileByte_ge ..
  obtain ⟨u, hu⟩ : ∃ u, writeDepots (copyData s o y q k fun u => packedBytes u c q 0 (q.rows * q.wide)).1
    (tileCells k ((getCtx s k r.1).live.bankkey.setWidth 32) r.2.2.view r.2.2.base 0 bs) = u := ⟨_, rfl⟩
  rw [hu] at hframe hself hother
  have ht : ∃ v, t = setCtx u k r.1 v ∧ v.copyq = (getCtx u k r.1).copyq := by
    rw [← hu]
    exact ⟨_, rfl, rfl⟩
  obtain ⟨v, ht, hv⟩ := ht
  rw [ht]
  exact ⟨(hdata.trans hframe).queues.trans (setCtx_queues hv), hself,
    fun a ha hs => (hother a ha (hs.imp_right fun h b => (hwaits b).trans (h b))).trans (congrArg (·.read a) hdmem)⟩

/-- Settles O31: each delivery is the equation of its case, and its bytes are those of `writeDepots`, one place for each. -/
theorem copiesDeliver : Obligations.CopiesDeliver := by
  unfold Obligations.CopiesDeliver
  refine ⟨fun s c x n o y q ho hq => ⟨fun h => ?idle, fun ⟨hd, hs⟩ hb => ?broken, fun ⟨hd, hs⟩ hb hw => ?waits,
      fun ⟨hd, hs⟩ hb hw hk => ?moves, fun hr => ?data, fun hd => ?running, fun hd => ?complete⟩,
    fun s o x q hwide => ⟨fun hr => ?script, fun w hne hpos => ?within, fun i hi => ?single, fun r p hl hr hlo hin hhi i => ?left⟩,
    fun s c x n i o y q ho hq => ⟨fun h => ?served, fun hv hs hb => ?relayBroken, fun hv hs hb hw => ?relayWaits, fun hv hs hb hw ht => ?held,
      fun r hv hs hb hw ht hr => ?delivers, fun hr => ?relayData, fun h => ?short, fun hf he => ?freezes⟩⟩
  case idle => rw [exec_copyDelivery, copyDelivery_idle ho hq h]
  case broken =>
    rw [exec_copyDelivery, copyDelivery_broken ho hq hd hs hb]
    rfl
  case waits =>
    rw [exec_copyDelivery, copyDelivery_waits ho hq hd hs hb hw]
    rfl
  case moves =>
    rw [exec_copyDelivery, copyDelivery_moves ho hq hd hs hb hw hk]
    exact ⟨_, rfl, movedState_reads hq hk⟩
  case data => exact copyData_of_no_replay _ hr
  case running => rw [exec_copyComplete, copyComplete_runs ho hq hd]
  case complete => rw [exec_copyComplete, copyComplete_done ho hq hd]
  case script =>
    unfold nextPiece
    rw [hr]
  case within =>
    obtain ⟨r, hr, a, hlo, hhi, ha⟩ := pieceOf_eq (wide := q.wide) w hne hpos
    obtain ⟨hpos, hrow, hend⟩ := cutRun_bounds (m := w.2) hwide hhi
    dsimp only
    rw [ha]
    exact ⟨hpos, hrow, r, hr, hlo, hend⟩
  case single => exact pieceOf_single hwide hi
  case left => exact isDue_dropPiece hl hr hlo hin hhi i
  case served => rw [exec_relayDelivery, relayDelivery_idle ho hq h]
  case relayBroken =>
    rw [exec_relayDelivery, relayDelivery_broken ho hq (by rw [hv, hs]; rfl) hb]
    rfl
  case relayWaits =>
    rw [exec_relayDelivery, relayDelivery_waits ho hq (by rw [hv, hs]; rfl) hb hw]
    rfl
  case held =>
    obtain ⟨hheld, hserved, hid⟩ := heldCmd_held s c (c / 8 * 8 + i) q
    have hfind := findCmd_putCmd hq (hid.trans (id_of_findCmd hq))
    have hpack := putCmd_package s o y (heldCmd s c (c / 8 * 8 + i) q)
    rw [exec_relayDelivery, relayDelivery_held ho hq (by rw [hv, hs]; rfl) hb hw ht]
    generalize putCmd s o y (heldCmd s c (c / 8 * 8 + i) q) = v at hfind hpack ⊢
    refine ⟨_, heldCmd s c (c / 8 * 8 + i) q, rfl, (congrArg State.mem hpack :), hfind, hheld, hserved, ?_⟩
    rw [← show v.timers = s.timers from (congrArg State.timers hpack :), ← show v.now = s.now from (congrArg State.now hpack :)]
    rfl
  case delivers =>
    obtain ⟨hframe, hself, hother⟩ := deliverRelay_reads s c (c / 8 * 8 + i) o y q r
    rw [exec_relayDelivery, relayDelivery_delivers ho hq (by rw [hv, hs]; rfl) hb hw ht hr]
    generalize deliverRelay s c (c / 8 * 8 + i) o y q r = u at hframe hself hother ⊢
    have hfind := findCmd_putCmd (q' := servedCmd c (c / 8 * 8 + i) q) (by rw [findCmd, hframe.queue]; exact hq) (id_of_findCmd hq :)
    have hpack := putCmd_package u o y (servedCmd c (c / 8 * 8 + i) q)
    rw [← show (putCmd u o y (servedCmd c (c / 8 * 8 + i) q)).mem = u.mem from putCmd_mem ..] at hself hother
    generalize putCmd u o y (servedCmd c (c / 8 * 8 + i) q) = v at hfind hpack hself hother ⊢
    have hpairs : v.pairs = s.pairs := (congrArg State.pairs hpack :).trans (congrArg State.pairs hframe.package :)
    have hhost : v.host = s.host := (congrArg State.host hpack :).trans (congrArg State.host hframe.package :)
    dsimp only
    split_ifs <;> exact ⟨_, servedCmd c (c / 8 * 8 + i) q, rfl, hself, hother, hfind, rfl, hpairs, hhost⟩
  case relayData => exact copyData_of_no_replay _ hr
  case short => rw [exec_relayHoldTimeout, relayTimeout_idle ho hq h]
  case freezes =>
    rw [exec_relayHoldTimeout, relayTimeout_freezes ho hq hf he]
    exact ⟨_, rfl, rfl, rfl, rfl⟩

end Sys2Proof.Machine
end

section
/-! SUPPORT. Proofs about publications (R179). -/

namespace Sys2Proof.Machine

/-! ### A published byte that memory lists twice

A list of byte cells may name one byte more than once where it is not in its canonical form (`Memory.wf`): it reads as its first cell. The
copy of a frame writes the cells one after the other, so that the byte's last cell stands in the frame that takes the tile. -/

/-- One tile of one tensor, its entry at byte 0. -/
def twiceLayout : Layout := { scale := 0, ro := false, elem := 0, rank := 0, dims := [], tiles := [], ttab := 0, ntile := 1 }

/-- A staging frame of the tile into which its CPOUT has written no byte. -/
def twiceFrame : OutFrame := { key := 0, frame := 65536, cmd := 0, seq := 0, spans := [] }

def twicePubl : Publication := { tid := 0, seq := 1 }

def twiceCtx : Ctx := { Ctx.reset with pubq := [twicePubl], outFrames := [twiceFrame] }

/-- The tile is published in the frame at 131,072, whose first byte has the cells 1 and 2. -/
def twiceListed : State :=
  setCtx { setProc State.reset Ctx.reset.pid { Proc.reset with tensors := Tab.empty.set 0 twiceLayout } with
    mem := ⟨[(2, 2), (7, 64), (131072, 1), (131072, 2)]⟩ } 0 0 twiceCtx

theorem exec_publSwap (s : State) (c x : Nat) : exec (.publSwap c x) s = .next (publSwap s c x) := rfl

/-- Refutes O32: the statement does not ask for memory in its canonical form. In `twiceListed` the published byte reads 1, no command has
written it, and after the swap the tile's new frame holds 2. -/
theorem not_publicationsSwap : ¬ Obligations.PublicationsSwap := by
  unfold Obligations.PublicationsSwap
  intro h
  obtain ⟨-, -, hswap⟩ := h twiceListed 0 0 (by decide)
  obtain ⟨t, ht, -, -, -, -, -, -, -, hread⟩ := hswap twicePubl twiceLayout (by decide +kernel) (by decide +kernel) (by decide +kernel)
  obtain ⟨-, hframes⟩ := hread (by decide +kernel)
  obtain ⟨-, hbytes⟩ := hframes twiceFrame (by decide +kernel) (by decide +kernel)
  have hclean : ∀ d ln q, (getDie twiceListed d).l2.find ln = some q → q.dirty = 0 := fun _ _ _ hq => nomatch hq
  obtain rfl : publSwap twiceListed 0 0 = t := by simpa only [exec_publSwap, Host.Outcome.next.injEq] using ht
  exact absurd (hbytes hclean 0 (by omega)) (by decide +kernel)

end Sys2Proof.Machine
end

section
/-! SUPPORT. Proofs about monitors, naps and page requests, as events (R191 to R193). -/

namespace Sys2Proof.Machine

/-! ### Monitors and naps (R191, R193) -/

/-- The state in which the log of a context's die keeps the code that MNAP gives (R348). -/
def codeLogged (s : State) (c x code : Nat) : State :=
  if keepsLog s (coreEnd c) then
    setDie s (coreEnd c) { getDie s (coreEnd c) with
      log := (getDie s (coreEnd c)).log ++
        [⟨coreEnd c, 0, .answer (getCtx s c x).run ((getCtx s c x).nload - 1) (BitVec.ofNat 64 code)⟩] }
  else s

/-- A context whose sleep has ended with a code: register `d` and its waypoint image hold it, and the monitor is disarmed. -/
def wokenCtx (k : Ctx) (d code : Nat) : Ctx := { k with
  live := if d = 0 then k.live else { k.live with g := k.live.g.set d (BitVec.ofNat 64 code) }
  wp := if d = 0 then k.wp else { k.wp with g := k.wp.g.set d (BitVec.ofNat 64 code) }
  nap := none, block := .no, mon := ⟨[], .disarmed, false⟩ }

theorem getCtx_codeLogged (s : State) (c x code : Nat) : getCtx (codeLogged s c x code) c x = getCtx s c x := by
  unfold codeLogged
  split <;> rfl

theorem napEnds_eq (s : State) (c x d code : Nat) : napEnds s c x d code =
    setCtx (codeLogged s c x code) c x (wokenCtx (getCtx s c x) d code) := by
  have h : napEnds s c x d code = setCtx (codeLogged s c x code) c x (wokenCtx (getCtx (codeLogged s c x code) c x) d code) := rfl
  rw [h, getCtx_codeLogged]

theorem exec_monitorArmEstablished (s : State) (c x : Nat) : exec (.monitorArmEstablished c x) s = .next (armEstablished s c x) := rfl

theorem exec_mnapWake (s : State) (c x : Nat) : exec (.mnapWake c x) s = .next (mnapWake s c x) := rfl

theorem exec_mnapTimeout (s : State) (c x : Nat) : exec (.mnapTimeout c x) s = .next (mnapTimeout s c x) := rfl

theorem armEstablished_of_lt (s : State) (c : Nat) {x : Nat} (hx : x < 4) : armEstablished s c x = setCtx s c x { getCtx s c x with
    mon := { (getCtx s c x).mon with established := (getCtx s c x).mon.st == .armed } } := by
  rw [armEstablished, setAny_of_lt s c _ hx, getAny_of_lt s c hx]

section
variable {s : State} {c x d : Nat} (hd : (getCtx s c x).nap = some d)
include hd

theorem mnapWake_fired (hm : (getCtx s c x).mon.st = .fired) : mnapWake s c x = napEnds s c x d 0 := by simp only [mnapWake, hd, hm]

theorem mnapWake_disarmed (hm : (getCtx s c x).mon.st = .disarmed) : mnapWake s c x = napEnds s c x d 2 := by
  simp only [mnapWake, hd, hm]

theorem mnapTimeout_passed (hm : (getCtx s c x).mon.st = .armed) (he : (getCtx s c x).napEnd ≤ s.now) :
    mnapTimeout s c x = napEnds s c x d 1 := by
  simp only [mnapTimeout, hd, if_pos (And.intro hm he)]

theorem mnapTimeout_waits (h : (getCtx s c x).mon.st ≠ .armed ∨ s.now < (getCtx s c x).napEnd) : mnapTimeout s c x = s := by
  have h' : ¬ ((getCtx s c x).mon.st = .armed ∧ (getCtx s c x).napEnd ≤ s.now) := fun ⟨hm, he⟩ => h.elim (· hm) he.not_gt
  simp only [mnapTimeout, hd, if_neg h']

end

theorem mnapWake_armed {s : State} {c x : Nat} (hm : (getCtx s c x).mon.st = .armed) : mnapWake s c x = s := by
  cases hd : (getCtx s c x).nap <;> simp only [mnapWake, hd, hm]

theorem mnapWake_awake {s : State} {c x : Nat} (h : (getCtx s c x).nap = none) : mnapWake s c x = s := by simp only [mnapWake, h]

theorem mnapTimeout_awake {s : State} {c x : Nat} (h : (getCtx s c x).nap = none) : mnapTimeout s c x = s := by simp only [mnapTimeout, h]

/-- Settles O27, by the state of the monitor of a context that sleeps. -/
theorem monitorsAndNaps : Obligations.MonitorsAndNaps := by
  unfold Obligations.MonitorsAndNaps
  intro s c x hx
  refine ⟨?_, fun d hd => ⟨fun hm => ?_, fun hm => ?_, fun hm => ?_, fun hm he => ?_, fun h => ?_⟩, fun h => ⟨?_, ?_⟩⟩
  · rw [exec_monitorArmEstablished, armEstablished_of_lt s c hx]
  · rw [exec_mnapWake, mnapWake_fired hd hm, napEnds_eq]; rfl
  · rw [exec_mnapWake, mnapWake_disarmed hd hm, napEnds_eq]; rfl
  · rw [exec_mnapWake, mnapWake_armed hm]
  · rw [exec_mnapTimeout, mnapTimeout_passed hd hm he, napEnds_eq]; rfl
  · rw [exec_mnapTimeout, mnapTimeout_waits hd h]
  · rw [exec_mnapWake, mnapWake_awake h]
  · rw [exec_mnapTimeout, mnapTimeout_awake h]

end Sys2Proof.Machine
end

section
/-! SUPPORT. Proofs about what the Serai keeps as it writes memory, makes indices ready and applies signals (R117, R198, R221, R250). -/

namespace Sys2Proof.Machine

/-! ### What a write at a depot or a write-back keeps (R236, R249, R250) -/

theorem dropClean_frame (s : State) (a : Nat) : EngineFrame s (dropClean s a) := .of_cores rfl rfl

theorem writeStack_frame (s : State) (a : Nat) (v : Byte) : EngineFrame s (writeStack s a v) :=
  ((setMem_frame ..).trans (dropClean_frame ..)).trans (fireMonitors_frame ..)

theorem writeBackBytes_frame (s : State) (base : Nat) (l : Line) (n : Nat) : EngineFrame s (writeBackBytes s base l n) := by
  induction n with
  | zero => exact .refl s
  | succ n ih =>
    rw [writeBackBytes]
    split
    · exact ih.trans (writeStack_frame ..)
    · exact ih

theorem writeBackLine_frame (s : State) (d ln : Nat) : EngineFrame s (writeBackLine s d ln) := by
  unfold writeBackLine
  split
  · exact .refl s
  · refine EngineFrame.trans ?_ (setDie_frame ..)
    split_ifs
    · exact writeBackBytes_frame ..
    · exact (carryTo_frame ..).trans (writeBackBytes_frame ..)

theorem writeBackLines_frame (s : State) (d : Nat) (l : List Nat) : EngineFrame s (writeBackLines s d l) := by
  induction l generalizing s with
  | nil => exact .refl s
  | cons ln r ih => exact (writeBackLine_frame s d ln).trans (ih _)

theorem writeBackAll_frame (s : State) (d : Nat) : EngineFrame s (writeBackAll s d) := writeBackLines_frame ..

theorem toPackage_frame (s : State) (c : Nat) : EngineFrame s (toPackage s c) := by
  unfold toPackage
  split
  · exact .refl s
  · exact writeBackAll_frame ..

/-! ### What becoming ready changes (R221, R224, R361, R375) -/

/-- An index but for its readiness. -/
def Index.beforeReady (ix : Index) : Index := { ix with isReady := false }

/-- A task but for its place in the ready order. -/
def Task.unqueued (t : Task) : Task := { t with st := .waiting, stack := 0, cluster := 0, order := 0, since := 0 }

/-- `t` is `s` but for the dies' WAKEREQ bits, the readiness of indices and the queues of tasks; an index that was ready stands as it was. -/
structure ReadyFrame (s t : State) : Prop where
  package : { t with dies := s.dies, serai := s.serai } = s
  serai : { t.serai with indices := s.serai.indices, tasks := s.serai.tasks, order := s.serai.order } = s.serai
  index : ∀ k, (getIndex t k).map Index.beforeReady = (getIndex s k).map Index.beforeReady
  ready : ∀ k ix, getIndex s k = some ix → ix.isReady = true → getIndex t k = some ix
  task : ∀ e, (getTask t e).map Task.unqueued = (getTask s e).map Task.unqueued

theorem ReadyFrame.refl (s : State) : ReadyFrame s s := ⟨rfl, rfl, fun _ => rfl, fun _ _ h _ => h, fun _ => rfl⟩

theorem ReadyFrame.trans {s t u : State} (h : ReadyFrame s t) (h' : ReadyFrame t u) : ReadyFrame s u where
  package := (congrArg (fun v : State => { v with dies := s.dies, serai := s.serai }) h'.package).trans h.package
  serai := (congrArg (fun v : Serai => { v with indices := s.serai.indices, tasks := s.serai.tasks, order := s.serai.order }) h'.serai).trans h.serai
  index k := (h'.index k).trans (h.index k)
  ready k ix hk hr := h'.ready k ix (h.ready k ix hk hr) hr
  task e := (h'.task e).trans (h.task e)

/-- A state with the same indices and tasks. -/
theorem ReadyFrame.of_tables {s t : State} (h : { t with dies := s.dies, serai := s.serai } = s)
    (hs : { t.serai with order := s.serai.order } = s.serai) : ReadyFrame s t where
  package := h
  serai := (congrArg (fun v : Serai => { v with indices := s.serai.indices, tasks := s.serai.tasks }) hs :)
  index k := by rw [getIndex, getIndex, (congrArg Serai.indices hs :)]
  ready k ix hk _ := by rw [getIndex, (congrArg Serai.indices hs :)]; exact hk
  task e := by rw [getTask, getTask, (congrArg Serai.tasks hs :)]

theorem setWake_readyFrame (s : State) (q : Nat) : ReadyFrame s (setWake s q) := .of_tables rfl rfl

theorem wakeLevel_readyFrame (s : State) (m : Manifest) : ReadyFrame s (wakeLevel s m) := by
  unfold wakeLevel
  split
  · split
    · exact .refl s
    · exact setWake_readyFrame ..
  · exact .refl s

@[simp] theorem getTask_putTask_self (s : State) (e : Nat) (t : Task) : getTask (putTask s e t) e = some t := Tab.find_set_self ..

theorem getTask_putTask_ne (s : State) {d e : Nat} (t : Task) (h : d ≠ e) : getTask (putTask s e t) d = getTask s d := Tab.find_set_ne _ _ _ _ h

@[simp] theorem getIndex_putIndex_self (s : State) (k : Nat) (ix : Index) : getIndex (putIndex s k ix) k = some ix := Tab.find_set_self ..

theorem getIndex_putIndex_ne (s : State) {j k : Nat} (ix : Index) (h : j ≠ k) : getIndex (putIndex s k ix) j = getIndex s j :=
  Tab.find_set_ne _ _ _ _ h

@[simp] theorem getIndex_putTask (s : State) (k e : Nat) (t : Task) : getIndex (putTask s e t) k = getIndex s k := rfl

@[simp] theorem getTask_putIndex (s : State) (k e : Nat) (ix : Index) : getTask (putIndex s k ix) e = getTask s e := rfl

/-- A task that takes another place in the ready order. -/
theorem putTask_readyFrame {s : State} {e : Nat} {t u : Task} (h : getTask s e = some t) (hu : u.unqueued = t.unqueued) :
    ReadyFrame s (putTask s e u) where
  package := rfl
  serai := rfl
  index _ := rfl
  ready _ _ hk _ := hk
  task d := by
    by_cases hd : d = e
    · rw [hd, getTask_putTask_self, h, Option.map_some, Option.map_some, hu]
    · rw [getTask_putTask_ne s u hd]

/-- An index that becomes ready. -/
theorem putIndex_readyFrame {s : State} {k : Nat} {ix : Index} (h : getIndex s k = some ix) :
    ReadyFrame s (putIndex s k { ix with isReady := true }) where
  package := rfl
  serai := rfl
  index j := by
    by_cases hj : j = k
    · rw [hj, getIndex_putIndex_self, h]; rfl
    · rw [getIndex_putIndex_ne s _ hj]
  ready j iy hj hr := by
    by_cases hjk : j = k
    · obtain rfl : ix = iy := Option.some.inj (h.symm.trans (hjk ▸ hj))
      rw [hjk, getIndex_putIndex_self, ← hr]
    · rw [getIndex_putIndex_ne s _ hjk, hj]
  task _ := rfl

theorem queueOn_readyFrame {s : State} {e : Nat} {t : Task} (m : Manifest) (k : Option Nat) (h : getTask s e = some t) :
    ReadyFrame s (queueOn s e t m k) := by
  have hw : ReadyFrame s (wakeLevel (setSerai s fun r => { r with order := s.serai.order + 1 }) m) :=
    ReadyFrame.trans (t := setSerai s _) (.of_tables rfl rfl) (wakeLevel_readyFrame _ m)
  have ht : getTask (wakeLevel (setSerai s fun r => { r with order := s.serai.order + 1 }) m) e = some t := by
    refine Eq.trans ?_ h
    unfold wakeLevel
    split
    · split <;> rfl
    · rfl
  unfold queueOn
  dsimp only
  split
  · exact hw.trans (putTask_readyFrame ht rfl)
  split
  · exact hw.trans (putTask_readyFrame ht rfl)
  case h_2 =>
    split
    · refine ReadyFrame.trans ?_ (setWake_readyFrame _ _)
      exact hw.trans (putTask_readyFrame ht rfl)
    · exact hw.trans (putTask_readyFrame ht rfl)

theorem queueTask_readyFrame (s : State) (e : Nat) : ReadyFrame s (queueTask s e) := by
  unfold queueTask
  split
  · exact .refl s
  case h_2 t ht =>
    split
    · exact .refl s
    split
    · exact .refl s
    · exact queueOn_readyFrame _ _ ht

theorem queueTasks_readyFrame (s : State) (l : List Nat) : ReadyFrame s (queueTasks s l) := by
  induction l generalizing s with
  | nil => exact .refl s
  | cons e r ih => exact (queueTask_readyFrame s e).trans (ih _)

theorem readyOne_readyFrame (s : State) (k : Nat) : ReadyFrame s (readyOne s k) := by
  unfold readyOne
  split
  · exact .refl s
  case h_2 ix hix => exact (putIndex_readyFrame hix).trans (queueTasks_readyFrame ..)

theorem readyOne_self {s : State} {k : Nat} {ix : Index} (h : getIndex s k = some ix) :
    getIndex (readyOne s k) k = some { ix with isReady := true } := by
  rw [readyOne, h]
  exact (queueTasks_readyFrame ..).ready _ _ (getIndex_putIndex_self ..) rfl

theorem readyAll_readyFrame (s : State) (l : List Nat) : ReadyFrame s (readyAll s l) := by
  induction l generalizing s with
  | nil => exact .refl s
  | cons k r ih => exact (readyOne_readyFrame s k).trans (ih _)

theorem readyOutriders_readyFrame (s : State) (m : Manifest) (q : Nat) : ReadyFrame s (readyOutriders s m q) := by
  unfold readyOutriders
  dsimp only
  split
  · exact readyAll_readyFrame ..
  · exact .refl s

theorem readyOuter_readyFrame (s : State) (m : Manifest) (t : Nat) : ReadyFrame s (readyOuter s m t) := by
  unfold readyOuter
  split
  · exact .refl s
  split
  · exact .refl s
  dsimp only
  split
  · exact readyOne_readyFrame ..
  · exact .refl s

/-- After an index is ready by itself, the outriders of its caravan may be. -/
theorem readyIndex_after_readyOne (s : State) (k : Nat) : ReadyFrame (readyOne s k) (readyIndex s k) := by
  unfold readyIndex
  dsimp only
  split
  · exact .refl _
  split
  · exact .refl _
  split
  · exact (readyOutriders_readyFrame ..).trans (readyOuter_readyFrame ..)
  · exact .refl _

theorem readyIndex_readyFrame (s : State) (k : Nat) : ReadyFrame s (readyIndex s k) :=
  (readyOne_readyFrame s k).trans (readyIndex_after_readyOne s k)

theorem readyIndex_self {s : State} {k : Nat} {ix : Index} (h : getIndex s k = some ix) :
    getIndex (readyIndex s k) k = some { ix with isReady := true } :=
  (readyIndex_after_readyOne s k).ready _ _ (readyOne_self h) rfl

/-! ### Signals (R198, R221, R290) -/

theorem exec_dsigApply (s : State) : exec .dsigApply s = .next (dsigApply s) := rfl

theorem dsigApply_none {s : State} (h : s.serai.dsigs = []) : dsigApply s = s := by
  simp only [dsigApply, h, firstDsig, List.isEmpty_nil, true_or, if_true]

/-- The state in which a signal's stores stand at package scope and the signal has reached the Serai, which has none left. -/
def dsigTaken (s : State) (d : Dsig) : State :=
  carry (toPackage (setSerai s fun r => { r with dsigs := [] }) d.core) (coreEnd d.core) 16 .plain

theorem dsigTaken_frame (s : State) (d : Dsig) : EngineFrame (setSerai s fun r => { r with dsigs := [] }) (dsigTaken s d) :=
  (toPackage_frame ..).trans (carry_frame ..)

theorem dsigTaken_serai (s : State) (d : Dsig) : (dsigTaken s d).serai = { s.serai with dsigs := [] } := (dsigTaken_frame s d).serai

/-- The manifest and the index that a signal names. -/
abbrev Dsig.seq (d : Dsig) : BitVec 32 := d.v.extractLsb' 32 32
abbrev Dsig.index (d : Dsig) : Nat := d.v.toNat / 256 % 2 ^ 24

/-- The state in which a signal's underflow has been reported to the context that signalled. -/
def reported (s : State) (d : Dsig) (c x : Nat) : State :=
  let t : TrapReq := ⟨0x10, d.slot, true, d.v, d.pc⟩
  let u := carry (dsigTaken s d) 16 (coreEnd c) (.fault (getCtx (dsigTaken s d) c x).run t)
  setCtx u c x { getCtx u c x with late := (getCtx u c x).late ++ [t] }

theorem reported_serai (s : State) (d : Dsig) (c x : Nat) : (reported s d c x).serai = { s.serai with dsigs := [] } :=
  (carry_frame ..).serai.trans (dsigTaken_serai s d)

theorem reported_late (s : State) (d : Dsig) (c x : Nat) :
    (getCtx (reported s d c x) c x).late = (getCtx s c x).late ++ [⟨0x10, d.slot, true, d.v, d.pc⟩] := by
  have hfr := (dsigTaken_frame s d).trans (carry_frame (dsigTaken s d) 16 (coreEnd c) (.fault (getCtx (dsigTaken s d) c x).run
    ⟨0x10, d.slot, true, d.v, d.pc⟩))
  unfold reported
  dsimp only
  rw [getCtx_setCtx_self]
  exact congrArg (· ++ _) (hfr.ctx_field Ctx.late (fun _ _ => rfl) c x)

section
variable {s : State} {d : Dsig} {ix : Index} {m : Manifest} (hd : s.serai.dsigs = [d])
  (hdone : storesDone s d.task d.core d.x d.place = true) (hpass : mayPass s (coreEnd d.core) 16 = true)
  (hm : manifestOf s d.seq = some m) (hent : m.entered = true) (hn : d.index < m.ntask) (hix : getIndex s (idxKey d.seq d.index) = some ix)
include hd hdone hpass hm hent

/-- The one waiting signal is applied, and the row does not come again. -/
theorem dsigApply_one {u : State} (hu : applyDsig (setSerai s fun r => { r with dsigs := [] }) d = u) (hempty : u.serai.dsigs = []) :
    dsigApply s = u := by
  have hfirst : firstDsig s [] [d] = some d := by
    simp only [firstDsig, hdone, hpass, hm, hent]
    rfl
  have htaken : (setSerai s fun r => { r with dsigs := removeDsig d r.dsigs }) = setSerai s fun r => { r with dsigs := [] } := by
    simp only [setSerai, hd, removeDsig, if_true]
  simp only [dsigApply, hd, hfirst, htaken, hu, hempty, List.isEmpty_nil, true_or, if_true]

include hn hix

theorem dsigApply_counts (hlive : ix.isLive = true) (hc : ix.counter ≠ 0) : dsigApply s =
    let u := putIndex (dsigTaken s d) (idxKey d.seq d.index) { ix with counter := ix.counter - 1 }
    if ix.counter = 1 then readyIndex u (idxKey d.seq d.index) else u := by
  have hi : getIndex (dsigTaken s d) (idxKey d.seq d.index) = some ix := by rw [getIndex, dsigTaken_serai]; exact hix
  have hm' : manifestOf (dsigTaken s d) d.seq = some m := by rw [manifestOf, dsigTaken_serai]; exact hm
  have hgo : (!ix.isLive || ix.counter == 0 || decide (m.ntask ≤ d.index)) = false := by simp [hlive, hc, hn]
  refine dsigApply_one hd hdone hpass hm hent ?_ ?_
  · unfold dsigTaken at hi hm'
    unfold applyDsig
    dsimp only
    rw [hi, hm']
    exact if_neg (by rw [hgo]; exact Bool.false_ne_true)
  · have hs : (putIndex (dsigTaken s d) (idxKey d.seq d.index) { ix with counter := ix.counter - 1 }).serai.dsigs = [] :=
      (congrArg Serai.dsigs (dsigTaken_serai s d) :)
    dsimp only
    split_ifs
    · exact (congrArg Serai.dsigs (readyIndex_readyFrame ..).serai).trans hs
    · exact hs

omit hn in
theorem dsigApply_underflows (h : ix.isLive = false ∨ ix.counter = 0) {c x : Nat} (hat : standsAt s d.task d.core d.x = some (c, x))
    (hx : x < 4) : dsigApply s = reported s d c x := by
  have hi : getIndex (dsigTaken s d) (idxKey d.seq d.index) = some ix := by rw [getIndex, dsigTaken_serai]; exact hix
  have hm' : manifestOf (dsigTaken s d) d.seq = some m := by rw [manifestOf, dsigTaken_serai]; exact hm
  have hat' : standsAt (dsigTaken s d) d.task d.core d.x = some (c, x) := by
    rw [← hat]
    unfold standsAt
    rw [dsigTaken_serai]
  have hend : (!ix.isLive || ix.counter == 0 || decide (m.ntask ≤ d.index)) = true := by
    rcases h with h | h <;> simp [h]
  refine dsigApply_one hd hdone hpass hm hent ?_ (congrArg Serai.dsigs (reported_serai s d c x))
  unfold reported
  unfold dsigTaken at hi hm' hat'
  unfold applyDsig
  dsimp only
  rw [hi, hm']
  refine (if_pos (hend)).trans ?_
  rw [underflow, hat']
  dsimp only
  rw [if_pos hx, setAny_of_lt _ c _ hx, getAny_of_lt _ c hx]
  rfl

end

/-- Settles O44: one waiting signal either counts its index down, which is ready at 0, or is reported to its sender. -/
theorem signalsApply : Obligations.SignalsApply := by
  unfold Obligations.SignalsApply
  intro s
  refine ⟨fun h => ?none, fun d ix m hd hdone hpass hm hent hn hix => ⟨fun hlive hc => ?counts, fun hlive hc => ?ready, fun c x h hat hx => ?ends⟩⟩
  case none => rw [exec_dsigApply, dsigApply_none h]
  case counts =>
    refine ⟨_, exec_dsigApply s, ?_⟩
    rw [dsigApply_counts hd hdone hpass hm hent hn hix hlive (by omega)]
    dsimp only
    rw [if_neg (by omega)]
    have hs := dsigTaken_serai s d
    refine ⟨(congrArg Serai.dsigs hs :), getIndex_putIndex_self .., fun k hk => ?_, (congrArg Serai.tasks hs :)⟩
    rw [getIndex_putIndex_ne _ _ hk, getIndex, hs]
    rfl
  case ready =>
    refine ⟨_, exec_dsigApply s, ?_⟩
    rw [dsigApply_counts hd hdone hpass hm hent hn hix hlive (by omega)]
    dsimp only
    rw [if_pos hc]
    refine ⟨(congrArg Serai.dsigs (readyIndex_readyFrame ..).serai).trans (congrArg Serai.dsigs (dsigTaken_serai s d) :), ?_⟩
    rw [readyIndex_self (getIndex_putIndex_self ..), hc]
  case ends =>
    refine ⟨_, exec_dsigApply s, ?_⟩
    rw [dsigApply_underflows hd hdone hpass hm hent hix h hat hx]
    have hs := reported_serai s d c x
    exact ⟨(congrArg Serai.dsigs hs :), (congrArg Serai.indices hs :), reported_late s d c x⟩

end Sys2Proof.Machine
end

section
/-! SUPPORT. Proofs about the Serai's own writes of tensor 0 and its page service (R194, R195, R232, R244, R310). -/

namespace Sys2Proof.Machine

/-! ### The reset phase of a die (R346)

No write of a byte, no placement and no transfer changes it. -/

theorem getDie_setDie_field {α : Type} (f : Die → α) {s : State} {d : Nat} {v : Die} (h : f v = f (getDie s d)) (e : Nat) :
    f (getDie (setDie s d v) e) = f (getDie s e) := by
  by_cases he : e = d
  · rw [he, getDie_setDie_self, h]
  · rw [getDie_setDie_ne _ _ _ _ he]

/-- Every die of `t` stands in the reset phase in which it stands in `s`. -/
structure SamePhases (s t : State) : Prop where
  phase : ∀ d, (getDie t d).rphase = (getDie s d).rphase

theorem SamePhases.refl (s : State) : SamePhases s s := ⟨fun _ => rfl⟩

theorem SamePhases.trans {s t u : State} (h : SamePhases s t) (h' : SamePhases t u) : SamePhases s u :=
  ⟨fun d => (h'.phase d).trans (h.phase d)⟩

/-- A state with the same dies. -/
theorem SamePhases.of_dies {s t : State} (h : t.dies = s.dies) : SamePhases s t := ⟨fun d => by rw [getDie, getDie, h]⟩

theorem setDie_phases {s : State} {d : Nat} {v : Die} (h : v.rphase = (getDie s d).rphase) : SamePhases s (setDie s d v) :=
  ⟨getDie_setDie_field Die.rphase h⟩

theorem logInbound_phases (s : State) (a b : Nat) (sq : BitVec 32) (m : MsgBody) : SamePhases s (logInbound s a b sq m) := by
  unfold logInbound
  split
  · exact setDie_phases rfl
  · exact .refl s

theorem carry_phases (s : State) (a b : Nat) (m : MsgBody) : SamePhases s (carry s a b m) := by
  unfold carry
  split
  · exact .refl s
  split
  · exact setDie_phases rfl
  · exact ⟨(logInbound_phases (setLink s a b _) ..).phase⟩

theorem carryTo_phases (s : State) (a : Nat) (m : MsgBody) (l : List Nat) : SamePhases s (carryTo s a m l) := by
  induction l generalizing s with
  | nil => exact .refl s
  | cons b r ih => exact (carry_phases s a b m).trans (ih _)

theorem getDie_dropCopies (s : State) (a n d : Nat) : ∃ l2, getDie (dropCopies s a n) d = { getDie s d with l2 := l2 } :=
  ⟨_, Tab.get_map _ _ _ _ rfl⟩

theorem dropCopies_phases (s : State) (a n : Nat) : SamePhases s (dropCopies s a n) := ⟨fun d => by
  obtain ⟨l2, h⟩ := getDie_dropCopies s a n d
  rw [h]⟩

/-- The L2 of a die without its clean copy of a byte. -/
def cleanDropped (a : Nat) (k : Die) : Die :=
  match k.l2.find (a / 64) with
  | some l =>
    if l.dirty.getLsbD (a % 64) then k
    else { k with l2 := k.l2.set (a / 64) { l with valid := l.valid &&& ~~~ ((1 : BitVec 64) <<< (a % 64)) } }
  | none => k

theorem getDie_dropClean (s : State) (a d : Nat) : getDie (dropClean s a) d = cleanDropped a (getDie s d) :=
  Tab.get_map _ (fun _ => cleanDropped a) _ _ rfl

theorem dropClean_phases (s : State) (a : Nat) : SamePhases s (dropClean s a) := ⟨fun d => by
  rw [getDie_dropClean, cleanDropped]
  split
  · split <;> rfl
  · rfl⟩

theorem copyOut_phases (s : State) (d b : Nat) : SamePhases s (copyOut s d b) := by
  unfold copyOut
  dsimp only
  split
  · exact .refl s
  · refine SamePhases.trans ⟨?_⟩ (carryTo_phases ..)
    exact getDie_setDie_field Die.rphase rfl

theorem keepBlock_phases (s : State) (a : Nat) : SamePhases s (keepBlock s a) := by
  unfold keepBlock
  split
  · exact copyOut_phases ..
  · exact .refl s

theorem markDirty_phases (s : State) (a : Nat) : SamePhases s (markDirty s a) := by
  unfold markDirty
  dsimp only
  split_ifs
  · exact .refl s
  · exact .refl s
  · exact setDie_phases rfl

theorem writeDepot_phases (s : State) (a : Nat) (v : Byte) : SamePhases s (writeDepot s a v) := by
  unfold writeDepot
  split
  · exact ⟨(dropClean_phases { s with mem := s.mem.write a v } a).phase⟩
  · exact ⟨(keepBlock_phases s a).phase⟩

theorem writeDepots_phases (s : State) (l : List (Nat × Byte)) : SamePhases s (writeDepots s l) := by
  induction l generalizing s with
  | nil => exact .refl s
  | cons w r ih => exact ((writeDepot_phases ..).trans (markDirty_phases ..)).trans (ih _)

/-! ### Writes at depots (R249, R250) -/

theorem writeDepot_frame (s : State) (a : Nat) (v : Byte) : EngineFrame s (writeDepot s a v) := by
  unfold writeDepot
  split
  · exact writeStack_frame ..
  · exact writeLevel_frame ..

theorem writeDepots_engineFrame (s : State) (l : List (Nat × Byte)) : EngineFrame s (writeDepots s l) := by
  induction l generalizing s with
  | nil => exact .refl s
  | cons w r ih => exact ((writeDepot_frame ..).trans (markDirty_frame ..)).trans (ih _)

theorem writeDepot_mem_of_offLevel {s : State} {a : Nat} (v : Byte) (h : onLevel a = false) :
    (writeDepot s a v).mem = s.mem.write a v := by
  have hkeep : keepBlock s a = s := by
    rw [keepBlock, waitsCopy, h]
    rfl
  rw [writeDepot, writeLevel, hkeep]
  split <;> rfl

/-- Off the on-chip levels no write waits for a copy of the Drover: memory takes the cells in order. -/
theorem writeDepots_mem_of_offLevel {s : State} {l : List (Nat × Byte)} (h : ∀ w ∈ l, onLevel w.1 = false) :
    (writeDepots s l).mem = s.mem.writeCells l := by
  induction l generalizing s with
  | nil => rfl
  | cons w r ih =>
    obtain ⟨hw, hr⟩ := List.forall_mem_cons.mp h
    rw [writeDepots, ih hr, markDirty_mem, writeDepot_mem_of_offLevel _ hw]
    rfl

/-! ### What the Serai's writes and placements keep (R195, R232, R242) -/

/-- `t` is `s` but for memory, the dies' caches and logs, the links, the cores' caches and monitors, and the Serai's frames and raised events. -/
structure ServiceFrame (s t : State) : Prop where
  package : { t with mem := s.mem, dies := s.dies, links := s.links, cores := s.cores, serai := s.serai } = s
  serai : { t.serai with raised := s.serai.raised, nextFrame := s.serai.nextFrame, freed := s.serai.freed } = s.serai
  ctx : ∀ c x, { getCtx t c x with mon := (getCtx s c x).mon } = getCtx s c x
  phases : SamePhases s t

theorem ServiceFrame.refl (s : State) : ServiceFrame s s := ⟨rfl, rfl, fun _ _ => rfl, .refl s⟩

theorem ServiceFrame.trans {s t u : State} (h : ServiceFrame s t) (h' : ServiceFrame t u) : ServiceFrame s u where
  package := (congrArg (fun v : State => { v with mem := s.mem, dies := s.dies, links := s.links, cores := s.cores, serai := s.serai })
    h'.package).trans h.package
  serai := (congrArg (fun v : Serai => { v with raised := s.serai.raised, nextFrame := s.serai.nextFrame, freed := s.serai.freed })
    h'.serai).trans h.serai
  ctx c x := (congrArg (fun k : Ctx => { k with mon := (getCtx s c x).mon }) (h'.ctx c x)).trans (h.ctx c x)
  phases := h.phases.trans h'.phases

theorem EngineFrame.service {s t : State} (h : EngineFrame s t) (hp : SamePhases s t) : ServiceFrame s t where
  package := (congrArg (fun v : State => { v with serai := s.serai }) h.package :)
  serai := by rw [h.serai]
  ctx := h.ctx
  phases := hp

theorem carry_service (s : State) (a b : Nat) (m : MsgBody) : ServiceFrame s (carry s a b m) := (carry_frame ..).service (carry_phases ..)

theorem carryTo_service (s : State) (a : Nat) (m : MsgBody) (l : List Nat) : ServiceFrame s (carryTo s a m l) :=
  (carryTo_frame ..).service (carryTo_phases ..)

theorem writeDepots_service (s : State) (l : List (Nat × Byte)) : ServiceFrame s (writeDepots s l) :=
  (writeDepots_engineFrame ..).service (writeDepots_phases ..)

theorem frameIn_tables {s u : State} {m f : Nat} (h : frameIn s m = some (u, f)) :
    { u.serai with nextFrame := s.serai.nextFrame, freed := s.serai.freed } = s.serai := by
  unfold frameIn at h
  split at h
  · cases h; rfl
  · dsimp only at h
    split_ifs at h
    all_goals cases h; rfl

theorem frameFrom_tables {s u : State} {l : List Nat} {f : Nat} (h : frameFrom s l = some (u, f)) :
    { u.serai with nextFrame := s.serai.nextFrame, freed := s.serai.freed } = s.serai := by
  induction l with
  | nil => cases h
  | cons m r ih =>
    unfold frameFrom at h
    split at h
    case h_1 q hq => cases h; exact frameIn_tables hq
    case h_2 => exact ih h

theorem PlaceFrame.service {s t : State} (h : PlaceFrame s t)
    (hs : { t.serai with raised := s.serai.raised, nextFrame := s.serai.nextFrame, freed := s.serai.freed } = s.serai)
    (hp : SamePhases s t) : ServiceFrame s t where
  package := (congrArg (fun v : State => { v with links := s.links }) h.package :)
  serai := hs
  ctx c x := by rw [h.ctx]
  phases := hp

theorem setMem_service (s : State) (m : Memory) : ServiceFrame s { s with mem := m } :=
  (setMem_placeFrame s m).service rfl (.of_dies rfl)

theorem dropCopies_service (s : State) (a n : Nat) : ServiceFrame s (dropCopies s a n) :=
  (dropCopies_frame s a n).service rfl (dropCopies_phases ..)

theorem event_service (s : State) (src : Nat) (p : List Word) : ServiceFrame s (event s src p) :=
  (event_frame s src p).service rfl (.of_dies rfl)

theorem frameFrom_service {s u : State} {l : List Nat} {f : Nat} (h : frameFrom s l = some (u, f)) : ServiceFrame s u :=
  (PlaceFrame.of_serai (frameFrom_serai h)).service (congrArg (fun v : Serai => { v with raised := s.serai.raised }) (frameFrom_tables h) :)
    (.of_dies (congrArg State.dies (frameFrom_serai h) :))

theorem putFrame_service (s : State) (c : Nat) (l : Layout) (tid tile : Nat) : ServiceFrame s (putFrame s c l tid tile) := by
  unfold putFrame
  split
  case h_1 u f hf =>
    exact (frameFrom_service hf).trans ((setMem_service u _).trans ((dropCopies_service _ f 65536).trans (setMem_service _ _)))
  case h_2 => exact event_service ..

theorem placeTile_service (s : State) (c : Nat) (k : Ctx) (tid tile : Nat) : ServiceFrame s (placeTile s c k tid tile) := by
  unfold placeTile
  split
  · exact .refl s
  split
  · exact .refl s
  · exact putFrame_service ..

/-! ### Writes of tensor 0 (R195, R232, R242) -/

theorem tensorZero_service (s : State) (pid a : Nat) (place : Bool) : ServiceFrame s (tensorZero s pid a place).1 := by
  have hplace : ∀ tile, ServiceFrame s (if place then placeTile s 2048 (procCtx pid) 0 tile else s) := fun tile => by
    split
    · exact placeTile_service ..
    · exact .refl s
  unfold tensorZero
  dsimp only
  split
  · exact .refl s
  · split <;> exact hplace _

theorem seraiWrite_service (s : State) (pid a v n : Nat) : ServiceFrame s (seraiWrite s pid a v n).1 := by
  have ht := tensorZero_service s pid a true
  unfold seraiWrite
  split
  case h_1 u p hp =>
    rw [hp] at ht
    exact ht.trans ((carryTo_service ..).trans (writeDepots_service ..))
  case h_2 u hp =>
    rw [hp] at ht
    exact ht

theorem lookTile_procCtx {s : State} {pid tid tile b : Nat} (h : lookTile s (procCtx pid) tid tile = .resident b) : ∃ e, b = frameOf s e := by
  have hown : renames s (procCtx pid) tid tile = none := rfl
  unfold lookTile at h
  split at h
  · cases h
  · rw [hown] at h
    simp only [Option.any_none, Bool.false_eq_true, if_false] at h
    split_ifs at h
    exact ⟨_, (Look.resident.inj h).symm⟩

theorem refTid_mkRef_zero (a : Nat) : refTid (mkRef 0 a) = 0 := by
  rw [refTid, mkRef, BitVec.extractLsb'_toNat, BitVec.toNat_ofNat, Nat.shiftRight_eq_div_pow]
  omega

/-- A byte of tensor 0 lies within its tile. -/
theorem locate_zero_lt {s : State} {k : Ctx} {a tile off : Nat} (h : locate s k (mkRef 0 a) = some (tile, off)) : off < 65536 := by
  unfold locate at h
  dsimp only at h
  rw [refTid_mkRef_zero, if_neg (by decide)] at h
  split at h
  · rw [layoutLoc, if_pos rfl] at h
    split_ifs at h
    obtain ⟨-, rfl⟩ := Prod.mk.inj (Option.some.inj h)
    exact Nat.mod_lt _ (by decide)
  · cases h

/-- A frame lies in a memory stack of this package or of another, none of an on-chip level. -/
theorem onLevel_frameOf (s : State) (e : Nat) {i : Nat} (h : i < 2 ^ 17) : onLevel (frameOf s e + i) = false := by
  have hphys : e / 2 ^ 16 % 2 ^ 24 * 65536 < 2 ^ 40 := by omega
  unfold frameOf remoteBase onLevel
  dsimp only
  rw [Bool.and_eq_false_iff, decide_eq_false_iff_not, decide_eq_false_iff_not]
  split_ifs <;> omega

theorem tensorZero_offLevel {s u : State} {pid a b : Nat} {place : Bool} (h : tensorZero s pid a place = (u, some b)) {i : Nat} (hi : i < 8) :
    onLevel (b + i) = false := by
  unfold tensorZero at h
  dsimp only at h
  split at h
  · cases h
  case h_2 tile off hloc =>
    split at h
    case h_1 f hf =>
      obtain ⟨e, rfl⟩ := lookTile_procCtx hf
      obtain ⟨-, hb⟩ := Prod.mk.inj h
      rw [← Option.some.inj hb, Nat.add_assoc]
      have hoff := locate_zero_lt hloc
      exact onLevel_frameOf _ _ (by omega)
    case h_2 => cases h

theorem seraiWrite_some {s u : State} {pid a p : Nat} (v n : Nat) (h : tensorZero s pid a true = (u, some p)) :
    (seraiWrite s pid a v n).1 = writeDepots (carryTo u 16 .plain (homeEnd p).toList) (cellsOf p v n) := by
  rw [seraiWrite, h]

/-- A number of eight bytes that the Serai writes reads as it was written. -/
theorem seraiWrite_readN {s u : State} {pid a p : Nat} (v : Nat) (h : tensorZero s pid a true = (u, some p)) :
    (seraiWrite s pid a v 8).1.mem.readN p 8 = v % 2 ^ 64 := by
  have hoff : ∀ w ∈ cellsOf p v 8, onLevel w.1 = false := fun w hw => by
    obtain ⟨i, hi, rfl⟩ := mem_cellsOf.mp hw
    exact tensorZero_offLevel h hi
  rw [seraiWrite_some v 8 h, writeDepots_mem_of_offLevel hoff, carryTo_mem]
  exact Memory.readN_writeN ..

/-! ### Replies to page requests (R195, R333) -/

/-- The state in which both halves of a reply's record have been written. -/
def replyWritten (s : State) (p : PageReq) (st : Nat) : State :=
  let a := refIdx p.cmpla + 16 * (p.seq.toNat % 256)
  (seraiWrite (seraiWrite s p.pid a (replyRef s p).toNat 8).1 p.pid (a + 8) (p.seq.toNat * 2 ^ 32 + st * 2 ^ 24) 8).1

theorem replyWritten_service (s : State) (p : PageReq) (st : Nat) : ServiceFrame s (replyWritten s p st) :=
  (seraiWrite_service ..).trans (seraiWrite_service ..)

theorem postReply_of_ended {s : State} {p : PageReq} (st : Nat) (h : p.task = none) : postReply s p st = s := by
  rw [postReply, h]
  rfl

theorem standsAt_congr {s t : State} (h : t.serai.tasks = s.serai.tasks) (task : Option Nat) (c x : Nat) :
    standsAt t task c x = standsAt s task c x := by
  unfold standsAt
  rw [h]

theorem underReplay_congr {s t : State} (h : SamePhases s t) (d : Nat) : underReplay t d = underReplay s d := by
  rw [underReplay, underReplay, h.phase]

/-- A reply whose record is written reaches its context, which has one request less outstanding. -/
def replyTaken (u : State) (p : PageReq) : State :=
  match standsAt u p.task p.core p.x with
  | some (c, x) =>
    let v := if x < 4 then carry u 16 (coreEnd c) (.page (getAny u c x).run p.seq) else u
    if decide (x < 4) && underReplay u (coreEnd c) then v else setAny v c x (removeReq p.seq (getAny v c x))
  | none => u

theorem postReply_eq {s : State} {p : PageReq} (st : Nat) (h : p.task ≠ none) : postReply s p st = replyTaken (replyWritten s p st) p := by
  have hsome : ¬ p.task.isNone = true := by simpa using h
  rw [postReply, if_neg hsome]
  rfl

theorem setAny_pageReqs (s : State) (c x : Nat) (k : Ctx) : (setAny s c x k).serai.pageReqs = s.serai.pageReqs := by
  rcases setAny_cases s c x k with ⟨-, h⟩ | ⟨-, i, -, h⟩ | ⟨-, -, h⟩ <;> rw [h] <;> rfl

theorem replyTaken_mem (u : State) (p : PageReq) : (replyTaken u p).mem = u.mem := by
  unfold replyTaken
  split
  · dsimp only
    split_ifs <;> simp only [setAny_mem, carry_mem]
  · rfl

theorem replyTaken_pageReqs (u : State) (p : PageReq) : (replyTaken u p).serai.pageReqs = u.serai.pageReqs := by
  have hcarry : ∀ b m, (carry u 16 b m).serai.pageReqs = u.serai.pageReqs := fun b m => congrArg Serai.pageReqs (carry_frame u 16 b m).serai
  unfold replyTaken
  split
  · dsimp only
    split_ifs <;> simp only [setAny_pageReqs, hcarry]
  · rfl

theorem replyTaken_rqout {u : State} {p : PageReq} {c x : Nat} (hat : standsAt u p.task p.core p.x = some (c, x)) (hx : x < 4)
    (hr : underReplay u (coreEnd c) = false) : (getCtx (replyTaken u p) c x).rqout = (getCtx u c x).rqout.filter fun n => n != p.seq := by
  rw [replyTaken, hat]
  dsimp only
  rw [if_pos hx, hr, Bool.and_false, if_neg Bool.false_ne_true, setAny_of_lt _ _ _ hx, getCtx_setCtx_self, getAny_of_lt _ _ hx]
  exact congrArg (List.filter fun n => n != p.seq) ((carry_frame ..).ctx_field Ctx.rqout (fun _ _ => rfl) c x)

theorem postReply_pageReqs (s : State) (p : PageReq) (st : Nat) : (postReply s p st).serai.pageReqs = s.serai.pageReqs := by
  by_cases h : p.task = none
  · rw [postReply_of_ended st h]
  · rw [postReply_eq st h, replyTaken_pageReqs]
    exact (congrArg Serai.pageReqs (replyWritten_service s p st).serai :)

/-! ### The page service (R310, Table 8.3) -/

theorem exec_pageRequestService (s : State) : exec .pageRequestService s = .next (servePages s) := rfl

theorem servePages_none {s : State} (h : s.serai.pageReqs = []) : servePages s = s := by
  simp only [servePages, h, List.find?_nil, List.isEmpty_nil, true_or, if_true]

/-- The state in which the one posted request has reached the Serai. -/
def requestTaken (s : State) (p : PageReq) : State := setSerai (carry s (coreEnd p.core) 16 .plain) fun r => { r with pageReqs := [] }

theorem requestTaken_serai (s : State) (p : PageReq) : (requestTaken s p).serai = { s.serai with pageReqs := [] } :=
  congrArg (fun r : Serai => { r with pageReqs := [] }) (carry_frame s (coreEnd p.core) 16 .plain).serai

theorem requestTaken_mem (s : State) (p : PageReq) : (requestTaken s p).mem = s.mem := carry_mem ..

theorem requestTaken_procs (s : State) (p : PageReq) : (requestTaken s p).procs = s.procs :=
  (congrArg State.procs (carry_frame s (coreEnd p.core) 16 .plain).package :)

theorem requestTaken_host (s : State) (p : PageReq) : (requestTaken s p).host = s.host :=
  (congrArg State.host (carry_frame s (coreEnd p.core) 16 .plain).package :)

/-- The one posted request is settled, and the row does not come again. -/
theorem servePages_one {s u : State} {p : PageReq} (hp : s.serai.pageReqs = [p]) (hs : settles s p = true)
    (hu : settle (requestTaken s p) p = u) (hempty : u.serai.pageReqs = []) : servePages s = u := by
  have htaken : (setSerai (carry s (coreEnd p.core) 16 .plain) fun r => { r with pageReqs := removeFirst (settles s) r.pageReqs }) =
      requestTaken s p := by
    simp only [requestTaken, setSerai, (carry_frame s (coreEnd p.core) 16 .plain).serai, hp, removeFirst, hs, if_true]
  have hfind : [p].find? (settles s) = some p := by simp [hs]
  simp only [servePages, hp, hfind, htaken, hu, hempty, List.isEmpty_nil, true_or, if_true]

theorem locate_congr {s t : State} (h : t.procs = s.procs) (k : Ctx) (r : Word) : locate t k r = locate s k r := by
  unfold locate
  simp only [layoutOf_congr h]

theorem reqTile_congr {s t : State} (h : t.procs = s.procs) (p : PageReq) : reqTile t p = reqTile s p := by
  rw [reqTile, reqTile, locate_congr h]

section
variable {u : State} {p : PageReq}

theorem settle_no_tensor (h : layoutOf u p.pid (refTid p.ref) = none) : settle u p = postReply u p 3 := by rw [settle, h]

variable {l : Layout} (hl : layoutOf u p.pid (refTid p.ref) = some l)
include hl

theorem settle_beyond (h : locate u (procCtx p.pid) p.ref = none) : settle u p = postReply u p 1 := by rw [settle, hl, h]

variable {tile off : Nat} (hloc : locate u (procCtx p.pid) p.ref = some (tile, off))
include hloc

theorem settle_resident (he : entryAt u l tile / 2 ^ 62 = 1) : settle u p = postReply u p 0 := by
  rw [settle, hl, hloc]
  dsimp only
  rw [he, if_neg one_ne_zero, he, if_pos rfl]

theorem settle_places (he : entryAt u l tile / 2 ^ 62 = 0)
    (hp : entryAt (placeTile u p.core (procCtx p.pid) (refTid p.ref) tile) l tile / 2 ^ 62 = 1) :
    settle u p = postReply (placeTile u p.core (procCtx p.pid) (refTid p.ref) tile) p 0 := by
  rw [settle, hl, hloc]
  dsimp only
  rw [if_pos he, if_pos hp]

/-- A request that waits for the driver; the first one for its tile is reported. -/
theorem settle_waits (he : 2 ≤ entryAt u l tile / 2 ^ 62) : settle u p =
    let v := setSerai u fun r => { r with pending := r.pending ++ [p] }
    if u.serai.pending.any fun q => q.pid == p.pid && reqTile u q == some (tileKey (refTid p.ref) tile) then v
    else requestReport v p (tileKey (refTid p.ref) tile) := by
  rw [settle, hl, hloc]
  dsimp only
  have h0 : ¬ entryAt u l tile / 2 ^ 62 = 0 := by omega
  have h1 : ¬ entryAt u l tile / 2 ^ 62 = 1 := by omega
  rw [if_neg h0, if_neg h1]

end

/-- The one posted request is answered. -/
theorem exec_pageRequestService_replies {s v : State} {p : PageReq} {st : Nat} (hp : s.serai.pageReqs = [p]) (hs : settles s p = true)
    (hu : settle (requestTaken s p) p = postReply v p st) (hv : v.serai.pageReqs = []) :
    exec .pageRequestService s = .next (postReply v p st) := by
  rw [exec_pageRequestService, servePages_one hp hs hu ((postReply_pageReqs ..).trans hv)]

/-- Settles O46: a request by the first case of Table 8.3 that holds, a reply through its written record. -/
theorem pagesServed : Obligations.PagesServed := by
  unfold Obligations.PagesServed
  refine ⟨fun s h => ?none, fun s p hp hs => ?request, fun s p st e c x =>
    ⟨fun ht => ?ended, fun ht hat hx hr => ?taken, fun b ht hb hst => ?record⟩⟩
  case none => rw [exec_pageRequestService, servePages_none h]
  case request =>
    have hempty : (requestTaken s p).serai.pageReqs = [] := by rw [requestTaken_serai]
    have hprocs := requestTaken_procs s p
    have hent : ∀ l tile, entryAt (requestTaken s p) l tile = entryAt s l tile := fun l tile => by rw [entryAt, entryAt, requestTaken_mem]
    refine ⟨fun h => ?noTensor, fun l hl => ?_⟩
    case noTensor => exact exec_pageRequestService_replies hp hs (settle_no_tensor ((layoutOf_congr hprocs ..).trans h)) hempty
    have hl' := (layoutOf_congr hprocs p.pid (refTid p.ref)).trans hl
    refine ⟨fun h => ?beyond, fun tile off hloc => ?_⟩
    case beyond => exact exec_pageRequestService_replies hp hs (settle_beyond hl' ((locate_congr hprocs ..).trans h)) hempty
    have hloc' := (locate_congr hprocs (procCtx p.pid) p.ref).trans hloc
    rw [← hent]
    refine ⟨fun he => ?resident, fun he hplaced => ?places, fun he => ?waits⟩
    case resident => exact exec_pageRequestService_replies hp hs (settle_resident hl' hloc' he) hempty
    case places =>
      refine exec_pageRequestService_replies hp hs (settle_places hl' hloc' he hplaced) ?_
      exact (congrArg Serai.pageReqs (placeTile_service (requestTaken s p) p.core (procCtx p.pid) (refTid p.ref) tile).serai).trans hempty
    case waits =>
      have hset := settle_waits hl' hloc' he
      have hserai := requestTaken_serai s p
      have hknown : ((requestTaken s p).serai.pending.any fun q =>
          q.pid == p.pid && reqTile (requestTaken s p) q == some (tileKey (refTid p.ref) tile)) =
          s.serai.pending.any fun q => q.pid == p.pid && reqTile s q == some (tileKey (refTid p.ref) tile) := by
        simp only [reqTile_congr hprocs, hserai]
      refine ⟨_, exec_pageRequestService s, ?_⟩
      rw [hknown] at hset
      dsimp only at hset
      split_ifs at hset ⊢
      · rw [servePages_one hp hs hset hempty]
        exact ⟨hempty, by rw [setSerai, hserai], requestTaken_mem s p, by rw [setSerai, requestTaken_host]; rfl⟩
      · rw [servePages_one hp hs hset hempty]
        exact ⟨hempty, by rw [requestReport, report, setSerai, hserai], requestTaken_mem s p,
          by simp only [requestReport, report, setSerai, requestTaken_host, List.length_append, List.length_singleton]⟩
  case ended => exact postReply_of_ended st ht
  case taken =>
    have hfr := replyWritten_service s p st
    have htasks : (replyWritten s p st).serai.tasks = s.serai.tasks := (congrArg Serai.tasks hfr.serai :)
    rw [postReply_eq st (by rw [ht]; exact Option.some_ne_none e), replyTaken_rqout ((standsAt_congr htasks ..).trans hat) hx
      ((underReplay_congr hfr.phases _).trans hr)]
    exact congrArg (List.filter _) (congrArg Ctx.rqout (hfr.ctx c x) :)
  case record =>
    have hseq := p.seq.isLt
    rw [postReply_eq st (by rw [ht]; exact Option.some_ne_none e), replyTaken_mem]
    refine (seraiWrite_readN _ hb).trans (Nat.mod_eq_of_lt ?_)
    omega

end Sys2Proof.Machine
end

section
/-! SUPPORT. Proofs about the entry of manifests (R196, R210, R217, R220, R223, R232). -/

namespace Sys2Proof.Machine

/-! ### The end of a manifest (R231, R232) -/

theorem writeBackDies_frame (s : State) (l : List Nat) : EngineFrame s (writeBackDies s l) := by
  induction l generalizing s with
  | nil => exact .refl s
  | cons d r ih => exact (writeBackAll_frame s d).trans (ih _)

theorem writeBackPackage_frame (s : State) : EngineFrame s (writeBackPackage s) := writeBackDies_frame ..

theorem writeRecord_service (s : State) (pid a : Nat) (l : List Nat) : ServiceFrame s (writeRecord s pid a l).1 := by
  induction l generalizing s a with
  | nil => exact .refl s
  | cons w r ih =>
    have hw := seraiWrite_service s pid a w 8
    unfold writeRecord
    split
    case h_1 u hu =>
      rw [hu] at hw
      exact hw.trans (ih u (a + 8))
    case h_2 u hu =>
      rw [hu] at hw
      exact hw

theorem Tab.find_erase_self {α : Type} (t : Tab α) (k : Nat) : (t.erase k).find k = none := findCell_dropCell_self k t.cells

/-- The state in which the record of a manifest that ends has been written, and whether all of it was. -/
def recordWritten (s : State) (m : Manifest) : State × Bool :=
  if m.cmpl = 0 then (writeBackPackage s, true) else writeRecord (writeBackPackage s) m.pid (m.cmpl.toNat % 2 ^ 48) (recordWords m)

/-- The payload of the root event: bit 4 says that the record was not written. -/
def rootPayload (s : State) (m : Manifest) (q : BitVec 32) : Word :=
  BitVec.ofNat 64 (q.toNat * 2 ^ 32 + b2n (!(recordWritten s m).2) * 16 + 15)

theorem recordWritten_serai (s : State) (m : Manifest) : { (recordWritten s m).1.serai with
    raised := s.serai.raised, nextFrame := s.serai.nextFrame, freed := s.serai.freed } = s.serai := by
  have hb := (writeBackPackage_frame s).serai
  unfold recordWritten
  split
  · rw [hb]
  · rw [← hb]
    exact (writeRecord_service ..).serai

/-- A manifest that ends is gone, and its root event is raised. -/
theorem finishRoot_serai {s : State} {q : BitVec 32} {m : Manifest} (h : manifestOf s q = some m) :
    (finishRoot s q).serai.mseq = s.serai.mseq ∧ (finishRoot s q).serai.launches = s.serai.launches ∧ manifestOf (finishRoot s q) q = none ∧
      (0x0D, false, [rootPayload s m q]) ∈ (finishRoot s q).serai.raised := by
  have hw := recordWritten_serai s m
  have hend : ∃ u : State, u.serai = (event (recordWritten s m).1 0x0D [rootPayload s m q]).serai ∧ finishRoot s q = setSerai u fun r => { r with
      manifests := r.manifests.erase q.toNat
      indices := r.indices.filter fun k _ => k / 2 ^ 24 != q.toNat
      caravans := r.caravans.filter fun _ v => v.seq != q
      nodes := r.nodes.filter fun k _ => k / 4096 / 8 != q.toNat } := by
    refine ⟨if m.fabric then { event (recordWritten s m).1 0x0D [rootPayload s m q] with
      host := { (recordWritten s m).1.host with nodeWait := (recordWritten s m).1.host.nodeWait ++ [rootPayload s m q] } }
      else event (recordWritten s m).1 0x0D [rootPayload s m q], by split <;> rfl, ?_⟩
    rw [finishRoot, h]
    rfl
  obtain ⟨u, hu, hend⟩ := hend
  rw [hend]
  refine ⟨?_, ?_, Tab.find_erase_self .., ?_⟩
  · exact (congrArg Serai.mseq hu).trans (congrArg Serai.mseq hw :)
  · exact (congrArg Serai.launches hu).trans (congrArg Serai.launches hw :)
  · rw [setSerai, hu]
    exact List.mem_append_right _ (List.mem_singleton_self _)

theorem rootPayload_cases (s : State) (m : Manifest) (q : BitVec 32) : rootPayload s m q = BitVec.ofNat 64 (q.toNat * 2 ^ 32 + 15) ∨
    rootPayload s m q = BitVec.ofNat 64 (q.toNat * 2 ^ 32 + 31) := by
  unfold rootPayload
  cases (recordWritten s m).2
  · refine Or.inr (congrArg (BitVec.ofNat 64) ?_)
    rw [show b2n (!false) = 1 from rfl]
  · refine Or.inl (congrArg (BitVec.ofNat 64) ?_)
    rw [show b2n (!true) = 0 from rfl]

/-! ### A request pool made resident (R309) -/

/-- `t` is `s` but for memory, the caches, the monitors, the checkpoints, and the Serai's frames, images and raised events. -/
structure PoolFrame (s t : State) : Prop where
  package : { t with mem := s.mem, dies := s.dies, links := s.links, cores := s.cores, serai := s.serai } = s
  serai : { t.serai with
    raised := s.serai.raised, nextFrame := s.serai.nextFrame, freed := s.serai.freed, images := s.serai.images } = s.serai

theorem PoolFrame.refl (s : State) : PoolFrame s s := ⟨rfl, rfl⟩

theorem PoolFrame.trans {s t u : State} (h : PoolFrame s t) (h' : PoolFrame t u) : PoolFrame s u where
  package := (congrArg (fun v : State => { v with mem := s.mem, dies := s.dies, links := s.links, cores := s.cores, serai := s.serai })
    h'.package).trans h.package
  serai := (congrArg (fun v : Serai => { v with
    raised := s.serai.raised, nextFrame := s.serai.nextFrame, freed := s.serai.freed, images := s.serai.images }) h'.serai).trans h.serai

theorem ServiceFrame.pool {s t : State} (h : ServiceFrame s t) : PoolFrame s t where
  package := h.package
  serai := (congrArg (fun v : Serai => { v with images := s.serai.images }) h.serai :)

theorem mapCtxs_pool (s : State) (f : Ctx → Ctx) : PoolFrame s (mapCtxs s f) := ⟨rfl, rfl⟩

theorem placePoolTile_pool (s : State) (pid tile : Nat) : PoolFrame s (placePoolTile s pid tile) := by
  unfold placePoolTile
  split
  · exact .refl s
  split
  · exact .refl s
  dsimp only
  split
  · exact (putFrame_service ..).pool.trans (mapCtxs_pool ..)
  · exact (putFrame_service ..).pool

theorem placePool_pool (s : State) (pid : Nat) (l : List Nat) : PoolFrame s (placePool s pid l) := by
  induction l generalizing s with
  | nil => exact .refl s
  | cons t r ih => exact (placePoolTile_pool s pid t).trans (ih _)

theorem wholePool_pool (s : State) (pid : Nat) : PoolFrame s (wholePool s pid) := by
  unfold wholePool
  split
  · exact placePool_pool ..
  · exact .refl s

theorem wholePool_none {s : State} {pid : Nat} (h : (getProc s pid).pool = none) : wholePool s pid = s := by rw [wholePool, h]

/-! ### Indices and tasks that enter (R220, R223, R230) -/

/-- Index `n` of a manifest is live with its one task, and waits for at least the signals that its record expects. -/
def IndexEntered (s : State) (m : Manifest) (n : Nat) : Prop :=
  ∃ ix, getIndex s (idxKey m.seq n) = some ix ∧ ix.isLive = true ∧ ix.live = 1 ∧ (recFor m n).expcnt ≤ ix.counter

/-- Entry `e` holds the whole task of index `n` of a manifest. -/
def TaskEntered (s : State) (m : Manifest) (n e : Nat) : Prop :=
  ∃ t, getTask s e = some t ∧ t.seq = m.seq ∧ t.index = n ∧ t.depth = 0 ∧ t.lo = (recFor m n).origin

theorem idxKey_inj {q : BitVec 32} {i j : Nat} (h : idxKey q i = idxKey q j) : i = j := Nat.add_left_cancel h

theorem enterIndex_tables (s : State) (m : Manifest) (i e : Nat) : { enterIndex s m i e with serai := s.serai } = s ∧
    { (enterIndex s m i e).serai with indices := s.serai.indices, tasks := s.serai.tasks } = s.serai := ⟨rfl, rfl⟩

theorem enterIndex_self (s : State) {m : Manifest} {n : Nat} (e : Nat) (h : n < m.ntask) : IndexEntered (enterIndex s m n e) m n := by
  refine ⟨_, getIndex_putIndex_self .., rfl, rfl, ?_⟩
  dsimp only
  rw [if_pos h]
  exact Nat.le_add_right ..

theorem enterIndex_keeps {s : State} {m : Manifest} {n : Nat} (i e : Nat) (h : n < m.ntask) (hs : IndexEntered s m n) :
    IndexEntered (enterIndex s m i e) m n := by
  by_cases hi : n = i
  · rw [← hi]
    exact enterIndex_self s e h
  · obtain ⟨ix, hix, hrest⟩ := hs
    exact ⟨ix, (getIndex_putIndex_ne s _ fun hk => hi (idxKey_inj hk)).trans hix, hrest⟩

theorem enterIndices_tables (s : State) (m : Manifest) (l : List (Nat × Nat)) : { enterIndices s m l with serai := s.serai } = s ∧
    { (enterIndices s m l).serai with indices := s.serai.indices, tasks := s.serai.tasks } = s.serai := by
  induction l generalizing s with
  | nil => exact ⟨rfl, rfl⟩
  | cons p r ih =>
    obtain ⟨hs, ht⟩ := ih (enterIndex s m p.1 p.2)
    exact ⟨(congrArg (fun v : State => { v with serai := s.serai }) hs :),
      (congrArg (fun v : Serai => { v with indices := s.serai.indices, tasks := s.serai.tasks }) ht :)⟩

theorem enterIndices_keeps {s : State} {m : Manifest} {n : Nat} (l : List (Nat × Nat)) (h : n < m.ntask) (hs : IndexEntered s m n) :
    IndexEntered (enterIndices s m l) m n := by
  induction l generalizing s with
  | nil => exact hs
  | cons p r ih => exact ih (enterIndex_keeps p.1 p.2 h hs)

theorem enterIndices_index {m : Manifest} {n e : Nat} {l : List (Nat × Nat)} (s : State) (h : n < m.ntask) (hl : (n, e) ∈ l) :
    IndexEntered (enterIndices s m l) m n := by
  induction l generalizing s with
  | nil => cases hl
  | cons p r ih =>
    rcases List.mem_cons.mp hl with rfl | hr
    · exact enterIndices_keeps r h (enterIndex_self s e h)
    · exact ih _ hr

theorem enterIndices_task_ne {m : Manifest} {e : Nat} {l : List (Nat × Nat)} (s : State) (h : e ∉ l.map Prod.snd) :
    getTask (enterIndices s m l) e = getTask s e := by
  induction l generalizing s with
  | nil => rfl
  | cons p r ih =>
    obtain ⟨hp, hr⟩ := not_or.mp (List.mem_cons.not.mp h)
    exact (ih _ hr).trans (getTask_putTask_ne _ _ hp)

/-- With distinct entries every task stands in the entry that it took. -/
theorem enterIndices_task {m : Manifest} {n e : Nat} {l : List (Nat × Nat)} (s : State) (hd : (l.map Prod.snd).Nodup) (hl : (n, e) ∈ l) :
    TaskEntered (enterIndices s m l) m n e := by
  induction l generalizing s with
  | nil => cases hl
  | cons p r ih =>
    obtain ⟨hp, hr⟩ := List.nodup_cons.mp hd
    rcases List.mem_cons.mp hl with rfl | hin
    · exact ⟨_, (enterIndices_task_ne _ hp).trans (getTask_putTask_self ..), rfl, rfl, rfl, rfl⟩
    · exact ih _ hr hin

theorem nodup_snd_zip {l r : List Nat} (h : r.Nodup) : ((l.zip r).map Prod.snd).Nodup := by
  induction l generalizing r with
  | nil => exact List.nodup_nil
  | cons a l ih =>
    cases r with
    | nil => exact List.nodup_nil
    | cons b r =>
      obtain ⟨hb, hr⟩ := List.nodup_cons.mp h
      refine List.nodup_cons.mpr ⟨fun hmem => ?_, ih hr⟩
      obtain ⟨p, hp, rfl⟩ := List.mem_map.mp hmem
      exact hb (List.of_mem_zip hp).2

theorem mem_zip_of_mem {l r : List Nat} {n : Nat} (h : n ∈ l) (hlen : l.length ≤ r.length) : ∃ e, (n, e) ∈ l.zip r := by
  rw [← List.map_fst_zip hlen] at h
  obtain ⟨p, hp, rfl⟩ := List.mem_map.mp h
  exact ⟨p.2, hp⟩

theorem enterCaravans_tables (s : State) (m : Manifest) (l : List Nat) :
    { enterCaravans s m l with serai := s.serai } = s ∧ { (enterCaravans s m l).serai with caravans := s.serai.caravans } = s.serai := by
  induction l generalizing s with
  | nil => exact ⟨rfl, rfl⟩
  | cons v r ih =>
    obtain ⟨hs, ht⟩ := ih (putCaravan s m.seq v (freshCaravan m.seq v [0, 0, 0, 0] (recFor m (memberIndex m v 0)).extent))
    exact ⟨(congrArg (fun v : State => { v with serai := s.serai }) hs :),
      (congrArg (fun v : Serai => { v with caravans := s.serai.caravans }) ht :)⟩

theorem readyFirst_readyFrame (s : State) (l : List Nat) : ReadyFrame s (readyFirst s l) := by
  induction l generalizing s with
  | nil => exact .refl s
  | cons k r ih =>
    refine ReadyFrame.trans ?_ (ih _)
    split
    · split
      · exact readyIndex_readyFrame ..
      · exact .refl s
    · exact .refl s

section
variable {s t : State} {m : Manifest} {n e : Nat} (h : ReadyFrame s t)
include h

theorem ReadyFrame.indexEntered (hs : IndexEntered s m n) : IndexEntered t m n := by
  obtain ⟨ix, hix, hlive, hone, hc⟩ := hs
  have hk := h.index (idxKey m.seq n)
  rw [hix] at hk
  obtain ⟨iy, hiy, heq⟩ := Option.map_eq_some_iff.mp hk
  have hcount : iy.counter = ix.counter := (congrArg Index.counter heq :)
  exact ⟨iy, hiy, (congrArg Index.isLive heq :).trans hlive, (congrArg Index.live heq :).trans hone, hcount ▸ hc⟩

theorem ReadyFrame.taskEntered (hs : TaskEntered s m n e) : TaskEntered t m n e := by
  obtain ⟨a, ha, hseq, hindex, hdepth, hlo⟩ := hs
  have hk := h.task e
  rw [ha] at hk
  obtain ⟨b, hb, heq⟩ := Option.map_eq_some_iff.mp hk
  exact ⟨b, hb, (congrArg Task.seq heq :).trans hseq, (congrArg Task.index heq :).trans hindex, (congrArg Task.depth heq :).trans hdepth,
    (congrArg Task.lo heq :).trans hlo⟩

end

/-! ### A manifest enters (R213, R223) -/

/-- The indices of a manifest that run in this package, outer outriders included. -/
def enteringIndices (s : State) (m : Manifest) : List Nat := List.range (indexCount m) ++ outerTasks s m

/-- The numbers of its caravans, and the manifest as it enters. -/
def enteringCars (m : Manifest) : List Nat := if m.coded then List.range (m.ntask / codeK m) else []

def enteringManifest (s : State) (m : Manifest) (inst : Nat) : Manifest := { m with
  entered := true, inst0 := inst, root := (enteringIndices s m).length, ncar := (enteringCars m).length
  replicas := (enteringCars m).filter (replicates s m) }

/-- The state before any index of an entering manifest is looked at for readiness. -/
def indicesEntered (s : State) (m : Manifest) (free : List Nat) : State :=
  enterIndices (putManifest s m) m ((enteringIndices s m).zip free)

def caravansEntered (s : State) (m : Manifest) (free : List Nat) : State :=
  enterCaravans (indicesEntered s m free) m (enteringCars m ++ if outerCoded m then [outerNo] else [])

theorem enterManifest_eq (s : State) (m : Manifest) (inst : Nat) (free : List Nat) :
    let b := wholePool s m.pid
    enterManifest s m inst free =
      readyFirst (caravansEntered b (enteringManifest b m inst) free) ((List.range m.ntask).map (idxKey m.seq)) := rfl

theorem outerTasks_congr {s t : State} (h : t.pkg = s.pkg) (m : Manifest) : outerTasks t m = outerTasks s m := by
  rw [outerTasks, outerTasks, outerPlace, outerPlace, pkgNo, pkgNo, h]

theorem ntask_le_indexCount (m : Manifest) : m.ntask ≤ indexCount m := Nat.le_add_right ..

theorem freeEntries_nodup (s : State) : (freeEntries s).Nodup := List.Nodup.filter _ List.nodup_range

theorem indicesEntered_tables (s : State) (m : Manifest) (free : List Nat) :
    { indicesEntered s m free with serai := s.serai } = s ∧
    { (indicesEntered s m free).serai with indices := s.serai.indices, tasks := s.serai.tasks } =
      { s.serai with manifests := s.serai.manifests.set m.seq.toNat m } := by
  obtain ⟨hs, ht⟩ := enterIndices_tables (putManifest s m) m ((enteringIndices s m).zip free)
  exact ⟨(congrArg (fun v : State => { v with serai := s.serai }) hs :), ht⟩

theorem caravansEntered_tables (s : State) (m : Manifest) (free : List Nat) :
    { caravansEntered s m free with serai := s.serai } = s ∧
    { (caravansEntered s m free).serai with indices := s.serai.indices, tasks := s.serai.tasks, caravans := s.serai.caravans } =
      { s.serai with manifests := s.serai.manifests.set m.seq.toNat m } := by
  obtain ⟨hs, ht⟩ := indicesEntered_tables s m free
  obtain ⟨hs', ht'⟩ := enterCaravans_tables (indicesEntered s m free) m (enteringCars m ++ if outerCoded m then [outerNo] else [])
  exact ⟨(congrArg (fun v : State => { v with serai := s.serai }) hs').trans hs,
    (congrArg (fun v : Serai => { v with indices := s.serai.indices, tasks := s.serai.tasks, caravans := s.serai.caravans }) ht').trans
      (congrArg (fun v : Serai => { v with caravans := s.serai.caravans }) ht :)⟩

/-- Every index below NTASK enters with its task in an entry of its own. -/
theorem caravansEntered_entered {s : State} {m : Manifest} {free : List Nat} {n : Nat} (hd : free.Nodup)
    (hlen : (enteringIndices s m).length ≤ free.length) (hn : n < m.ntask) :
    IndexEntered (caravansEntered s m free) m n ∧ ∃ e, TaskEntered (caravansEntered s m free) m n e := by
  have hmem : n ∈ enteringIndices s m := List.mem_append_left _ (List.mem_range.mpr (hn.trans_le (ntask_le_indexCount m)))
  obtain ⟨e, he⟩ := mem_zip_of_mem hmem hlen
  obtain ⟨-, ht⟩ := enterCaravans_tables (indicesEntered s m free) m (enteringCars m ++ if outerCoded m then [outerNo] else [])
  have hindices : (caravansEntered s m free).serai.indices = (indicesEntered s m free).serai.indices := (congrArg Serai.indices ht :)
  have htasks : (caravansEntered s m free).serai.tasks = (indicesEntered s m free).serai.tasks := (congrArg Serai.tasks ht :)
  refine ⟨?_, e, ?_⟩
  · rw [IndexEntered, getIndex, hindices]
    exact enterIndices_index _ hn he
  · rw [TaskEntered, getTask, htasks]
    exact enterIndices_task _ (nodup_snd_zip hd) he

/-- The record of a declared index does not depend on what entering adds to its manifest. -/
theorem recFor_enteringManifest (s : State) {m : Manifest} (inst : Nat) {n : Nat} (h : n < m.ntask) :
    recFor (enteringManifest s m inst) n = recFor m n := by
  have hn : recIndex m n = n := if_pos h
  have hn' : recIndex (enteringManifest s m inst) n = n := if_pos h
  rw [recFor, recFor, hn, hn']
  rfl

/-- What a manifest that enters leaves: `free` are the entries that its tasks take. -/
theorem enterManifest_spec {s : State} {m : Manifest} {inst : Nat} {free : List Nat} (hd : free.Nodup)
    (hlen : (enteringIndices s m).length ≤ free.length) : ∃ m', manifestOf (enterManifest s m inst free) m.seq = some m' ∧
      m'.entered = true ∧ m'.root = (enteringIndices s m).length ∧ m'.inst0 = inst ∧ m'.entry = m.entry ∧
      (enterManifest s m inst free).serai.mseq = s.serai.mseq ∧ (enterManifest s m inst free).serai.launches = s.serai.launches ∧
      (enterManifest s m inst free).host = s.host ∧ ((getProc s m.pid).pool = none → (enterManifest s m inst free).mem = s.mem) ∧
      ∀ n, n < m.ntask → IndexEntered (enterManifest s m inst free) m n ∧ ∃ e, TaskEntered (enterManifest s m inst free) m n e := by
  have hpool := wholePool_pool s m.pid
  rw [enterManifest_eq]
  generalize hb : wholePool s m.pid = b at hpool
  have hpkg : b.pkg = s.pkg := (congrArg State.pkg hpool.package :)
  have hall : enteringIndices b m = enteringIndices s m := by rw [enteringIndices, outerTasks_congr hpkg, enteringIndices]
  obtain ⟨hstate, htables⟩ := caravansEntered_tables b (enteringManifest b m inst) free
  have hready := readyFirst_readyFrame (caravansEntered b (enteringManifest b m inst) free) ((List.range m.ntask).map (idxKey m.seq))
  have hlen' : (enteringIndices b (enteringManifest b m inst)).length ≤ free.length := by
    rw [show enteringIndices b (enteringManifest b m inst) = enteringIndices b m from rfl, hall]
    exact hlen
  refine ⟨enteringManifest b m inst, ?_, rfl, congrArg List.length hall, rfl, rfl, ?_, ?_, ?_, fun hnone => ?_, fun n hn => ?_⟩
  · rw [manifestOf, (congrArg Serai.manifests hready.serai :), (congrArg Serai.manifests htables :)]
    exact Tab.find_set_self ..
  · rw [(congrArg Serai.mseq hready.serai :), (congrArg Serai.mseq htables :)]
    exact (congrArg Serai.mseq hpool.serai :)
  · rw [(congrArg Serai.launches hready.serai :), (congrArg Serai.launches htables :)]
    exact (congrArg Serai.launches hpool.serai :)
  · rw [(congrArg State.host hready.package :), (congrArg State.host hstate :)]
    exact (congrArg State.host hpool.package :)
  · rw [(congrArg State.mem hready.package :), (congrArg State.mem hstate :), ← hb, wholePool_none hnone]
  · obtain ⟨hindex, e, htask⟩ := caravansEntered_entered hd hlen' (n := n) hn
    have hrec := recFor_enteringManifest b inst hn
    unfold IndexEntered TaskEntered
    rw [← hrec]
    exact ⟨hready.indexEntered hindex, e, hready.taskEntered htask⟩

/-! ### The row (R196, R210, R311) -/

theorem exec_manifestEntry (s : State) : exec .manifestEntry s = .next (manifestEntry s) := rfl

theorem tryEnter_none {s : State} (h : s.serai.launches = []) : tryEnter s = (s, false) := by
  simp only [tryEnter, nextEntry, h, List.filterMap_nil, List.foldl_nil]

theorem manifestEntry_none {s : State} (h : s.serai.launches = []) : manifestEntry s = s := by
  simp only [manifestEntry, h, List.find?_nil, tryEnter_none h, List.isEmpty_nil, if_true]

/-- The row takes the first launch that is ready; when none then waits, it sets no timer. -/
theorem manifestEntry_take {s u : State} {l : Launch} {b : Bool} (hl : s.serai.launches.find? (launchReady s) = some l)
    (ht : tryEnter (takeLaunch s l) = (u, b)) (hu : u.serai.launches = []) : manifestEntry s = u := by
  simp only [manifestEntry, hl, ht, hu, List.isEmpty_nil, if_true]

/-- The state in which a launch has taken its sequence number. -/
def numbered (s : State) : State := { s with serai := { s.serai with mseq := s.serai.mseq + 1 } }

/-- The manifest that a host's launch names, as the Serai has read it, and whether it accepts the image. -/
def launchImage (s : State) (l : Launch) : Manifest × Bool := readManifest (numbered s) l.pid l.pid l.addr l.cap s.serai.mseq

def launchManifest (s : State) (l : Launch) : Manifest := { (launchImage s l).1 with fabric := false, bad := !(launchImage s l).2 }

/-- The state in which the manifest of a launch stands in the Serai, which lists the launches `ls`. -/
def launchRead (s : State) (l : Launch) (ls : List Launch) : State :=
  { numbered s with serai := { (numbered s).serai with
    manifests := s.serai.manifests.set s.serai.mseq.toNat (launchManifest s l), launches := ls } }

theorem manifestOf_launchRead (s : State) (l : Launch) (ls : List Launch) :
    manifestOf (launchRead s l ls) s.serai.mseq = some (launchManifest s l) := Tab.find_set_self ..

section
variable {s : State} {l : Launch} (hls : s.serai.launches = [l]) (hseq : l.seq = none) (htask : l.byTask = false)
  (hfab : l.fabric = false)

include htask in
theorem answerLaunch_of_host (u : State) (q : BitVec 32) : answerLaunch u l q = u := by
  unfold answerLaunch
  rw [htask]
  split
  · exact if_pos (Or.inr rfl)
  · rfl

include hls htask hfab in
theorem takeLaunch_of_host : takeLaunch s l =
    if (launchImage s l).2 then launchRead s l [{ l with seq := some s.serai.mseq }] else finishRoot (launchRead s l []) s.serai.mseq := by
  have hput : ∀ g, (setSerai (putManifest (numbered s) (launchManifest s l)) fun z =>
      { z with launches := replaceLaunch (· == l) g z.launches }) = launchRead s l (g l) := fun g => by
    simp only [setSerai, putManifest, numbered, launchRead, hls, replaceLaunch, beq_self_eq_true, if_true, List.append_nil]
    rfl
  conv_lhs =>
    unfold takeLaunch
    simp only [htask, hfab, Bool.false_eq_true, if_false, answerLaunch_of_host htask]
  exact if_congr Iff.rfl (hput fun o => [{ o with seq := some s.serai.mseq }]) (congrArg (finishRoot · s.serai.mseq) (hput fun _ => []))

include hls hseq htask in
theorem find_launchReady (hroom : s.host.reports.length < Config.reportStore) : s.serai.launches.find? (launchReady s) = some l := by
  have hready : launchReady s l = true := by simp [launchReady, storeFull, hseq, htask, hroom]
  rw [hls, List.find?_cons_of_pos hready]

include hls hseq htask hfab

/-- A refused image: the manifest has ended, and no launch waits. -/
theorem manifestEntry_refused (hroom : s.host.reports.length < Config.reportStore) (hbad : (launchImage s l).2 = false) :
    manifestEntry s = finishRoot (launchRead s l []) s.serai.mseq := by
  have hempty : (finishRoot (launchRead s l []) s.serai.mseq).serai.launches = [] := by
    obtain ⟨-, hl, -⟩ := finishRoot_serai (manifestOf_launchRead s l [])
    exact hl
  refine manifestEntry_take (find_launchReady hls hseq htask hroom) (b := false) ?_ hempty
  rw [takeLaunch_of_host hls htask hfab, hbad, if_neg Bool.false_ne_true, tryEnter_none hempty]

/-- An accepted image with room in the dependence table and a part of the package chosen to run it: the manifest has entered, and no launch waits. -/
theorem manifestEntry_enters {i : Nat} (hroom : s.host.reports.length < Config.reportStore) (hgood : (launchImage s l).2 = true) :
    let l' := { l with seq := some s.serai.mseq }
    let w := launchRead s l [l']
    let m := launchManifest s l
    (enteringIndices w m).length ≤ (freeEntries w).length → chooseInstance w m l' = some i →
      manifestEntry s = setSerai (enterManifest w m i (freeEntries w)) fun z => { z with launches := [] } := by
  intro l' w m hfree hinst
  have hlen : indexCount m + (outerTasks w m).length = (enteringIndices w m).length := by
    rw [enteringIndices, List.length_append, List.length_range]
  have hnext : nextEntry w = some (l', s.serai.mseq) := rfl
  have hent : (enterManifest w m i (freeEntries w)).serai.launches = [l'] := by
    obtain ⟨_, -, -, -, -, -, -, hl, -⟩ := enterManifest_spec (inst := i) (freeEntries_nodup w) hfree
    exact hl
  have hdrop : (setSerai (enterManifest w m i (freeEntries w)) fun z => { z with launches := replaceLaunch (· == l') (fun _ => []) z.launches }) =
      setSerai (enterManifest w m i (freeEntries w)) fun z => { z with launches := [] } := by
    simp only [setSerai, hent, replaceLaunch, beq_self_eq_true, if_true, List.append_nil]
  have htry : tryEnter w = (setSerai (enterManifest w m i (freeEntries w)) fun z => { z with launches := [] }, true) := by
    rw [tryEnter, hnext]
    dsimp only
    rw [manifestOf_launchRead]
    dsimp only
    rw [if_neg (by rw [hlen]; omega), hinst]
    exact congrArg (·, true) hdrop
  refine manifestEntry_take (find_launchReady hls hseq htask hroom) (b := true) ?_ rfl
  rw [takeLaunch_of_host hls htask hfab, hgood, if_pos rfl, htry]

end

/-- Settles O43: the one launch that waits is refused at once, or enters with every index live. -/
theorem manifestsEnter : Obligations.ManifestsEnter := by
  unfold Obligations.ManifestsEnter
  refine fun s => ⟨fun h => ?none, fun l hls hseq htask hfab hroom => ⟨fun hbad => ?refused, fun i hgood hfree hinst => ?enters⟩⟩
  case none => rw [exec_manifestEntry, manifestEntry_none h]
  case refused =>
    obtain ⟨hm, hl, hgone, hraised⟩ := finishRoot_serai (manifestOf_launchRead s l [])
    refine ⟨_, rootPayload (launchRead s l []) (launchManifest s l) s.serai.mseq, exec_manifestEntry s, ?_⟩
    rw [manifestEntry_refused hls hseq htask hfab hroom hbad]
    exact ⟨hm, hl, hgone, hraised, rootPayload_cases ..⟩
  case enters =>
    have hlen : indexCount (launchManifest s l) + (outerTasks (launchRead s l [{ l with seq := some s.serai.mseq }]) (launchManifest s l)).length =
        (enteringIndices (launchRead s l [{ l with seq := some s.serai.mseq }]) (launchManifest s l)).length := by
      rw [enteringIndices, List.length_append, List.length_range]
    have hfree' := hlen.symm.trans_le hfree
    obtain ⟨m', hm', hent, hroot, hinst0, hentry, hmseq, -, hhost, hmem, htasks⟩ := enterManifest_spec (inst := i) (freeEntries_nodup _) hfree'
    refine ⟨_, m', exec_manifestEntry s, ?_⟩
    rw [manifestEntry_enters hls hseq htask hfab hroom hgood hfree' hinst]
    refine ⟨hmseq, rfl, hm', hent, hroot.trans hlen.symm, hinst0, hentry, hmem, hhost, fun n hn => ?_⟩
    obtain ⟨⟨ix, hix, hlive, hone, hcount⟩, e, t, ht, htseq, hindex, hdepth, hlo⟩ := htasks n hn
    exact ⟨ix, e, t, hix, hlive, hone, hcount, ht, htseq, hindex, hdepth, hlo⟩


end Sys2Proof.Machine
end

section
/-! SUPPORT. Proofs about the retirement of tasks and the publication of their tiles (R201, R222, R256, R348). -/

namespace Sys2Proof.Machine

/-! ### A context that leaves (R201, R160) -/

/-- `t` has the memory of `s` and the Serai of `s`. -/
structure SameTables (s t : State) : Prop where
  mem : t.mem = s.mem
  serai : t.serai = s.serai

theorem SameTables.refl (s : State) : SameTables s s := ⟨rfl, rfl⟩

theorem SameTables.trans {s t u : State} (h : SameTables s t) (h' : SameTables t u) : SameTables s u :=
  ⟨h'.mem.trans h.mem, h'.serai.trans h.serai⟩

theorem setPair_tables (s : State) (p : Nat) (v : Pair) : SameTables s (setPair s p v) := ⟨rfl, rfl⟩

theorem setCore_tables (s : State) (c : Nat) (v : Core) : SameTables s (setCore s c v) := ⟨rfl, rfl⟩

theorem setCtx_tables (s : State) (c x : Nat) (k : Ctx) : SameTables s (setCtx s c x k) := ⟨rfl, rfl⟩

theorem after_tables (s : State) (n : Nat) (i : Due) : SameTables s (after s n i) := ⟨rfl, rfl⟩

theorem carry_tables (s : State) (a b : Nat) (m : MsgBody) : SameTables s (carry s a b m) :=
  ⟨carry_mem .., (carry_frame ..).serai⟩

theorem licNext_tables (s : State) (pr c : Nat) (twin : Bool) : SameTables s (licNext s pr c twin) := setPair_tables ..

theorem markGrant_tables (s : State) (r : LicReq) : SameTables s (markGrant s r) := by
  unfold markGrant
  split
  · exact .refl s
  · exact setCtx_tables ..

theorem startRestore_tables (s : State) (c x : Nat) : SameTables s (startRestore s c x) := by
  unfold startRestore
  split
  · exact (carry_tables s (coreEnd (twinOf c)) (coreEnd c) .plain).trans ((setCtx_tables ..).trans (after_tables ..))
  · exact .refl s

theorem altNext_tables (s : State) (pr c : Nat) : SameTables s (altNext s pr c) := by
  unfold altNext
  dsimp only
  split
  · exact (markGrant_tables ..).trans ((setPair_tables ..).trans (startRestore_tables ..))
  · exact setPair_tables ..

theorem licReturn_tables (s : State) (c x : Nat) (twin : Bool) : SameTables s (licReturn s c x twin) := by
  unfold licReturn
  dsimp only
  split
  · split
    · exact altNext_tables ..
    · exact .refl s
  split
  · exact licNext_tables ..
  split
  · split
    · exact licNext_tables ..
    · exact .refl s
  · exact .refl s

theorem licRelease_tables (s : State) (c x : Nat) (twin : Bool) : SameTables s (licRelease s c x twin) := by
  unfold licRelease
  split
  · exact (setCore_tables s c _).trans ((setPair_tables ..).trans (licReturn_tables ..))
  · exact .refl s

theorem licWithdraw_tables (s : State) (c x : Nat) : SameTables s (licWithdraw s c x) := setPair_tables ..

theorem dropParked_tables (s : State) (c x : Nat) : SameTables s (dropParked s c x) := by
  unfold dropParked
  dsimp only
  split
  · split
    · exact setCore_tables ..
    · exact .refl s
  · exact .refl s

theorem freeParkedLicence_tables (s : State) (c x : Nat) : SameTables s (freeParkedLicence s c x) := by
  unfold freeParkedLicence
  dsimp only
  split
  · exact licNext_tables ..
  · exact .refl s

theorem dropIssue_tables (s : State) (c x : Nat) : SameTables s (dropIssue s c x) := by
  unfold dropIssue
  split
  · exact ⟨rfl, rfl⟩
  · exact .refl s

theorem getCtx_dropIssue (s : State) (c x d y : Nat) : getCtx (dropIssue s c x) d y = getCtx s d y := by
  unfold dropIssue
  split <;> rfl

/-- A context that leaves touches neither memory nor the Serai. -/
theorem vacate_tables (s : State) (c x : Nat) : SameTables s (vacate s c x) :=
  (licRelease_tables s c x false).trans <| (licWithdraw_tables ..).trans <| (licReturn_tables _ c x false).trans <| (dropParked_tables ..).trans <|
    (freeParkedLicence_tables ..).trans <| (setCore_tables ..).trans <| (setCtx_tables ..).trans (dropIssue_tables ..)

/-- The context that leaves holds no task. -/
theorem getCtx_vacate_self (s : State) (c x : Nat) : ∃ k, getCtx (vacate s c x) c x = freedCtx k :=
  ⟨_, (getCtx_dropIssue ..).trans (getCtx_setCtx_self ..)⟩

/-! ### Frames that are given back (R222, R242) -/

theorem freeFrame_service (s : State) (f : Nat) : ServiceFrame s (freeFrame s f) :=
  (dropCopies_service s f 65536).trans ⟨rfl, rfl, fun _ _ => rfl, .of_dies rfl⟩

theorem freeFrames_service (s : State) (l : List (Nat × Nat)) : ServiceFrame s (freeFrames s l) := by
  induction l generalizing s with
  | nil => exact .refl s
  | cons f r ih => exact (freeFrame_service s f.2).trans (ih _)

theorem freeFrames_mem (s : State) (l : List (Nat × Nat)) : (freeFrames s l).mem = s.mem := by
  induction l generalizing s with
  | nil => rfl
  | cons f r ih => exact ih _

theorem freeFrames_reads (s : State) (l : List (Nat × Nat)) : (freeFrames s l).serai.tasks = s.serai.tasks ∧
    (freeFrames s l).serai.indices = s.serai.indices :=
  ⟨(congrArg Serai.tasks (freeFrames_service s l).serai :), (congrArg Serai.indices (freeFrames_service s l).serai :)⟩

theorem ServiceFrame.ctx_field {α : Type} {s t : State} (h : ServiceFrame s t) (f : Ctx → α) (hf : ∀ k m, f { k with mon := m } = f k)
    (c x : Nat) : f (getCtx t c x) = f (getCtx s c x) :=
  (hf _ _).symm.trans (congrArg f (h.ctx c x))

theorem dropSpares_some {s : State} {e : Nat} {t : Task} (h : getTask s e = some t) :
    dropSpares s e = putTask (freeFrames s t.spares) e { t with spares := [] } := by
  rw [dropSpares, h]

theorem getCtx_putTask (s : State) (e : Nat) (t : Task) (c x : Nat) : getCtx (putTask s e t) c x = getCtx s c x := rfl

theorem getCtx_orphanRequests (s : State) (e c x : Nat) : getCtx (orphanRequests s e) c x = getCtx s c x := rfl

theorem getTask_orphanRequests (s : State) (e f : Nat) : getTask (orphanRequests s e) f = getTask s f := rfl

theorem orphanRequests_mem (s : State) (e : Nat) : (orphanRequests s e).mem = s.mem := rfl

/-! ### The retirement of a task (R201, R222, R348) -/

theorem exec_taskRetirement (s : State) (c x : Nat) : exec (.taskRetirement c x) s = .next (retireTask s c x) := rfl

theorem retireTask_of_not {s : State} {c x : Nat} (h : retires s c x = false) : retireTask s c x = s := by
  rw [retireTask, h]
  rfl

theorem retireTask_ghost {s : State} {c x : Nat} (h : retires s c x = true) (hg : (getCtx s c x).ghost = true) :
    retireTask s c x = endGhost s c x := by
  rw [retireTask, h, hg]
  rfl

/-- A replayed task leaves its context; tasks and indices stay (log entry 18). -/
theorem endGhost_spec (s : State) (c x : Nat) : (getCtx (endGhost s c x) c x).status = .free ∧
    (endGhost s c x).serai.tasks = s.serai.tasks ∧ (endGhost s c x).serai.indices = s.serai.indices := by
  rw [endGhost]
  generalize (getCtx s c x).outFrames.map (fun f => (f.key, f.frame)) = l
  obtain ⟨k, hk⟩ := getCtx_vacate_self (freeFrames s l) c x
  obtain ⟨htasks, hindices⟩ := freeFrames_reads s l
  rw [hk, (vacate_tables ..).serai]
  exact ⟨rfl, htasks, hindices⟩

/-- With no output frames nothing is published at the retirement but the context itself written back. -/
theorem publishFrames_nil (s : State) (c x : Nat) :
    publishFrames s c x [] = setAny s c x { getAny s c x with outFrames := (getAny s c x).outFrames.filter fun f => !([] : List OutFrame).contains f } := rfl

theorem publishFrames_nil_tables {s : State} {c x : Nat} (h : x < 4) : SameTables s (publishFrames s c x []) := by
  rw [publishFrames_nil, setAny_of_lt _ _ _ h]
  exact setCtx_tables ..

/-- The state in which the context of a retiring task is free, and what the task sent or kept in reserve is given up. -/
def taskLeft (s : State) (c x e : Nat) : State := orphanRequests (dropSpares (vacate (publishFrames s c x []) c x) e) e

/-- The task as it goes on to publication. -/
def retiredTask (t : Task) (k : Ctx) : Task := { t with st := .publishing, under := k.live.underzero, sat := k.live.satblk, spares := [] }

section
variable {s : State} {c x e : Nat} {t : Task} (hx : x < 4) (ht : getTask s e = some t)
include hx ht

theorem taskLeft_task : getTask (taskLeft s c x e) e = some { t with spares := [] } := by
  have hs : getTask (vacate (publishFrames s c x []) c x) e = some t := by
    rw [getTask, (vacate_tables ..).serai, (publishFrames_nil_tables hx).serai]
    exact ht
  rw [taskLeft, getTask_orphanRequests, dropSpares_some hs, getTask_putTask_self]

theorem taskLeft_mem : (taskLeft s c x e).mem = s.mem := by
  have hs := (publishFrames_nil_tables hx).trans (vacate_tables (publishFrames s c x []) c x)
  have ht' : getTask (vacate (publishFrames s c x []) c x) e = some t := by
    rw [getTask, hs.serai]
    exact ht
  rw [taskLeft, orphanRequests_mem, dropSpares_some ht']
  exact (freeFrames_mem ..).trans hs.mem

theorem taskLeft_ctx : (getCtx (taskLeft s c x e) c x).status = .free ∧ (getCtx (taskLeft s c x e) c x).task = none ∧
    (getCtx (taskLeft s c x e) c x).live = Regs.reset := by
  have hs := (publishFrames_nil_tables hx).trans (vacate_tables (publishFrames s c x []) c x)
  have ht' : getTask (vacate (publishFrames s c x []) c x) e = some t := by
    rw [getTask, hs.serai]
    exact ht
  obtain ⟨k, hk⟩ := getCtx_vacate_self (publishFrames s c x []) c x
  have hf := freeFrames_service (vacate (publishFrames s c x []) c x) t.spares
  rw [taskLeft, getCtx_orphanRequests, dropSpares_some ht', getCtx_putTask, hf.ctx_field Ctx.status fun _ _ => rfl,
    hf.ctx_field Ctx.task fun _ _ => rfl, hf.ctx_field Ctx.live fun _ _ => rfl, hk]
  exact ⟨rfl, rfl, rfl⟩

theorem retireTask_plain (h : retires s c x = true) (hg : (getCtx s c x).ghost = false) (hk : (getCtx s c x).task = some e)
    (hcar : t.car = none) (hix : t.index < outerBase) (hout : (getCtx s c x).outFrames = []) :
    retireTask s c x = putTask (taskLeft s c x e) e (retiredTask t (getCtx s c x)) := by
  have htask := taskLeft_task (c := c) (x := x) hx ht
  rw [taskLeft] at htask
  simp only [retireTask, h, hg, hk, hout, htask, hcar, hix, Bool.not_true, Bool.false_eq_true, if_false, if_true]
  rw [taskLeft, retiredTask, hcar]

end

/-! ### The swap of a frame (R222, R256) -/

theorem PoolFrame.host {s t : State} (h : PoolFrame s t) : t.host = s.host := (congrArg State.host h.package :)

theorem PoolFrame.procs {s t : State} (h : PoolFrame s t) : t.procs = s.procs := (congrArg State.procs h.package :)

theorem exec_tilePublication (s : State) (e : Nat) : exec (.tilePublication e) s = .next (tilePublished s e) := rfl

theorem EngineFrame.pool {s t : State} (h : EngineFrame s t) : PoolFrame s t where
  package := (congrArg (fun v : State => { v with serai := s.serai }) h.package :)
  serai := by rw [h.serai]

theorem flushDies_pool (s : State) (a n : Nat) (l : List Nat) : PoolFrame s (flushDies s a n l) := by
  induction l generalizing s with
  | nil => exact .refl s
  | cons d r ih => exact (writeBackLines_frame s d _).pool.trans (ih _)

theorem dropCopies_pool (s : State) (a n : Nat) : PoolFrame s (dropCopies s a n) := (dropCopies_service ..).pool

theorem fireRange_pool (s : State) (a n : Nat) : PoolFrame s (fireRange s a n) := ⟨rfl, rfl⟩

theorem setMem_pool (s : State) (m : Memory) : PoolFrame s { s with mem := m } := ⟨rfl, rfl⟩

/-- The entry of a tile whose contents are at `f` in this package. -/
def residentEntry (s : State) (f : Nat) : Nat := 2 ^ 62 + pkgNo s * 2 ^ 48 + f / 65536 * 65536

theorem residentEntry_lt (s : State) {f : Nat} (h : f < 2 ^ 40) : residentEntry s f < 2 ^ 64 := by
  have hp : pkgNo s < 256 := (s.pkg.podpos.extractLsb' 48 8).isLt
  unfold residentEntry
  omega

/-- A swap writes the tile's entry; the rest of what it changes are caches, monitors, images and free frames. -/
theorem swapTile_spec {s : State} {pid key f : Nat} {l : Layout} (h : (getProc s pid).tensors.find (key / 2 ^ 48) = some l) :
    PoolFrame s (swapTile s pid key f) ∧
      ∃ m, (swapTile s pid key f).mem = Memory.writeN m (l.ttab + 8 * (key % 2 ^ 48)) (residentEntry s f) 8 := by
  have hflush : PoolFrame s (dropCopies (flushRange s f 65536) f 65536) := (flushDies_pool ..).trans (dropCopies_pool ..)
  rw [swapTile, h]
  dsimp only
  split
  · have hmove (b : Nat) : PoolFrame s (moveAll (fireRange (dropCopies (dropCopies (flushRange s f 65536) f 65536) b 65536) b 65536) b f) :=
      hflush.trans ((dropCopies_pool ..).trans ((fireRange_pool ..).trans (mapCtxs_pool ..)))
    split
    · exact ⟨(hmove _).trans ((setMem_pool ..).trans (freeFrame_service ..).pool), _, rfl⟩
    · exact ⟨(hmove _).trans (setMem_pool ..), _, rfl⟩
  · exact ⟨hflush.trans ((mapCtxs_pool ..).trans ((fireRange_pool ..).trans (setMem_pool ..))), _, rfl⟩

theorem swapTile_entry {s : State} {pid key f : Nat} {l : Layout} (h : (getProc s pid).tensors.find (key / 2 ^ 48) = some l)
    (hf : f < 2 ^ 40) : entryAt (swapTile s pid key f) l (key % 2 ^ 48) = residentEntry s f := by
  obtain ⟨-, m, hm⟩ := swapTile_spec (f := f) h
  rw [entryAt, hm, Memory.readN_writeN]
  exact Nat.mod_eq_of_lt (residentEntry_lt s hf)

/-! ### The publication of a task's tiles (R222) -/

theorem tilePublished_of_not {s : State} {e : Nat} (h : pubMoves s e = false) : tilePublished s e = s := by
  rw [tilePublished, h]
  rfl

/-- The tiles that index `ix` has published once task `t` has published what it can. -/
def publishedThen (s : State) (t : Task) (ix : Index) : List Nat := ix.published ++ (publishable s t).filter fun a => !ix.published.contains a

theorem tilePublished_one {s : State} {e key f : Nat} {t : Task} {ix : Index} (h : pubMoves s e = true) (ht : getTask s e = some t)
    (hix : getIndex s (taskKey t) = some ix) (hlive : ix.isLive = true) (hmore : (runTiles (taskRuns s t)).all (publishedThen s t ix).contains = false)
    (hsh : t.shadows = [(key, f)]) (hkey : key ∈ publishable s t) :
    tilePublished s e = putTask (putIndex (swapTile s t.pid key f) (taskKey t) { ix with published := publishedThen s t ix }) e { t with shadows := [] } := by
  have hnow : (publishable s t).contains key = true := List.contains_iff_mem.mpr hkey
  have hrest : allOut s { t with shadows := [] } (publishedThen s t ix) = false := hmore
  rw [tilePublished, h, if_pos rfl, publishTask, ht]
  simp only [hix, hlive, hsh, hnow, Bool.not_true, Bool.false_eq_true, if_false, List.filter_cons, List.filter_nil, if_true]
  rw [publishedThen] at hrest
  rw [hrest]
  rfl

/-- Settles O42: what each of the two rows leaves, by the case of its condition. -/
theorem tasksRetire : Obligations.TasksRetire := by
  unfold Obligations.TasksRetire
  refine fun s c x e t ht => ⟨fun h => ?notYet, fun h hg _ => ?ghost, fun h hg hk hcar hix hout hx => ?retires, fun h => ?still,
    fun ix key f l h hix hlive hmore hsh hkey hl hf => ?publishes⟩
  case notYet => rw [exec_taskRetirement, retireTask_of_not h]
  case ghost =>
    refine ⟨_, exec_taskRetirement s c x, ?_⟩
    rw [retireTask_ghost h hg]
    exact endGhost_spec s c x
  case retires =>
    have hctx := taskLeft_ctx (c := c) hx ht
    have hmem := taskLeft_mem (c := c) hx ht
    refine ⟨_, exec_taskRetirement s c x, ?_⟩
    rw [retireTask_plain hx ht h hg hk hcar hix hout]
    generalize taskLeft s c x e = w at hctx hmem
    obtain ⟨hstatus, hnone, hlive⟩ := hctx
    exact ⟨hstatus, hnone, hlive, getTask_putTask_self .., hmem⟩
  case still => rw [exec_tilePublication, tilePublished_of_not h]
  case publishes =>
    obtain ⟨hpool, -⟩ := swapTile_spec (f := f) hl
    have hentry := swapTile_entry hl hf
    refine ⟨_, exec_tilePublication s e, ?_⟩
    rw [tilePublished_one h ht hix hlive hmore hsh hkey]
    generalize swapTile s t.pid key f = w at hpool hentry
    exact ⟨hentry, getIndex_putIndex_self .., getTask_putTask_self .., hpool.host, hpool.procs⟩

end Sys2Proof.Machine
end

section
/-! SUPPORT. Proofs about MONA, RQPG and CLAIM (R191, R194, R199, R337, R348). -/

namespace Sys2Proof.Machine

/-! ### What a transfer leaves of the package (R337) -/

/-- `t` is `s` but for the links and what the dies have logged and held back of messages. -/
structure TransferFrame (s t : State) : Prop where
  package : { t with dies := s.dies, links := s.links } = s
  die : ∀ d, { getDie t d with log := (getDie s d).log, replay := (getDie s d).replay, inbox := (getDie s d).inbox } = getDie s d

theorem TransferFrame.refl (s : State) : TransferFrame s s := ⟨rfl, fun _ => rfl⟩

theorem TransferFrame.trans {s t u : State} (h : TransferFrame s t) (h' : TransferFrame t u) : TransferFrame s u where
  package := (congrArg (fun v : State => { v with dies := s.dies, links := s.links }) h'.package).trans h.package
  die d := (congrArg (fun v : Die => { v with log := (getDie s d).log, replay := (getDie s d).replay, inbox := (getDie s d).inbox })
    (h'.die d)).trans (h.die d)

theorem setDie_transfer {s : State} {d : Nat} {v : Die}
    (h : { v with log := (getDie s d).log, replay := (getDie s d).replay, inbox := (getDie s d).inbox } = getDie s d) :
    TransferFrame s (setDie s d v) where
  package := rfl
  die e := by
    by_cases he : e = d
    · rw [he, getDie_setDie_self, h]
    · rw [getDie_setDie_ne _ _ _ _ he]

theorem logInbound_transfer (s : State) (a b : Nat) (sq : BitVec 32) (m : MsgBody) : TransferFrame s (logInbound s a b sq m) := by
  unfold logInbound
  split
  · exact setDie_transfer rfl
  · exact .refl s

theorem setLink_transfer (s : State) (a b : Nat) (l : Link) : TransferFrame s (setLink s a b l) := ⟨rfl, fun _ => rfl⟩

theorem carry_transfer (s : State) (a b : Nat) (m : MsgBody) : TransferFrame s (carry s a b m) := by
  unfold carry
  split
  · exact .refl s
  split
  · exact setDie_transfer rfl
  · exact (setLink_transfer ..).trans (logInbound_transfer ..)

theorem carryTo_transfer (s : State) (a : Nat) (m : MsgBody) (l : List Nat) : TransferFrame s (carryTo s a m l) := by
  induction l generalizing s with
  | nil => exact .refl s
  | cons b r ih => exact (carry_transfer s a b m).trans (ih _)

section
variable {s t : State} (h : TransferFrame s t)
include h

theorem TransferFrame.cores : t.cores = s.cores := (congrArg State.cores h.package :)
theorem TransferFrame.focus : t.focus = s.focus := (congrArg State.focus h.package :)
theorem TransferFrame.latch : t.latch = s.latch := (congrArg State.latch h.package :)

theorem TransferFrame.core (c : Nat) : getCore t c = getCore s c := by rw [getCore, getCore, h.cores]

theorem TransferFrame.slotWeight (c : Nat) (i : Instr) : slotWeight t c i = slotWeight s c i := by
  have hprof : profileOf t c = profileOf s c := by
    unfold profileOf getCluster
    rw [(congrArg State.clusters h.package :), (congrArg State.now h.package :), ← h.die (dieOf c)]
  rw [Machine.slotWeight, hprof, Machine.slotWeight]

theorem TransferFrame.readAt (c sc a : Nat) : readAt t c sc a = readAt s c sc a := by
  have hmem : t.mem = s.mem := (congrArg State.mem h.package :)
  have hl2 (d : Nat) : (getDie t d).l2 = (getDie s d).l2 := (congrArg Die.l2 (h.die d) :)
  have hres := resolve_congr s t a hmem (congrArg State.procs h.package :) (congrArg (fun v : State => v.serai.tasks) h.package :)
    (congrArg State.pkg h.package :)
  simp only [Machine.readAt, hres, readPlace, readL1, readL2, hmem, hl2, h.core]

end

/-! ### Slots whose effect begins with a transfer or a message -/

/-- An issue from a state with the cores, the weights and the bytes of `b` is an issue from `b`. -/
theorem Issued.of_base {b b' t u : State} {i : Instr} {k : Ctx} (h : Issued b' t i k (myCore b') u) (hcores : b'.cores = b.cores)
    (hfocus : b'.focus = b.focus) (hlatch : b'.latch = b.latch) (hweight : slotWeight b' b.focus i = slotWeight b b.focus i)
    (hbytes : ∀ c sc a, readAt b' c sc a = readAt b c sc a) : Issued b t i k (myCore b) u := by
  have hcore (c : Nat) : getCore b' c = getCore b c := by rw [getCore, getCore, hcores]
  have hmine : myCore b' = myCore b := by rw [myCore, hfocus, hcore, myCore]
  have hcur : curX b' = curX b := curX_congr hfocus hcores
  obtain ⟨hctx, hothers, hrest, henergy, hfloor, hcs, hpackage, hbuffer, hread⟩ := h
  rw [hcur] at hothers
  rw [hfocus] at hothers henergy hcs
  rw [hmine] at hrest henergy hfloor
  rw [hweight] at henergy
  rw [hlatch] at hbuffer
  refine ⟨hctx, fun x hx => (hothers x hx).trans ?_, hrest, henergy, hfloor, fun c hc => (hcs c hc).trans (hcore c), hpackage, hbuffer,
    fun c sc a => (hread c sc a).trans (hbytes c sc a)⟩
  rw [getCtx, hcore, getCtx]

theorem Issued.of_transfer {b b' t u : State} {i : Instr} {k : Ctx} (h : Issued b' t i k (myCore b') u) (hb : TransferFrame b b') :
    Issued b t i k (myCore b) u :=
  h.of_base hb.cores hb.focus hb.latch (hb.slotWeight ..) hb.readAt

/-! ### MONA (R191) -/

theorem exec_mona (s : State) (h : TH) (a c : Reg) : exec (.mona h a c) s =
    runSlot (.mona h a c) (fun s => armMonitor s (refAdd (readG s a) (readG s c))) s := rfl

/-- The state from which a MONA reads its line: a tile that no frame holds yet is placed first (R191, R109). -/
def monaBase (s : State) (r : Word) (tile : Nat) : State := if onChip (refTid r) then s else placeRead s s.focus (me s) (refTid r) tile

theorem monaBase_frame (s : State) (r : Word) (tile : Nat) : PlaceFrame s (monaBase s r tile) := by
  unfold monaBase
  split
  · exact .refl s
  · exact placeRead_frame ..

section
variable {s : State} {r : Word} {tile off : Nat} (hloc : locate s (me s) r = some (tile, off))
include hloc

theorem armMonitor_absent (hline : monitorLine (monaBase s r tile) r tile off = []) : armMonitor s r =
    setMe (monaBase s r tile) { markNR (me (monaBase s r tile)) [] with mon := ⟨[], .disarmed, false⟩ } := by
  rw [armMonitor, hloc]
  change (if (monitorLine (monaBase s r tile) r tile off).isEmpty then _ else _) = _
  rw [hline, List.isEmpty_nil, if_pos rfl, setFlags_flNR, setMe_setMe, me_setMe]
  rfl

theorem armMonitor_onChip (hline : monitorLine (monaBase s r tile) r tile off ≠ []) (hon : onChip (refTid r) = true) : armMonitor s r =
    setMe (monaBase s r tile) { me (monaBase s r tile) with mon := ⟨monitorLine (monaBase s r tile) r tile off, .armed, true⟩ } := by
  rw [armMonitor, hloc]
  change (if (monitorLine (monaBase s r tile) r tile off).isEmpty then _ else _) = _
  rw [if_neg (List.isEmpty_iff.not.mpr hline), if_pos hon]
  rfl

/-- The state of an arm whose transfer has left for the base dies of its line (R337). -/
def armSent (b : State) (line : List Nat) : State := carryTo b (coreEnd b.focus) .plain (homesOf (line.filterMap (resolve b)))

theorem armMonitor_sent (hline : monitorLine (monaBase s r tile) r tile off ≠ []) (hon : onChip (refTid r) = false) : armMonitor s r =
    later (setMe (armSent (monaBase s r tile) (monitorLine (monaBase s r tile) r tile off))
      { me (monaBase s r tile) with mon := ⟨monitorLine (monaBase s r tile) r tile off, .armed, false⟩ })
      (.monitorArmEstablished (monaBase s r tile).focus (curX (monaBase s r tile))) := by
  have hfr := monaBase_frame s r tile
  rw [armMonitor, hloc]
  change (if (monitorLine (monaBase s r tile) r tile off).isEmpty then _ else _) = _
  rw [if_neg (List.isEmpty_iff.not.mpr hline), if_neg (by rw [hon]; exact Bool.false_ne_true), armSent, hfr.focus, hfr.curX]
  rfl

end

/-! ### RQPG (R194, R348) -/

theorem exec_rqpg (s : State) (h : TH) (d a c : Reg) : exec (.rqpg h d a c) s =
    runSlot (.rqpg h d a c) (fun s => requestPage s d (refAdd (readG s a) (readG s c))) s := rfl

/-- A write of a g register and a change of the context that follows it: the result is in flight. -/
theorem setMe_putG (s : State) (d : Reg) (v : Word) (w : Nat) (k : Ctx) : setMe (putG s d v w) k = setMe s k ∧
    me (putG s d v w) = withFlight s (if d = 0 then [] else [inWindow s (.g d.toNat) (v.setWidth 1024) allLanes w 0]) := by
  unfold putG
  by_cases hd : d = 0
  · rw [if_pos hd, if_pos hd, withFlight_nil]
    exact ⟨rfl, rfl⟩
  · rw [if_neg hd, if_neg hd, addFlight_some _ _ _ _ _ _ (by decide), setMe_setMe, me_setMe]
    exact ⟨rfl, rfl⟩

/-- The context that has taken a request number. -/
def requesting (s : State) (d : Reg) : Ctx :=
  { withFlight s (if d = 0 then [] else [inWindow s (.g d.toNat) ((me s).rqseq.setWidth 1024) allLanes 1 0]) with
    rqseq := (me s).rqseq + 1, rqout := (me s).rqout ++ [(me s).rqseq], nload := (me s).nload + 1 }

/-- The state in which the current context's request waits at the Serai. -/
def requestPosted (s : State) (r : Word) : State := { s with serai := { s.serai with
  pageReqs := s.serai.pageReqs ++ [⟨s.focus, curX s, (me s).task, (me s).pid, (me s).rqseq, r, (me s).cmpla⟩] } }

/-- Has the context sent this request before a reset (R348)? -/
def requestSent (s : State) : Bool := sentBefore s s.focus (curX s) (me s).nload SendKind.rqpg.code

theorem sentBefore_requesting (s : State) (d : Reg) :
    sentBefore (setMe s (requesting s d)) s.focus (curX s) (me s).nload SendKind.rqpg.code = requestSent s := by
  have h := sentBefore_me (setMe s (requesting s d)) (me s).nload SendKind.rqpg.code
  rw [setMe_focus, curX_setMe, me_setMe] at h
  rw [h, requestSent, sentBefore_me]
  rfl

theorem carry_self (s : State) (a : Nat) (m : MsgBody) : carry s a a m = s := if_pos rfl

theorem requestPage_eq (s : State) (d : Reg) (r : Word) : requestPage s d r =
    actOnce (setMe s (requesting s d)) s.focus (curX s) (me s).nload .rqpg fun t => later (setSerai t fun q => { q with
      pageReqs := q.pageReqs ++ [⟨s.focus, curX s, (me s).task, (me s).pid, (me s).rqseq, r, (me s).cmpla⟩] }) .pageRequestService := by
  have hv : ((me s).rqseq.setWidth 64).setWidth 1024 = (me s).rqseq.setWidth 1024 := BitVec.eq_of_toNat_eq (by
    rw [BitVec.toNat_setWidth_of_le (by decide), BitVec.toNat_setWidth_of_le (by decide), BitVec.toNat_setWidth_of_le (by decide)])
  unfold requestPage
  dsimp only
  rw [(setMe_putG ..).1, (setMe_putG s d _ 1 (me s)).2, hv]
  rfl

theorem requestPage_again {s : State} (d : Reg) (r : Word) (h : requestSent s = true) :
    requestPage s d r = setMe s (requesting s d) := by
  rw [requestPage_eq, actOnce, sendOnce, sentBefore_requesting, h, if_pos rfl, if_pos rfl]

theorem requestPage_first {s : State} (d : Reg) (r : Word) (h : requestSent s = false) : requestPage s d r =
    later (setMe (requestPosted s r) { requesting s d with
      sent := if keepsLog s (coreEnd s.focus) then (me s).sent ++ [((me s).nload, SendKind.rqpg.code)] else (me s).sent }) .pageRequestService := by
  rw [requestPage_eq, actOnce, sendOnce, sentBefore_requesting, h, if_neg Bool.false_ne_true, carry_self, noteSent_setMe _ _ _ rfl rfl]
  rfl

theorem requestPosted_slotWeight (s : State) (r : Word) (c : Nat) (i : Instr) : slotWeight (requestPosted s r) c i = slotWeight s c i :=
  slotWeight_congr _ _ c i rfl rfl rfl

theorem requestPosted_readAt (s : State) (r : Word) (c sc a : Nat) : readAt (requestPosted s r) c sc a = readAt s c sc a :=
  readAt_congr _ _ c sc a rfl rfl rfl rfl rfl rfl

/-! ### CLAIM (R199) -/

theorem exec_claim (s : State) (h : TH) (k : BitVec 2) (a : Reg) : exec (.claim h k a) s =
    runSlot (.claim h k a) (fun s => makeClaim s k.toNat (readG s a)) s := rfl

/-- The current context with a claim of `n` of the kind `k` added. -/
def claimed (s : State) (k : BitVec 2) (n : Nat) : Ctx :=
  let total := Nat.min ((me s).allow + n % 2 ^ 32) (2 ^ 32 - 1)
  if k = 0 then { me s with live := { (me s).live with claimb := (me s).live.claimb + n } }
  else if k = 1 then { me s with live := { (me s).live with slice := (me s).live.slice + n } }
  else { me s with allow := total, allowAdded := (me s).allowAdded + (total - (me s).allow) }

theorem makeClaim_met {s : State} {k : BitVec 2} {w : Word} (h : claimFails s k.toNat w.toNat = false) :
    makeClaim s k.toNat w = setMe s (claimed s k w.toNat) := by
  have hzero : k.toNat = 0 ↔ k = 0 := BitVec.toNat_inj (y := 0)
  have hone : k.toNat = 1 ↔ k = 1 := BitVec.toNat_inj (y := 1)
  unfold makeClaim claimed
  dsimp only
  rw [h, if_neg Bool.false_ne_true]
  simp only [hzero, hone]
  split_ifs <;> rfl

/-- Settles O22: each slot performs as a change of its context, MONA from the state in which its tile is placed, RQPG once. -/
theorem monitorsAndRequests : Obligations.MonitorsAndRequests := by
  unfold Obligations.MonitorsAndRequests
  refine ⟨?mona, ?rqpg, ?claim⟩
  case mona =>
    intro s h a c tile off hi hl r hloc b line
    rw [exec_mona]
    by_cases hline : line = []
    · obtain ⟨t, ht, hk⟩ := runSlot_from _ (fun s => armMonitor s (refAdd (readG s a) (readG s c))) s b _ hi hl (armMonitor_absent hloc hline)
      refine ⟨t, ht, ?_⟩
      rw [if_pos hline]
      exact hk
    cases hon : onChip (refTid r) with
    | true =>
      obtain ⟨t, ht, hk⟩ := runSlot_from _ (fun s => armMonitor s (refAdd (readG s a) (readG s c))) s b _ hi hl (armMonitor_onChip hloc hline hon)
      refine ⟨t, ht, ?_⟩
      rw [if_neg hline, if_pos rfl]
      exact hk
    | false =>
      obtain ⟨t, ht, hk⟩ := runSlot_later _ (fun s => armMonitor s (refAdd (readG s a) (readG s c))) s (armSent b line) _ _ hi hl
        (armMonitor_sent hloc hline hon)
      refine ⟨t, ht, ?_⟩
      have hfocus : b.focus = s.focus := (monaBase_frame s r tile).focus
      rw [if_neg hline, if_neg Bool.false_ne_true, ← hfocus]
      exact hk.of_transfer (carryTo_transfer ..)
  case rqpg =>
    intro s h d a c hi hl n k
    rw [exec_rqpg]
    cases hag : requestSent s with
    | true =>
      obtain ⟨t, ht, hk⟩ := runSlot_from _ (fun s => requestPage s d (refAdd (readG s a) (readG s c))) s s _ hi hl (requestPage_again d _ hag)
      refine ⟨t, ht, ?_⟩
      rw [if_pos (by rw [← requestSent, hag])]
      exact hk
    | false =>
      obtain ⟨t, ht, hk⟩ := runSlot_later _ (fun s => requestPage s d (refAdd (readG s a) (readG s c))) s _ _ _ hi hl
        (requestPage_first d _ hag)
      refine ⟨t, ht, ?_⟩
      rw [if_neg (by rw [← requestSent, hag]; exact Bool.false_ne_true)]
      exact hk.of_base rfl rfl rfl (requestPosted_slotWeight ..) (requestPosted_readAt s _)
  case claim =>
    intro s h k a hi hl hmet n total
    rw [exec_claim]
    exact runSlot_from _ _ s s _ hi hl (makeClaim_met hmet)

end Sys2Proof.Machine
end

section
/-! SUPPORT. Proofs about energy grants and profiles, clock patterns and the master clock (R351 to R353). -/

namespace Sys2Proof.Machine

/-! ### Energy up to now (R351) -/

/-- The profile in force depends on the clusters, the dies and the master cycle. -/
theorem profileOf_congr {s t : State} (hc : t.clusters = s.clusters) (hd : t.dies = s.dies) (hn : t.now = s.now) (j : Nat) :
    profileOf t j = profileOf s j := by
  unfold profileOf getCluster getDie
  rw [hc, hd, hn]

/-- A core whose energy has been credited up to now, under the profile `p`. -/
def settledCore (k : Core) (p : Word) (now : Nat) : Core :=
  { k with ebal := Nat.min (ceilOf p) (k.ebal + refillOf p * (now - k.ebalAt)), ebalAt := now }

theorem settleAll_frame (s : State) (l : List Nat) : { settleAll s l with cores := s.cores } = s := by
  induction l generalizing s with
  | nil => rfl
  | cons c r ih => exact (congrArg (fun v : State => { v with cores := s.cores }) (ih (settleBal s c)) :)

theorem getCore_settleAll_ne {s : State} {c : Nat} {l : List Nat} (h : c ∉ l) : getCore (settleAll s l) c = getCore s c := by
  induction l generalizing s with
  | nil => rfl
  | cons d r ih =>
    obtain ⟨hd, hr⟩ := not_or.mp (List.mem_cons.not.mp h)
    exact (ih hr).trans (getCore_setCore_ne _ _ _ _ hd)

/-- Each core of a list without repetition is credited once. -/
theorem getCore_settleAll {s : State} {c : Nat} {l : List Nat} (hl : l.Nodup) (h : c ∈ l) :
    getCore (settleAll s l) c = settledCore (getCore s c) (profileOf s c) s.now := by
  induction l generalizing s with
  | nil => cases h
  | cons d r ih =>
    obtain ⟨hd, hr⟩ := List.nodup_cons.mp hl
    by_cases hc : c = d
    · rw [hc]
      exact (getCore_settleAll_ne hd).trans (getCore_setCore_self ..)
    · have hcr : c ∈ r := (List.mem_cons.mp h).resolve_left hc
      rw [settleAll, ih hr hcr, settleBal, getCore_setCore_ne _ _ _ _ hc]
      rfl

theorem coresOfCluster_nodup (k : Nat) : (coresOfCluster k).Nodup := List.nodup_range.map fun _ _ h => Nat.add_left_cancel h

theorem mem_coresOfCluster {k j : Nat} (h : j < 8) : 8 * k + j ∈ coresOfCluster k := List.mem_map.mpr ⟨j, List.mem_range.mpr h, rfl⟩

section
variable (s : State) (l : List Nat)

theorem settleAll_clusters : (settleAll s l).clusters = s.clusters := (congrArg State.clusters (settleAll_frame s l) :)
theorem settleAll_dies : (settleAll s l).dies = s.dies := (congrArg State.dies (settleAll_frame s l) :)
theorem settleAll_now : (settleAll s l).now = s.now := (congrArg State.now (settleAll_frame s l) :)

theorem getCluster_settleAll (k : Nat) : getCluster (settleAll s l) k = getCluster s k := by rw [getCluster, settleAll_clusters, getCluster]

theorem getDie_settleAll (d : Nat) : getDie (settleAll s l) d = getDie s d := by rw [getDie, settleAll_dies, getDie]

end

/-! ### Writes to CLGRANT (R351) -/

theorem exec_clgrantWrite {v : Word} (s : State) (k : Nat) (h : valueOk 0x182 v = true) :
    exec (.clgrantWrite k v) s = .next (clgrantWrite s k v) := congrArg Host.Outcome.next (if_pos h)

/-- The cluster after a write to CLGRANT: the grants of this master cycle stand beside the new ones. -/
def grantedCluster (s : State) (k : Nat) (v : Word) : Cluster :=
  let q := getCluster s k
  { q with grant := v.setWidth 16, grantOld := if q.grantAt = s.now then q.grantOld else q.grant, grantAt := s.now }

theorem clgrantWrite_eq (s : State) (k : Nat) (v : Word) :
    clgrantWrite s k v = setCluster (settleAll s (coresOfCluster k)) k (grantedCluster s k v) := by
  rw [clgrantWrite, getCluster_settleAll, grantedCluster]

theorem getCluster_clgrantWrite (s : State) (k : Nat) (v : Word) (j : Nat) : getCluster (clgrantWrite s k v) j =
    if j = k then grantedCluster s k v else getCluster s j := by
  rw [clgrantWrite_eq]
  by_cases hj : j = k
  · rw [if_pos hj, hj, getCluster_setCluster_self]
  · rw [if_neg hj, getCluster_setCluster_ne _ _ _ _ hj, getCluster_settleAll]

theorem clgrantWrite_now (s : State) (k : Nat) (v : Word) : (clgrantWrite s k v).now = s.now := by
  rw [clgrantWrite_eq]
  generalize coresOfCluster k = l
  exact settleAll_now ..

theorem getDie_clgrantWrite (s : State) (k : Nat) (v : Word) (d : Nat) : getDie (clgrantWrite s k v) d = getDie s d := by
  rw [clgrantWrite_eq]
  generalize coresOfCluster k = l
  exact getDie_settleAll ..

/-- The cores' profiles are the old ones for the rest of the master cycle. -/
theorem profileOf_clgrantWrite (s : State) (k : Nat) (v : Word) (j : Nat) : profileOf (clgrantWrite s k v) j = profileOf s j := by
  have hgrant : ∀ q, (if (if q = k then grantedCluster s k v else getCluster s q).grantAt = s.now
      then (if q = k then grantedCluster s k v else getCluster s q).grantOld else (if q = k then grantedCluster s k v else getCluster s q).grant) =
      if (getCluster s q).grantAt = s.now then (getCluster s q).grantOld else (getCluster s q).grant := by
    intro q
    by_cases hq : q = k
    · rw [if_pos hq, if_pos (show (grantedCluster s k v).grantAt = s.now from rfl), hq]
      rfl
    · rw [if_neg hq]
  unfold profileOf
  dsimp only
  rw [clgrantWrite_now, getDie_clgrantWrite, getCluster_clgrantWrite, hgrant]

theorem getDie_withNow (u : State) (n d : Nat) : getDie { u with now := n } d = getDie u d := rfl

theorem getCluster_withNow (u : State) (n k : Nat) : getCluster { u with now := n } k = getCluster u k := rfl

/-- The profile that the new grant selects. -/
theorem profileOf_granted (s : State) (v : Word) {k j : Nat} (hj : isMgmt j = false) (hk : clusterOf j = k)
    (hd : (getDie s (dieOf j)).eprofAt ≠ s.now + 1) :
    profileOf { clgrantWrite s k v with now := s.now + 1 } j = eprofOf s (dieOf j) (v.toNat / 4 ^ (j % 8) % 4) := by
  have hnum : (v.setWidth 16).toNat / 4 ^ (j % 8) % 4 = v.toNat / 4 ^ (j % 8) % 4 := by
    have hpow : (2 : Nat) ^ 16 = 4 ^ (j % 8) * (4 * 4 ^ (7 - j % 8)) := by
      rw [← Nat.pow_succ', ← Nat.pow_add, show j % 8 + (7 - j % 8).succ = 8 by omega]
      rfl
    rw [BitVec.toNat_setWidth, hpow, Nat.mod_mul_right_div_self, Nat.mod_mul_right_mod]
  unfold profileOf
  dsimp only
  have hgrant : (grantedCluster s k v).grantAt ≠ s.now + 1 := Nat.ne_of_lt s.now.lt_succ_self
  rw [hj, if_neg Bool.false_ne_true, getCluster_withNow, getCluster_clgrantWrite, if_pos hk, getDie_withNow, getDie_clgrantWrite, if_neg hd,
    if_neg hgrant]
  exact congrArg (eprofOf s (dieOf j)) hnum

theorem clgrantWrite_ebal (s : State) (k : Nat) (v : Word) {j : Nat} (h : j < 8) : (getCore (clgrantWrite s k v) (8 * k + j)).ebal =
    Nat.min (ceilOf (profileOf s (8 * k + j))) ((getCore s (8 * k + j)).ebal + refillOf (profileOf s (8 * k + j)) *
      (s.now - (getCore s (8 * k + j)).ebalAt)) := by
  have hcore : getCore (clgrantWrite s k v) (8 * k + j) = getCore (settleAll s (coresOfCluster k)) (8 * k + j) := by
    rw [clgrantWrite_eq]
    generalize coresOfCluster k = l
    rfl
  rw [hcore, getCore_settleAll (coresOfCluster_nodup k) (mem_coresOfCluster h), settledCore]

theorem clgrantWrite_frame (s : State) (k : Nat) (v : Word) : { clgrantWrite s k v with cores := s.cores, clusters := s.clusters } = s := by
  rw [clgrantWrite_eq]
  generalize coresOfCluster k = l
  exact (congrArg (fun u : State => { u with clusters := s.clusters }) (settleAll_frame s l) :)

/-! ### Writes to EPROF (R351) -/

theorem exec_eprofWrite {v : Word} {n : Nat} (s : State) (d : Nat) (h : valueOk 0x184 v = true) (hn : n < 4) :
    exec (.eprofWrite d n v) s = .next (eprofWrite s d n v) :=
  congrArg Host.Outcome.next (if_pos (by rw [h, decide_eq_true hn]; rfl))

/-- The die after a write to EPROFn: the profiles of this master cycle stand beside the new ones. -/
def profiledDie (s : State) (d n : Nat) (v : Word) : Die :=
  let k := getDie s d
  { k with eprof := k.eprof.set n v, eprofOld := if k.eprofAt = s.now then k.eprofOld else k.eprof, eprofAt := s.now }

theorem eprofWrite_eq (s : State) (d n : Nat) (v : Word) :
    eprofWrite s d n v = setDie (settleAll s (coresOfDie d)) d (profiledDie s d n v) := by
  rw [eprofWrite, getDie_settleAll, profiledDie]

section
variable (s : State) (l : List Nat) (d : Nat) (v : Die)

theorem now_setDie_settleAll : (setDie (settleAll s l) d v).now = s.now := settleAll_now ..

theorem getCluster_setDie_settleAll (k : Nat) : getCluster (setDie (settleAll s l) d v) k = getCluster s k := getCluster_settleAll ..

theorem setDie_settleAll_frame : { setDie (settleAll s l) d v with cores := s.cores, dies := s.dies } = s :=
  (congrArg (fun u : State => { u with dies := s.dies }) (settleAll_frame s l) :)

end

theorem getDie_eprofWrite (s : State) (d n : Nat) (v : Word) (e : Nat) : getDie (eprofWrite s d n v) e =
    if e = d then profiledDie s d n v else getDie s e := by
  rw [eprofWrite_eq]
  by_cases he : e = d
  · rw [if_pos he, he, getDie_setDie_self]
  · rw [if_neg he, getDie_setDie_ne _ _ _ _ he, getDie_settleAll]

theorem eprofOf_eprofWrite_self (s : State) (d n : Nat) (v : Word) : eprofOf (eprofWrite s d n v) d n = v := by
  rw [eprofOf, getDie_eprofWrite, if_pos rfl]
  exact Tab.get_set_self ..

theorem eprofOf_eprofWrite_ne (s : State) (d : Nat) (v : Word) {n m : Nat} (h : m ≠ n) :
    eprofOf (eprofWrite s d n v) d m = eprofOf s d m := by
  rw [eprofOf, getDie_eprofWrite, if_pos rfl]
  exact Tab.get_set_ne _ _ _ _ _ h

theorem eprofWrite_now (s : State) (d n : Nat) (v : Word) : (eprofWrite s d n v).now = s.now := by
  rw [eprofWrite_eq, now_setDie_settleAll]

theorem getCluster_eprofWrite (s : State) (d n : Nat) (v : Word) (k : Nat) : getCluster (eprofWrite s d n v) k = getCluster s k := by
  rw [eprofWrite_eq, getCluster_setDie_settleAll]

theorem profileOf_eprofWrite (s : State) (d n : Nat) (v : Word) (j : Nat) : profileOf (eprofWrite s d n v) j = profileOf s j := by
  have hprof : ∀ e, (if (if e = d then profiledDie s d n v else getDie s e).eprofAt = s.now
      then (if e = d then profiledDie s d n v else getDie s e).eprofOld else (if e = d then profiledDie s d n v else getDie s e).eprof) =
      if (getDie s e).eprofAt = s.now then (getDie s e).eprofOld else (getDie s e).eprof := by
    intro e
    by_cases he : e = d
    · rw [if_pos he, if_pos (show (profiledDie s d n v).eprofAt = s.now from rfl), he]
      rfl
    · rw [if_neg he]
  unfold profileOf
  dsimp only
  rw [eprofWrite_now, getCluster_eprofWrite, getDie_eprofWrite, hprof]

theorem eprofWrite_frame (s : State) (d n : Nat) (v : Word) : { eprofWrite s d n v with cores := s.cores, dies := s.dies } = s := by
  rw [eprofWrite_eq]
  exact setDie_settleAll_frame ..

/-! ### Clock patterns (R352) -/

theorem exec_clkpatWrite {v : Word} (s : State) (k : Nat) (h : valueOk 0x181 v = true) :
    exec (.clkpatWrite k v) s = .next (clkpatWrite s k v) := congrArg Host.Outcome.next (if_pos h)

/-- `t` is `s` but for the cores that still have a turn and the clusters' patterns in force with their cycle counts. -/
structure PatFrame (s t : State) : Prop where
  package : { t with clusters := s.clusters, turns := s.turns } = s
  cluster : ∀ j, { getCluster t j with epat := (getCluster s j).epat, cyc := (getCluster s j).cyc, cycAt := (getCluster s j).cycAt } = getCluster s j

theorem PatFrame.refl (s : State) : PatFrame s s := ⟨rfl, fun _ => rfl⟩

theorem PatFrame.trans {s t u : State} (h : PatFrame s t) (h' : PatFrame t u) : PatFrame s u where
  package := (congrArg (fun v : State => { v with clusters := s.clusters, turns := s.turns }) h'.package).trans h.package
  cluster j := (congrArg (fun q : Cluster => { q with epat := (getCluster s j).epat, cyc := (getCluster s j).cyc, cycAt := (getCluster s j).cycAt })
    (h'.cluster j)).trans (h.cluster j)

/-- The pattern that a cluster is to have does not depend on the patterns in force. -/
theorem PatFrame.patternOf {s t : State} (h : PatFrame s t) (k : Nat) : patternOf t k = patternOf s k := by
  have hlevel : coverLevel t k = coverLevel s k := by
    unfold coverLevel
    rw [(congrArg State.sensors h.package :)]
  unfold Machine.patternOf
  dsimp only
  rw [hlevel, ← h.cluster k]

/-- What a new pattern in force does to its cluster and to no other. -/
theorem setEpat_spec (s : State) (k : Nat) (p : BitVec 16) : PatFrame s (setEpat s k p) ∧ (getCluster (setEpat s k p) k).epat = p ∧
    ∀ j, j ≠ k → getCluster (setEpat s k p) j = getCluster s j := by
  have hset : ∃ u q, (setEpat s k p = u ∨ ∃ l, setEpat s k p = { u with turns := l }) ∧ u = setCluster s k q ∧ q.epat = p ∧
      { q with epat := (getCluster s k).epat, cyc := (getCluster s k).cyc, cycAt := (getCluster s k).cycAt } = getCluster s k := by
    unfold setEpat
    dsimp only
    split
    · exact ⟨_, _, Or.inl rfl, rfl, rfl, rfl⟩
    · exact ⟨_, _, Or.inr ⟨_, rfl⟩, rfl, rfl, rfl⟩
  obtain ⟨u, q, ht, rfl, hp, hq⟩ := hset
  have hcl : ∀ j, getCluster (setEpat s k p) j = getCluster (setCluster s k q) j := fun j => by
    rcases ht with ht | ⟨l, ht⟩ <;> rw [ht]
    rfl
  refine ⟨⟨?_, fun j => ?_⟩, ?_, fun j hj => ?_⟩
  · rcases ht with ht | ⟨l, ht⟩ <;> rw [ht] <;> rfl
  · rw [hcl]
    by_cases hj : j = k
    · rw [hj, getCluster_setCluster_self, hq]
    · rw [getCluster_setCluster_ne _ _ _ _ hj]
  · rw [hcl, getCluster_setCluster_self, hp]
  · rw [hcl, getCluster_setCluster_ne _ _ _ _ hj]

/-- One step of the refresh: the cluster `k` has the pattern that it is to have. -/
def refreshPat (s : State) (k : Nat) : State := if patternOf s k = (getCluster s k).epat then s else setEpat s k (patternOf s k)

theorem refreshPat_spec (s : State) (k : Nat) : PatFrame s (refreshPat s k) ∧ (getCluster (refreshPat s k) k).epat = patternOf s k ∧
    ∀ j, j ≠ k → getCluster (refreshPat s k) j = getCluster s j := by
  unfold refreshPat
  split
  case isTrue h => exact ⟨.refl s, h.symm, fun _ _ => rfl⟩
  case isFalse => exact setEpat_spec ..

theorem refreshPats_frame (s : State) (l : List Nat) : PatFrame s (refreshPats s l) := by
  induction l generalizing s with
  | nil => exact .refl s
  | cons k r ih => exact (refreshPat_spec s k).1.trans (ih (refreshPat s k))

theorem refreshPat_epat_keeps {s : State} {k : Nat} (j : Nat) (h : (getCluster s k).epat = patternOf s k) :
    (getCluster (refreshPat s j) k).epat = patternOf s k := by
  obtain ⟨-, hself, hne⟩ := refreshPat_spec s j
  by_cases hk : k = j
  · rw [hk]
    exact hself
  · rw [hne k hk, h]

theorem refreshPats_epat_keeps {s : State} {k : Nat} (l : List Nat) (h : (getCluster s k).epat = patternOf s k) :
    (getCluster (refreshPats s l) k).epat = patternOf s k := by
  induction l generalizing s with
  | nil => exact h
  | cons j r ih =>
    obtain ⟨hfr, -⟩ := refreshPat_spec s j
    have hpat := hfr.patternOf k
    exact (ih (s := refreshPat s j) ((refreshPat_epat_keeps j h).trans hpat.symm)).trans hpat

/-- Every cluster that is looked at has the pattern that it is to have. -/
theorem refreshPats_epat {s : State} {k : Nat} {l : List Nat} (h : k ∈ l) : (getCluster (refreshPats s l) k).epat = patternOf s k := by
  induction l generalizing s with
  | nil => cases h
  | cons j r ih =>
    obtain ⟨hfr, hself, -⟩ := refreshPat_spec s j
    have hpat := hfr.patternOf k
    rcases List.mem_cons.mp h with rfl | hr
    · exact (refreshPats_epat_keeps (s := refreshPat s k) r (hself.trans hpat.symm)).trans hpat
    · exact (ih (s := refreshPat s j) hr).trans hpat

theorem mem_of_findCell {α : Type} {k : Nat} {v : α} {l : List (Nat × α)} (h : findCell k l = some v) : (k, v) ∈ l := by
  induction l with
  | nil => cases h
  | cons e r ih =>
    obtain ⟨j, w⟩ := e
    rw [findCell] at h
    split at h
    case isTrue hj =>
      cases h
      rw [hj]
      exact List.mem_cons_self
    case isFalse => exact List.mem_cons_of_mem _ (ih h)

theorem mem_patClusters_setCluster (s : State) (k : Nat) (q : Cluster) : k ∈ patClusters (setCluster s k q) :=
  List.mem_append_left _ (List.mem_map.mpr ⟨(k, q), mem_of_findCell (Tab.find_set_self ..), rfl⟩)

/-- The state in which CLKPAT of a cluster is stored. -/
def patStored (s : State) (k : Nat) (v : Word) : State := setCluster s k { getCluster s k with pat := v.setWidth 16 }

theorem clkpatWrite_frame (s : State) (k : Nat) (v : Word) : PatFrame (patStored s k v) (clkpatWrite s k v) := by
  rw [clkpatWrite, patternTick]
  split
  · exact refreshPats_frame ..
  · exact .refl _

theorem clkpatWrite_off {s : State} (k : Nat) (v : Word) (h : s.now % 16 ≠ 0) : clkpatWrite s k v = patStored s k v := if_neg h

theorem clkpatWrite_epat {s : State} (k : Nat) (v : Word) (h : s.now % 16 = 0) :
    (getCluster (clkpatWrite s k v) k).epat = patternOf (clkpatWrite s k v) k := by
  have heq : clkpatWrite s k v = refreshPats (patStored s k v) (patClusters (patStored s k v)) := if_pos h
  have hmem : k ∈ patClusters (patStored s k v) := mem_patClusters_setCluster ..
  rw [(clkpatWrite_frame s k v).patternOf, heq, refreshPats_epat hmem]

theorem clkpatWrite_pat (s : State) (k : Nat) (v : Word) : (getCluster (clkpatWrite s k v) k).pat = v.setWidth 16 := by
  have hcl : getCluster (patStored s k v) k = { getCluster s k with pat := v.setWidth 16 } := getCluster_setCluster_self ..
  refine (congrArg Cluster.pat ((clkpatWrite_frame s k v).cluster k) :).trans ?_
  rw [hcl]

theorem clkpatWrite_package (s : State) (k : Nat) (v : Word) : { clkpatWrite s k v with clusters := s.clusters, turns := s.turns } = s :=
  (congrArg (fun u : State => { u with clusters := s.clusters, turns := s.turns }) (clkpatWrite_frame s k v).package :)

/-! ### The master clock (R353) -/

theorem exec_mclkfWrite {v : Word} (s : State) (st : Nat) (h : valueOk 0x189 v = true) :
    exec (.mclkfWrite st v) s = .next (mclkfWrite s st v) := congrArg Host.Outcome.next (if_pos h)

theorem exec_clockChange (s : State) (st : Nat) : exec (.clockChange st) s = .next (clockChange s st) := rfl

/-- The state in which a stack's target frequency is stored. -/
def targetStored (s : State) (st : Nat) (v : Word) : State := setStack s st { getStack s st with target := v.toNat % 2 ^ 11 }

theorem wf_low (v : Word) : wf v 10 0 = v.toNat % 2 ^ 11 := by rw [wf, pow_zero, Nat.div_one]

/-- A write to MCLKF stores the target, and asks for the clock that it is to have where that is another one. -/
theorem mclkfWrite_eq (s : State) (st : Nat) (v : Word) : mclkfWrite s st v = { targetStored s st v with
    timers := if grantedOf (targetStored s st v) st = (getStack s st).granted then s.timers else s.timers ++ [((s.now / 16 + 1) * 16, .clockChange st)] } := by
  have hst : (getStack (targetStored s st v) st).granted = (getStack s st).granted := by rw [targetStored, getStack_setStack_self]
  have hdue : s.now + (nextBoundary s - s.now) = (s.now / 16 + 1) * 16 := by
    unfold nextBoundary
    omega
  rw [mclkfWrite, wf_low, ← targetStored, askClock, hst]
  split
  · rfl
  · rw [after, show (targetStored s st v).now = s.now from rfl, show nextBoundary (targetStored s st v) = nextBoundary s from rfl, hdue]
    rfl

end Sys2Proof.Machine
end

section
/-! SUPPORT. Proofs about the power of register banks (R208, R354). -/

namespace Sys2Proof.Machine

/-! ### Two bits of a byte -/

theorem getLsbD_three (j : Nat) : (3 : BitVec 8).getLsbD j = decide (j < 2) := by
  have h := Nat.testBit_two_pow_sub_one 2 j
  rw [← h]
  exact (BitVec.testBit_toNat 3#8).symm

/-- A bit of a byte in which two bits have been replaced. -/
theorem getLsbD_put2 (w : BitVec 8) {b v i : Nat} (hi : i < 8) (hv : v < 4) :
    (put2 w b v).getLsbD i = if i < 2 * b ∨ 2 * b + 2 ≤ i then w.getLsbD i else v.testBit (i - 2 * b) := by
  simp only [put2, BitVec.getLsbD_or, BitVec.getLsbD_and, BitVec.getLsbD_not, BitVec.getLsbD_shiftLeft, BitVec.getLsbD_ofNat, getLsbD_three]
  rcases Nat.lt_or_ge i (2 * b) with hlow | hlow
  · simp [hlow, hi]
  rcases Nat.lt_or_ge i (2 * b + 2) with hhigh | hhigh
  · have hin : i - 2 * b < 2 := by omega
    simp [Nat.not_lt.mpr hlow, Nat.not_le.mpr hhigh, hi, hin, show i - 2 * b < 8 by omega]
  · have hout : ¬i - 2 * b < 2 := by omega
    have hbit : v.testBit (i - 2 * b) = false :=
      Nat.testBit_lt_two_pow (hv.trans_le (show 2 ^ 2 ≤ 2 ^ (i - 2 * b) from Nat.pow_le_pow_right (by decide) (Nat.not_lt.mp hout)))
    simp [hhigh, hi, hout, hbit]

/-- A bit of the two bits of bank `b`. -/
theorem testBit_pair (w : BitVec 8) (b i : Nat) : (w.toNat / 4 ^ b % 4).testBit i = (decide (i < 2) && w.getLsbD (2 * b + i)) := by
  rw [show (4 : Nat) ^ b = 2 ^ (2 * b) from (Nat.pow_mul 2 2 b).symm, show (4 : Nat) = 2 ^ 2 from rfl, Nat.testBit_mod_two_pow, Nat.testBit_div_two_pow,
    BitVec.testBit_toNat, Nat.add_comm i]

theorem put2_self (w : BitVec 8) {b v : Nat} (hb : b < 4) (hv : v < 4) : (put2 w b v).toNat / 4 ^ b % 4 = v := by
  refine Nat.eq_of_testBit_eq fun i => ?_
  rw [testBit_pair]
  by_cases hi : i < 2
  · rw [decide_eq_true hi, Bool.true_and, getLsbD_put2 w (by omega) hv, if_neg (by omega), Nat.add_sub_cancel_left]
  · have hbit : v.testBit i = false :=
      Nat.testBit_lt_two_pow (hv.trans_le (show 2 ^ 2 ≤ 2 ^ i from Nat.pow_le_pow_right (by decide) (Nat.not_lt.mp hi)))
    rw [decide_eq_false hi, Bool.false_and, hbit]

theorem put2_ne (w : BitVec 8) {a b v : Nat} (ha : a < 4) (hv : v < 4) (h : a ≠ b) :
    (put2 w b v).toNat / 4 ^ a % 4 = w.toNat / 4 ^ a % 4 := by
  refine Nat.eq_of_testBit_eq fun i => ?_
  rw [testBit_pair, testBit_pair]
  by_cases hi : i < 2
  · rw [getLsbD_put2 w (by omega) hv, if_pos (by omega)]
  · rw [decide_eq_false hi, Bool.false_and, Bool.false_and]

/-! ### A bank that has reached a state -/

theorem getCore_setBankSt (s : State) (c b v : Nat) :
    getCore (setBankSt s c b v) c = { clearMove (getCore s c) b with rbst := put2 (getCore s c).rbst b v } := getCore_setCore_self ..

theorem bankSt_setBankSt_self (s : State) (c : Nat) {b v : Nat} (hb : b < 4) (hv : v < 4) : bankSt (getCore (setBankSt s c b v) c) b = v := by
  rw [getCore_setBankSt]
  exact put2_self _ hb hv

theorem bankSt_setBankSt_ne (s : State) (c : Nat) {a b v : Nat} (ha : a < 4) (hv : v < 4) (h : a ≠ b) :
    bankSt (getCore (setBankSt s c b v) c) a = bankSt (getCore s c) a := by
  rw [getCore_setBankSt]
  exact put2_ne _ ha hv h

theorem rbend_setBankSt (s : State) (c b v : Nat) : (getCore (setBankSt s c b v) c).rbend.find b = none := by
  rw [getCore_setBankSt]
  exact Tab.find_erase_self ..

theorem bankMoves_setBankSt (s : State) (c b v : Nat) : bankMoves (getCore (setBankSt s c b v) c) b = false := by
  have hend : (clearMove (getCore s c) b).rbend.find b = none := Tab.find_erase_self ..
  have hwake : (clearMove (getCore s c) b).rbwake.find b = none := Tab.find_erase_self ..
  rw [getCore_setBankSt, bankMoves, hend, hwake]
  rfl

theorem setBankSt_frame (s : State) (c b v : Nat) : { setBankSt s c b v with cores := s.cores } = s := rfl

/-! ### The end of a transition (R354) -/

theorem exec_bankTransitionDone (s : State) (c b : Nat) : exec (.bankTransitionDone c b) s = .next (bankDone s c b) := rfl

theorem bankDone_woken {s : State} {c b : Nat} (h : (getCore s c).rbwake.find b = some 0) : bankDone s c b = setBankSt s c b 0 := if_pos h

theorem bankDone_ended {s : State} {c b e : Nat} (hw : (getCore s c).rbwake.find b ≠ some 0) (he : (getCore s c).rbend.find b = some e)
    (hn : e ≤ s.now) : bankDone s c b = setBankSt s c b (if bankReq (getCore s c) b = 0 then 0 else 1) := by
  rw [bankDone]
  rw [if_neg hw, he]
  exact if_neg (Nat.not_lt.mpr hn)

theorem bankDone_early {s : State} {c b : Nat} (hw : (getCore s c).rbwake.find b ≠ some 0)
    (he : ∀ e, (getCore s c).rbend.find b = some e → s.now < e) : bankDone s c b = s := by
  rw [bankDone]
  rw [if_neg hw]
  cases hend : (getCore s c).rbend.find b with
  | none => rfl
  | some e => exact if_pos (he e hend)

/-! ### Requests for a state (R208, R354) -/

/-- From `s` to `t` core `c` changes nothing but its banks' states and transitions, a DENY that is set stays, and memory stays. -/
structure BankKeeps (c : Nat) (s t : State) : Prop where
  mem : t.mem = s.mem
  core : { getCore t c with rbst := (getCore s c).rbst, rbend := (getCore s c).rbend, rbwake := (getCore s c).rbwake, rbdeny := (getCore s c).rbdeny } =
    getCore s c
  deny : (getCore s c).rbdeny = true → (getCore t c).rbdeny = true

/-- The same, and every bank stays in its state. -/
structure BankStays (c : Nat) (s t : State) : Prop extends BankKeeps c s t where
  rbst : (getCore t c).rbst = (getCore s c).rbst

theorem BankKeeps.refl (c : Nat) (s : State) : BankKeeps c s s := ⟨rfl, rfl, id⟩

theorem BankKeeps.trans {c : Nat} {s t u : State} (h : BankKeeps c s t) (h' : BankKeeps c t u) : BankKeeps c s u where
  mem := h'.mem.trans h.mem
  core := (congrArg (fun k : Core => { k with
    rbst := (getCore s c).rbst, rbend := (getCore s c).rbend, rbwake := (getCore s c).rbwake, rbdeny := (getCore s c).rbdeny }) h'.core).trans h.core
  deny hd := h'.deny (h.deny hd)

theorem BankStays.refl (c : Nat) (s : State) : BankStays c s s := ⟨.refl c s, rfl⟩

theorem BankStays.trans {c : Nat} {s t u : State} (h : BankStays c s t) (h' : BankStays c t u) : BankStays c s u :=
  ⟨h.toBankKeeps.trans h'.toBankKeeps, h'.rbst.trans h.rbst⟩

section
variable {c : Nat} {s t : State}

theorem BankKeeps.rbreq (h : BankKeeps c s t) : (getCore t c).rbreq = (getCore s c).rbreq := (congrArg Core.rbreq h.core :)

theorem BankKeeps.inService (h : BankKeeps c s t) : (getCore t c).inService = (getCore s c).inService := (congrArg Core.inService h.core :)

theorem BankKeeps.bankHeld (h : BankKeeps c s t) (b : Nat) : bankHeld t c b = bankHeld s c b := by
  have hctx (x : Nat) : getCtx t c x = getCtx s c x := (congrArg (fun k : Core => k.ctxs.get Ctx.reset x) h.core :)
  simp only [Machine.bankHeld, hctx]

theorem BankStays.bankSt (h : BankStays c s t) (b : Nat) : bankSt (getCore t c) b = bankSt (getCore s c) b := by
  rw [Machine.bankSt, h.rbst, Machine.bankSt]

end

theorem setCore_stays {s : State} {c : Nat} {v : Core} (hcore : { v with
      rbend := (getCore s c).rbend, rbwake := (getCore s c).rbwake, rbdeny := (getCore s c).rbdeny } = getCore s c)
    (hdeny : (getCore s c).rbdeny = true → v.rbdeny = true) : BankStays c s (setCore s c v) where
  mem := rfl
  core := by
    rw [getCore_setCore_self]
    exact (congrArg (fun k : Core => { k with rbst := (getCore s c).rbst }) hcore :)
  deny := by
    rw [getCore_setCore_self]
    exact hdeny
  rbst := by
    rw [getCore_setCore_self]
    exact (congrArg Core.rbst hcore :)

theorem clearMove_stays (s : State) (c b : Nat) : BankStays c s (setCore s c (clearMove (getCore s c) b)) := setCore_stays rfl id

theorem deny_stays (s : State) (c : Nat) : BankStays c s (setCore s c { getCore s c with rbdeny := true }) := setCore_stays rfl fun _ => rfl

theorem startBank_stays (s : State) (c b n : Nat) : BankStays c s (startBank s c b n) := by
  have h : BankStays c s (setCore s c { getCore s c with rbend := (getCore s c).rbend.set b (s.now + n) }) := setCore_stays rfl id
  exact ⟨⟨h.mem, h.core, h.deny⟩, h.rbst⟩

theorem startWake_stays (s : State) (c b n : Nat) : BankStays c s (startWake s c b n) := setCore_stays rfl id

theorem boundedDelay_stays (s : State) (c n : Nat) : BankStays c s (boundedDelay s n).1 := ⟨⟨rfl, rfl, id⟩, rfl⟩

theorem setBankSt_keeps (s : State) (c b v : Nat) : BankKeeps c s (setBankSt s c b v) where
  mem := rfl
  core := by
    rw [getCore_setBankSt]
    rfl
  deny := by
    rw [getCore_setBankSt]
    exact id

/-- A request other than one for OFF leaves every bank in its state for now. -/
theorem requestBank_stays (s : State) (c b : Nat) {req : Nat} (h : req = 0 ∨ req = 1) : BankStays c s (requestBank s c b req) := by
  have hclear := clearMove_stays s c b
  unfold requestBank
  dsimp only
  split
  · exact .refl c s
  rcases h with rfl | rfl
  · rw [if_pos rfl]
    split
    · exact hclear.trans ((boundedDelay_stays ..).trans (startWake_stays ..))
    split
    · exact hclear.trans (startBank_stays ..)
    · exact hclear
  · rw [if_neg (by decide), if_pos rfl]
    split
    · exact hclear.trans (startBank_stays ..)
    · exact hclear

section
variable {s : State} {c b req : Nat} (hin : (getCore s c).inService.getLsbD b = true) (h0 : req ≠ 0) (h1 : req ≠ 1)
include hin h0 h1

/-- A free bank goes OFF at once. -/
theorem requestBank_free (hheld : bankHeld s c b = false) :
    requestBank s c b req = setBankSt (setCore s c (clearMove (getCore s c) b)) c b 2 := by
  have hheld' : bankHeld (setCore s c (clearMove (getCore s c) b)) c b = false := ((clearMove_stays s c b).bankHeld b).trans hheld
  unfold requestBank
  simp only [hin, hheld, h0, h1, Bool.not_true, Bool.false_eq_true, if_false]

/-- A held bank stays in its state for now, and DENY is set. -/
theorem requestBank_held (hheld : bankHeld s c b = true) :
    BankStays c s (requestBank s c b req) ∧ (getCore (requestBank s c b req) c).rbdeny = true := by
  have hclear := clearMove_stays s c b
  have hdeny := deny_stays (setCore s c (clearMove (getCore s c) b)) c
  have hset : (getCore (setCore (setCore s c (clearMove (getCore s c) b)) c
      { getCore (setCore s c (clearMove (getCore s c) b)) c with rbdeny := true }) c).rbdeny = true := by rw [getCore_setCore_self]
  unfold requestBank
  simp only [hin, hheld, h0, h1, Bool.not_true, Bool.false_eq_true, if_false, if_true]
  split
  · have hstart := startBank_stays (setCore (setCore s c (clearMove (getCore s c) b)) c
      { getCore (setCore s c (clearMove (getCore s c) b)) c with rbdeny := true }) c b 8
    exact ⟨hclear.trans (hdeny.trans hstart), hstart.deny hset⟩
  · exact ⟨hclear.trans hdeny, hset⟩

end

/-! ### A write to RBCTL (R208, R354) -/

theorem exec_rbctlWrite {v : Word} (s : State) (c : Nat) (h : valueOk 0x188 v = true) :
    exec (.rbctlWrite c v) s = .next (rbctlWrite s c v) := congrArg Host.Outcome.next (if_pos h)

/-- Any request leaves the other banks in their states. -/
theorem requestBank_keeps (s : State) (c b req : Nat) : BankKeeps c s (requestBank s c b req) ∧
    ∀ a, a < 4 → a ≠ b → bankSt (getCore (requestBank s c b req) c) a = bankSt (getCore s c) a := by
  have of_stays {t : State} (h : BankStays c s t) : BankKeeps c s t ∧ ∀ a, a < 4 → a ≠ b → bankSt (getCore t c) a = bankSt (getCore s c) a :=
    ⟨h.toBankKeeps, fun a _ _ => h.bankSt a⟩
  by_cases hreq : req = 0 ∨ req = 1
  · exact of_stays (requestBank_stays s c b hreq)
  obtain ⟨h0, h1⟩ := not_or.mp hreq
  cases hin : (getCore s c).inService.getLsbD b with
  | false =>
    have hstill : requestBank s c b req = s := by
      unfold requestBank
      simp only [hin, Bool.not_false, if_true]
    rw [hstill]
    exact of_stays (.refl c s)
  | true =>
    cases hheld : bankHeld s c b with
    | true => exact of_stays (requestBank_held hin h0 h1 hheld).1
    | false =>
      rw [requestBank_free hin h0 h1 hheld]
      have hclear := clearMove_stays s c b
      exact ⟨hclear.toBankKeeps.trans (setBankSt_keeps ..), fun a ha hab => (bankSt_setBankSt_ne _ c ha (by decide) hab).trans (hclear.bankSt a)⟩

theorem requestAgain_keeps (s : State) (c b old req : Nat) : BankKeeps c s (requestAgain s c b old req) ∧
    ∀ a, a < 4 → a ≠ b → bankSt (getCore (requestAgain s c b old req) c) a = bankSt (getCore s c) a := by
  have hstill : BankKeeps c s s ∧ ∀ a, a < 4 → a ≠ b → bankSt (getCore s c) a = bankSt (getCore s c) a := ⟨.refl c s, fun _ _ _ => rfl⟩
  have hdeny := deny_stays s c
  unfold requestAgain
  split
  · split
    · split
      · exact ⟨hdeny.toBankKeeps, fun a _ _ => hdeny.bankSt a⟩
      · exact requestBank_keeps ..
    · exact hstill
  · exact requestBank_keeps ..

/-- A bank in service that is asked for OFF: a free one is OFF, a held one stays and DENY is set. -/
def OffAnswered (s t : State) (c b : Nat) : Prop := (bankHeld s c b = false → bankSt (getCore t c) b = 2) ∧
  (bankHeld s c b = true → (getCore t c).rbdeny = true ∧ bankSt (getCore t c) b = bankSt (getCore s c) b)

theorem requestBank_off {s : State} {c b : Nat} (hb : b < 4) (hin : (getCore s c).inService.getLsbD b = true) :
    OffAnswered s (requestBank s c b 2) c b := by
  refine ⟨fun hheld => ?_, fun hheld => ?_⟩
  · rw [requestBank_free hin (by decide) (by decide) hheld]
    exact bankSt_setBankSt_self _ c hb (by decide)
  · obtain ⟨hstays, hdeny⟩ := requestBank_held (req := 2) hin (by decide) (by decide) hheld
    exact ⟨hdeny, hstays.bankSt b⟩

theorem requestAgain_off {s : State} {c b : Nat} (old : Nat) (hb : b < 4) (hin : (getCore s c).inService.getLsbD b = true) :
    OffAnswered s (requestAgain s c b old 2) c b := by
  unfold requestAgain
  split
  · rw [if_pos rfl]
    split
    case isTrue hheld =>
      have hdeny : (getCore (setCore s c { getCore s c with rbdeny := true }) c).rbdeny = true := by rw [getCore_setCore_self]
      exact ⟨fun hfree => absurd (hheld.symm.trans hfree) (by decide), fun _ => ⟨hdeny, (deny_stays s c).bankSt b⟩⟩
    case isFalse => exact requestBank_off hb hin
  · exact requestBank_off hb hin

theorem requestBanks_keeps (s : State) (c old v : Nat) (l : List Nat) : BankKeeps c s (requestBanks s c old v l) := by
  induction l generalizing s with
  | nil => exact .refl c s
  | cons b r ih => exact (requestAgain_keeps s c b _ _).1.trans (ih _)

theorem requestBanks_other {s : State} {c old v b : Nat} {l : List Nat} (hb : b < 4) (h : b ∉ l) :
    bankSt (getCore (requestBanks s c old v l) c) b = bankSt (getCore s c) b := by
  induction l generalizing s with
  | nil => rfl
  | cons d r ih =>
    obtain ⟨hd, hr⟩ := not_or.mp (List.mem_cons.not.mp h)
    exact (ih hr).trans ((requestAgain_keeps s c d _ _).2 b hb hd)

/-- The answer to one bank's request stands when the others have had theirs. -/
theorem requestBanks_off {s : State} {c old v b : Nat} {l : List Nat} (hb : b < 4) (hv : v / 4 ^ b % 4 = 2) (hl : l.Nodup) (h : b ∈ l)
    (hin : (getCore s c).inService.getLsbD b = true) : OffAnswered s (requestBanks s c old v l) c b := by
  induction l generalizing s with
  | nil => cases h
  | cons d r ih =>
    obtain ⟨hd, hr⟩ := List.nodup_cons.mp hl
    obtain ⟨hkeeps, hother⟩ := requestAgain_keeps s c d (old / 4 ^ d % 4) (v / 4 ^ d % 4)
    rw [requestBanks]
    rcases List.mem_cons.mp h with rfl | hbr
    · obtain ⟨hfree, hheld⟩ := requestAgain_off (old / 4 ^ b % 4) hb hin
      rw [hv]
      have hrest := requestBanks_keeps (requestAgain s c b (old / 4 ^ b % 4) 2) c old v r
      have hst := requestBanks_other (s := requestAgain s c b (old / 4 ^ b % 4) 2) (c := c) (old := old) (v := v) hb hd
      exact ⟨fun hf => hst.trans (hfree hf), fun hh => ⟨hrest.deny (hheld hh).1, hst.trans (hheld hh).2⟩⟩
    · have hbd : b ≠ d := fun hbd => hd (hbd ▸ hbr)
      obtain ⟨hfree, hheld⟩ := ih hr hbr (hkeeps.inService ▸ hin)
      rw [hkeeps.bankHeld] at hfree hheld
      exact ⟨hfree, fun hh => ⟨(hheld hh).1, (hheld hh).2.trans (hother b hb hbd)⟩⟩

/-- The state in which the requests of a write to RBCTL are stored. -/
def reqStored (s : State) (c : Nat) (v : Word) : State :=
  setCore s c { getCore s c with rbreq := v.setWidth 8, rbdeny := (getCore s c).rbdeny && !v.getLsbD 16 }

theorem rbctlWrite_eq (s : State) (c : Nat) (v : Word) :
    rbctlWrite s c v = requestBanks (reqStored s c v) c (getCore s c).rbreq.toNat (v.toNat % 256) [0, 1, 2, 3] := rfl

theorem getCore_reqStored (s : State) (c : Nat) (v : Word) : getCore (reqStored s c v) c =
    { getCore s c with rbreq := v.setWidth 8, rbdeny := (getCore s c).rbdeny && !v.getLsbD 16 } := getCore_setCore_self ..

theorem bankHeld_reqStored (s : State) (c : Nat) (v : Word) (b : Nat) : bankHeld (reqStored s c v) c b = bankHeld s c b := by
  have hctx (x : Nat) : getCtx (reqStored s c v) c x = getCtx s c x := by rw [getCtx, getCore_reqStored, getCtx]
  simp only [bankHeld, hctx]

theorem rbctlWrite_rbreq (s : State) (c : Nat) (v : Word) : (getCore (rbctlWrite s c v) c).rbreq = v.setWidth 8 := by
  rw [rbctlWrite_eq, (requestBanks_keeps ..).rbreq, getCore_reqStored]

theorem rbctlWrite_mem (s : State) (c : Nat) (v : Word) : (rbctlWrite s c v).mem = s.mem := by
  rw [rbctlWrite_eq, (requestBanks_keeps ..).mem]
  rfl

theorem rbctlWrite_off {s : State} {c b : Nat} {v : Word} (hb : b < 4) (hin : (getCore s c).inService.getLsbD b = true)
    (hv : v.toNat / 4 ^ b % 4 = 2) : OffAnswered s (rbctlWrite s c v) c b := by
  have hlow : v.toNat % 256 / 4 ^ b % 4 = 2 := by
    have hpow : 256 = 4 ^ b * (4 * 4 ^ (3 - b)) := by
      rw [← Nat.pow_succ', ← Nat.pow_add, show b + (3 - b).succ = 4 by omega]
    rw [hpow, Nat.mod_mul_right_div_self, Nat.mod_mul_right_mod, hv]
  have hmem : b ∈ [0, 1, 2, 3] := by
    simp only [List.mem_cons, List.not_mem_nil, or_false]
    omega
  have hst : bankSt (getCore (reqStored s c v) c) b = bankSt (getCore s c) b := by rw [getCore_reqStored, bankSt, bankSt]
  have hoff := requestBanks_off (s := reqStored s c v) (old := (getCore s c).rbreq.toNat) hb hlow (by decide) hmem
    (by rw [getCore_reqStored]; exact hin)
  rw [OffAnswered, bankHeld_reqStored, hst] at hoff
  rw [rbctlWrite_eq]
  exact hoff

/-- Settles O34: each row by what it stores, and by what it leaves to the next master cycle, boundary or transition. -/
theorem powerRegisters : Obligations.PowerRegisters := by
  unfold Obligations.PowerRegisters
  refine fun s k d n c b st v => ⟨fun h => ?clgrant, fun h hn => ?eprof, fun h => ?clkpat, fun h => ?mclkf, ?clock, fun h hb hin hv => ?rbctl,
    fun hw he => ?early, fun hb hw => ?woken, fun e hb hw he hn => ?ended⟩
  case clgrant =>
    refine ⟨_, exec_clgrantWrite s k h, ?_, profileOf_clgrantWrite s k v, fun j hj hk hd => profileOf_granted s v hj hk hd,
      fun j hj => clgrantWrite_ebal s k v hj, clgrantWrite_frame s k v⟩
    rw [getCluster_clgrantWrite, if_pos rfl]
    rfl
  case eprof =>
    exact ⟨_, exec_eprofWrite s d h hn, eprofOf_eprofWrite_self s d n v, fun m hm => eprofOf_eprofWrite_ne s d v hm,
      profileOf_eprofWrite s d n v, eprofWrite_frame s d n v⟩
  case clkpat =>
    exact ⟨_, exec_clkpatWrite s k h, clkpatWrite_pat s k v, clkpatWrite_off k v, clkpatWrite_epat k v, clkpatWrite_package s k v⟩
  case mclkf =>
    refine ⟨_, exec_mclkfWrite s st h, ?_⟩
    rw [mclkfWrite_eq]
    exact ⟨getStack_setStack_self .., rfl, rfl⟩
  case clock => exact exec_clockChange s st
  case rbctl =>
    obtain ⟨hfree, hheld⟩ := rbctlWrite_off hb hin hv
    exact ⟨_, exec_rbctlWrite s c h, rbctlWrite_rbreq s c v, rbctlWrite_mem s c v, hfree, hheld⟩
  case early => rw [exec_bankTransitionDone, bankDone_early hw he]
  case woken =>
    refine ⟨_, exec_bankTransitionDone s c b, ?_⟩
    rw [bankDone_woken hw]
    exact ⟨bankSt_setBankSt_self s c hb (by decide), bankMoves_setBankSt s c b 0, setBankSt_frame s c b 0⟩
  case ended =>
    have hto : (if bankReq (getCore s c) b = 0 then 0 else 1) < 4 := by split <;> decide
    refine ⟨_, exec_bankTransitionDone s c b, ?_⟩
    rw [bankDone_ended hw he hn]
    exact ⟨bankSt_setBankSt_self s c hb hto, rbend_setBankSt .., fun a ha hab => bankSt_setBankSt_ne s c ha hto hab, setBankSt_frame ..⟩

end Sys2Proof.Machine
end

section
/-! SUPPORT. Proofs about the abort and the split of tasks whose allowance has run out, and about the pre-emption for a task that has waited
(R218, R226 to R228, R231, R323). -/

namespace Sys2Proof.Machine

/-! ### Completion nodes (R231) -/

/-- `t` is `s` but for memory, the dies, the links, the monitors of contexts, the completion nodes and the events raised. -/
structure NodeFrame (s t : State) : Prop where
  package : { t with mem := s.mem, dies := s.dies, links := s.links, cores := s.cores, serai := s.serai } = s
  serai : { t.serai with nodes := s.serai.nodes, raised := s.serai.raised } = s.serai
  ctx : ∀ c x, { getCtx t c x with mon := (getCtx s c x).mon } = getCtx s c x

theorem NodeFrame.refl (s : State) : NodeFrame s s := ⟨rfl, rfl, fun _ _ => rfl⟩

theorem NodeFrame.trans {s t u : State} (h : NodeFrame s t) (h' : NodeFrame t u) : NodeFrame s u where
  package := (congrArg (fun v : State => { v with mem := s.mem, dies := s.dies, links := s.links, cores := s.cores, serai := s.serai })
    h'.package).trans h.package
  serai := (congrArg (fun v : Serai => { v with nodes := s.serai.nodes, raised := s.serai.raised }) h'.serai).trans h.serai
  ctx c x := (congrArg (fun k : Ctx => { k with mon := (getCtx s c x).mon }) (h'.ctx c x)).trans (h.ctx c x)

theorem EngineFrame.nodes {s t : State} (h : EngineFrame s t) : NodeFrame s t where
  package := (congrArg (fun v : State => { v with serai := s.serai }) h.package :)
  serai := by rw [h.serai]
  ctx := h.ctx

theorem NodeFrame.tasks {s t : State} (h : NodeFrame s t) : t.serai.tasks = s.serai.tasks := (congrArg Serai.tasks h.serai :)

theorem NodeFrame.ctx_field {α : Type} {s t : State} (h : NodeFrame s t) (f : Ctx → α) (hf : ∀ k m, f { k with mon := m } = f k)
    (c x : Nat) : f (getCtx t c x) = f (getCtx s c x) :=
  (hf _ _).symm.trans (congrArg f (h.ctx c x))

theorem nodeOut_frame (s : State) (m : Manifest) (c l : Nat) : NodeFrame s (nodeOut s m c l) := by
  unfold nodeOut
  split
  · dsimp only
    split
    · have hset (u : State) (n : Tab Nat) : NodeFrame u (setSerai u fun r => { r with nodes := n }) := ⟨rfl, rfl, fun _ _ => rfl⟩
      have hevent (u : State) (p : List Word) : NodeFrame u (event u 0x0D p) := ⟨rfl, rfl, fun _ _ => rfl⟩
      split
      · exact (hset ..).trans ((writeBackPackage_frame _).nodes.trans (hevent ..))
      · exact (hset ..).trans (hevent ..)
    · exact ⟨rfl, rfl, fun _ _ => rfl⟩
  · exact .refl s

/-- A placement that leaves its nodes may write lines back and raise events. -/
theorem nodesOut_frame (s : State) (m : Manifest) (c l : Nat) : NodeFrame s (nodesOut s m c l) := by
  induction l with
  | zero => exact .refl s
  | succ l ih => exact ih.trans (nodeOut_frame ..)

/-! ### Atomics of an aborted task that still perform (R227) -/

/-- A byte of the on-chip levels is written for no shadow and in no cache. -/
theorem writeAt_onChip_frame (s : State) (c sc : Nat) {a : Nat} (v : Byte) (h : hbmTop ≤ a ∧ a < 2 ^ 49) : EngineFrame s (writeAt s c sc a v) := by
  have hlow : a < shadowTop := lt_trans h.2 (by decide)
  simp only [writeAt, makeShadow, if_pos hlow]
  rw [writePlace, if_pos h.1]
  exact (writeDepot_frame ..).trans (markDirty_frame ..)

theorem writeCellsAt_onChip_frame (s : State) (c sc : Nat) {l : List (Nat × Byte)} (h : ∀ w ∈ l, hbmTop ≤ w.1 ∧ w.1 < 2 ^ 49) :
    EngineFrame s (writeCellsAt s c sc l) := by
  induction l generalizing s with
  | nil => exact .refl s
  | cons w r ih =>
    obtain ⟨hw, hr⟩ := List.forall_mem_cons.mp h
    exact (writeAt_onChip_frame s c sc w.2 hw).trans (ih _ hr)

theorem mem_of_mem_cellsAt {l : List Nat} {v : Nat} {w : Nat × Byte} (h : w ∈ cellsAt l v) : w.1 ∈ l := by
  induction l generalizing v with
  | nil => cases h
  | cons a r ih =>
    rcases List.mem_cons.mp h with rfl | h
    · exact List.mem_cons_self ..
    · exact List.mem_cons_of_mem _ (ih h)

theorem atomicLane_onChip_frame (s : State) (c : Nat) (l : LongLoad) (op : AtomicOp) {p : LoadPart}
    (h : ∀ a ∈ p.addrs, hbmTop ≤ a ∧ a < 2 ^ 49) : EngineFrame s (atomicLane s c l op p).1 := by
  have hcells (v : Nat) : ∀ w ∈ cellsAt p.addrs v, hbmTop ≤ w.1 ∧ w.1 < 2 ^ 49 := fun w hw => h _ (mem_of_mem_cellsAt hw)
  unfold atomicLane
  split
  · exact .refl s
  case h_2 a as ha =>
    obtain ⟨hlo, hhi⟩ := h a (ha ▸ List.mem_cons_self ..)
    have hnear : (decide (a < hbmTop) || decide (shadowTop ≤ a)) = false := by
      have hshadow : a < shadowTop := lt_trans hhi (by decide)
      rw [decide_eq_false (not_lt.mpr hlo), decide_eq_false (not_le.mpr hshadow), Bool.or_false]
    simp only [hnear, Bool.and_false, Bool.false_and, Bool.false_eq_true, if_false]
    split
    · exact writeCellsAt_onChip_frame _ _ _ (ha ▸ hcells _)
    · exact .refl s

theorem atomicLanes_onChip_frame (s : State) (c : Nat) (l : LongLoad) (op : AtomicOp) {ps : List LoadPart}
    (h : ∀ p ∈ ps, ∀ a ∈ p.addrs, hbmTop ≤ a ∧ a < 2 ^ 49) : EngineFrame s (atomicLanes s c l op ps).1 := by
  induction ps generalizing s with
  | nil => exact .refl s
  | cons p r ih =>
    obtain ⟨hp, hr⟩ := List.forall_mem_cons.mp h
    exact (atomicLane_onChip_frame s c l op hp).trans (ih _ hr)

theorem performOnChip_frame (s : State) (c : Nat) (l : List LongLoad) : EngineFrame s (performOnChip s c l) := by
  induction l generalizing s with
  | nil => exact .refl s
  | cons q r ih =>
    unfold performOnChip
    split
    · refine EngineFrame.trans ?_ (ih _)
      split
      · refine atomicLanes_onChip_frame _ _ _ _ fun p hp a ha => ?_
        have hall := List.all_eq_true.mp (List.mem_filter.mp hp).2 a ha
        simpa using hall
      · exact .refl s
    · exact ih _

/-! ### The abort of a task (R226, R227, Table 9.9) -/

/-- A task that has been aborted: it has no frames of its own, and is counted in no node. -/
def abortedTask (t : Task) : Task := { t with st := .waiting, shadows := [], spares := [], inNode := false }

/-- The state in which an aborted task has left its nodes. -/
def nodesLeft (s : State) (t : Task) : State :=
  match manifestOf s t.seq with
  | some m => if t.inNode then nodesOut s m t.core m.levels.length else s
  | none => s

/-- The state in which what context `x` of core `c` still had under way has ended; from 4 on it is a saved context (R227). -/
def runEnded (s : State) (c x : Nat) : State :=
  forgetRun (freeFrames (performOnChip s c (getAny s c x).loads) ((getAny s c x).outFrames.map fun o => (o.key, o.frame))) c (getAny s c x).run

/-- The state in which the context of an aborted task is free, or its image slot. -/
def placeLeft (s : State) (c x : Nat) : State :=
  if x < 4 then
    setCtx (vacate (dropSave (runEnded s c x) c x) c x) c x (twinCleared (getCtx (vacate (dropSave (runEnded s c x) c x) c x) c x))
  else setSerai (licWithdraw (freeParkedLicence (dropParked (runEnded s c x) c x) c x) c x) fun r => { r with images := r.images.erase (x - 4) }

/-- The state in which an aborted task stands nowhere. -/
def contextLeft (s : State) (t : Task) : State :=
  match whereIs t with
  | none => s
  | some (c, x) => placeLeft s c x

/-- The state in which the table lists a task as aborted. -/
def listAborted (s : State) (e : Nat) : State :=
  match getTask s e with
  | none => s
  | some t => putTask s e (abortedTask t)

theorem abortTask_eq {s : State} {e : Nat} {t : Task} (h : getTask s e = some t) :
    abortTask s e = listAborted (contextLeft (nodesLeft (orphanRequests (dropShadows s e) e) t) t) e := by
  rw [abortTask, h]
  rfl

theorem dropShadows_task {s : State} {e : Nat} {t : Task} (h : getTask s e = some t) :
    getTask (dropShadows s e) e = some { t with shadows := [], spares := [] } := by
  rw [dropShadows, h]
  exact getTask_putTask_self ..

theorem nodesLeft_tasks (s : State) (t : Task) : (nodesLeft s t).serai.tasks = s.serai.tasks := by
  unfold nodesLeft
  split
  · split
    · exact (nodesOut_frame ..).tasks
    · rfl
  · rfl

theorem forgetRun_serai (s : State) (c r : Nat) : (forgetRun s c r).serai = s.serai := by
  unfold forgetRun
  split <;> rfl

theorem runEnded_tasks (s : State) (c x : Nat) : (runEnded s c x).serai.tasks = s.serai.tasks := by
  rw [runEnded, forgetRun_serai, (freeFrames_reads ..).1, (performOnChip_frame ..).serai]

theorem placeLeft_tasks (s : State) (c x : Nat) : (placeLeft s c x).serai.tasks = s.serai.tasks := by
  refine Eq.trans ?_ (runEnded_tasks s c x)
  unfold placeLeft
  split
  · rw [setCtx_serai, (vacate_tables ..).serai]
    rfl
  · have hleft := (dropParked_tables (runEnded s c x) c x).trans ((freeParkedLicence_tables _ c x).trans (licWithdraw_tables _ c x))
    rw [setSerai, hleft.serai]

theorem contextLeft_tasks (s : State) (t : Task) : (contextLeft s t).serai.tasks = s.serai.tasks := by
  unfold contextLeft
  split
  · rfl
  · exact placeLeft_tasks ..

/-- An aborted task stays in its entry, without its frames and its place. -/
theorem getTask_abortTask {s : State} {e : Nat} {t : Task} (h : getTask s e = some t) : getTask (abortTask s e) e = some (abortedTask t) := by
  have hleft : getTask (contextLeft (nodesLeft (orphanRequests (dropShadows s e) e) t) t) e = some { t with shadows := [], spares := [] } := by
    rw [getTask, contextLeft_tasks, nodesLeft_tasks]
    exact dropShadows_task h
  rw [abortTask_eq h, listAborted, hleft]
  exact getTask_putTask_self ..

/-! ### A split (R223, R228) -/

theorem getTask_congr {s t : State} (h : t.serai.tasks = s.serai.tasks) (e : Nat) : getTask t e = getTask s e := by rw [getTask, getTask, h]

/-- The search for an unused number finds one, or every number it has tried is in use. -/
theorem freeKey_unused (s : State) (f n : Nat) : getTask s (freeKey s f n) = none ∨ ∀ i < f, (getTask s (n + i)).isSome = true := by
  induction f generalizing n with
  | zero => exact Or.inr fun i hi => absurd hi (Nat.not_lt_zero i)
  | succ f ih =>
    rw [freeKey]
    split
    case isTrue hn =>
      refine (ih (n + 1)).imp id fun hall i hi => ?_
      cases i with
      | zero => exact hn
      | succ i =>
        rw [← Nat.add_assoc, Nat.add_right_comm]
        exact hall i (Nat.lt_of_succ_lt_succ hi)
    case isFalse hn => exact Or.inl (Option.not_isSome_iff_eq_none.mp hn)

/-- The table lists fewer tasks than numbers are tried, so the upper child's entry is a free one (R223). -/
theorem getTask_childEntry (s : State) : getTask s (childEntry s) = none := by
  refine (freeKey_unused s _ 0).resolve_right fun hall => ?_
  have hsub : List.range (s.serai.tasks.cells.length + 1) ⊆ s.serai.tasks.cells.map Prod.fst := fun i hi => by
    obtain ⟨t, ht⟩ := Option.isSome_iff_exists.mp (hall i (List.mem_range.mp hi))
    rw [Nat.zero_add] at ht
    exact List.mem_map_of_mem (f := Prod.fst) (mem_of_findCell ht)
  have hlen := (List.nodup_range.subperm hsub).length_le
  rw [List.length_range, List.length_map] at hlen
  omega

/-- The entries of the two halves. -/
theorem halve_tasks (s : State) (e : Nat) (t : Task) (a el : Nat) : (halve s e t a el).2 ≠ e ∧
    getTask (halve s e t a el).1 e = some (lowerHalf t a el) ∧ getTask (halve s e t a el).1 (halve s e t a el).2 = some (upperHalf t a el) := by
  have hne : (halve s e t a el).2 ≠ e := fun heq => by
    have hfree : getTask (putTask s e (lowerHalf t a el)) (halve s e t a el).2 = none := getTask_childEntry _
    rw [heq, getTask_putTask_self] at hfree
    cases hfree
  have htasks : (halve s e t a el).1.serai.tasks =
      (putTask (putTask s e (lowerHalf t a el)) (halve s e t a el).2 (upperHalf t a el)).serai.tasks := by
    unfold halve
    dsimp only
    split <;> split <;> rfl
  rw [getTask_congr htasks, getTask_congr htasks, getTask_putTask_ne _ _ hne.symm, getTask_putTask_self, getTask_putTask_self]
  exact ⟨hne, rfl, rfl⟩

theorem queueChild_readyFrame (s : State) (e k : Nat) (m : Manifest) : ReadyFrame s (queueChild s e k m) := by
  unfold queueChild
  split
  · exact .refl s
  case h_2 t ht =>
    split
    · exact putTask_readyFrame ht rfl
    · exact queueOn_readyFrame _ _ ht

/-- A task after the queues have been changed is the same but for its place in them. -/
theorem ReadyFrame.task_of_some {s t : State} {e : Nat} {p : Task} (h : ReadyFrame s t) (hp : getTask s e = some p) :
    ∃ q, getTask t e = some q ∧ q.unqueued = p.unqueued :=
  Option.map_eq_some_iff.mp ((h.task e).trans (by rw [hp, Option.map_some]))

theorem splitPlain_eq {s : State} {e : Nat} {t : Task} {m : Manifest} {a : Nat} (hd : t.depth ≠ 255)
    (hw : widest m t (splitCands m t) = some a) : splitPlain s e t m =
      let h := halve s e t a (lowerExtent (axisExtent t a) (axisGrain m a))
      queueChild (queueChild h.1 e t.stack m) h.2 t.stack m := by
  rw [splitPlain, if_neg hd, hw]

/-- The halves of a task that belongs to no caravan, but for their place in the queues. -/
theorem splitPlain_tasks {s : State} {e : Nat} {t : Task} {m : Manifest} {a : Nat} (hd : t.depth ≠ 255)
    (hw : widest m t (splitCands m t) = some a) : let el := lowerExtent (axisExtent t a) (axisGrain m a)
      ∃ f p q, f ≠ e ∧ getTask (splitPlain s e t m) e = some p ∧ getTask (splitPlain s e t m) f = some q ∧
        p.unqueued = (lowerHalf t a el).unqueued ∧ q.unqueued = (upperHalf t a el).unqueued := by
  intro el
  obtain ⟨hne, hlow, hup⟩ := halve_tasks s e t a el
  have hq := (queueChild_readyFrame (halve s e t a el).1 e t.stack m).trans (queueChild_readyFrame _ (halve s e t a el).2 t.stack m)
  obtain ⟨p, hp, hpl⟩ := hq.task_of_some hlow
  obtain ⟨q, hq, hqu⟩ := hq.task_of_some hup
  rw [splitPlain_eq hd hw]
  exact ⟨_, p, q, hne, hp, hq, hpl, hqu⟩

/-- The axis of a split is chosen by the domain, which an abort keeps. -/
theorem widest_abortedTask (m : Manifest) (t : Task) (l : List Nat) : widest m (abortedTask t) l = widest m t l := by
  induction l with
  | nil => rfl
  | cons a r ih =>
    rw [widest, ih, widest]
    rfl

theorem abortAndSplit_plain {s : State} {e : Nat} {t : Task} {m : Manifest} (ht : getTask s e = some t)
    (hm : manifestOf s t.seq = some m) (hcar : t.car = none) : abortAndSplit s e = splitPlain (abortTask s e) e (abortedTask t) m := by
  simp only [abortAndSplit, ht, hm, hcar, getTask_abortTask ht]

/-! ### The end of an allowance (R218, R226) -/

theorem exec_allowExpiry (s : State) (c x : Nat) : exec (.allowExpiry c x) s = .next (allowExpired s c x) := rfl

theorem allowExpired_of_not {s : State} {c x : Nat} (h : allowOut s c x = false) : allowExpired s c x = s := by
  rw [allowExpired, h]
  rfl

section
variable {s : State} {c x e : Nat} {t : Task} (h : allowOut s c x = true) (hk : (getCtx s c x).task = some e) (ht : getTask s e = some t)
include h hk ht

theorem allowExpired_fixed (hf : t.fixed = true) :
    allowExpired s c x = takeTrap s c x ⟨0x0F, 0, false, Config.freeInfo s.fresh, (getCtx s c x).pc⟩ := by
  simp only [allowExpired, h, ctxTask, hk, ht, hf, Bool.not_true, Bool.false_eq_true, if_false, if_true]

theorem allowExpired_divisible (hf : t.fixed = false) : allowExpired s c x = abortAndSplit s e := by
  simp only [allowExpired, h, ctxTask, hk, ht, hf, Bool.not_true, Bool.false_eq_true, if_false]

end

/-! ### Priority pre-emption (R323) -/

theorem exec_prewaitExpiry (s : State) (cl : Nat) : exec (.prewaitExpiry cl) s = .next (prewaitExpired s cl) := rfl

theorem prewaitExpired_none {s : State} {cl : Nat} (h : prewaitVictim s cl = none) : prewaitExpired s cl = s := by rw [prewaitExpired, h]

theorem prewaitExpired_some {s : State} {cl : Nat} {v : Task} (h : prewaitVictim s cl = some v) :
    prewaitExpired s cl = askPreempt s v.core v.x := by rw [prewaitExpired, h]

theorem eq_nil_of_victim_none {l : List Task} (h : victim l = none) : l = [] := by
  cases l with
  | nil => rfl
  | cons t r =>
    unfold victim at h
    split at h
    · cases h
    · split at h <;> cases h

/-- The choice is one of the tasks, and none of them has a lower priority. -/
theorem victim_spec {l : List Task} {v : Task} (h : victim l = some v) : v ∈ l ∧ ∀ u ∈ l, v.prio ≤ u.prio := by
  induction l generalizing v with
  | nil => cases h
  | cons t r ih =>
    unfold victim at h
    split at h
    case h_1 hr =>
      obtain rfl := Option.some.inj h
      rw [eq_nil_of_victim_none hr]
      exact ⟨List.mem_singleton_self _, fun u hu => (congrArg Task.prio (List.mem_singleton.mp hu)).ge⟩
    case h_2 u hu =>
      obtain ⟨hmem, hmin⟩ := ih hu
      split at h
      case isTrue hlow =>
        cases h
        refine ⟨List.mem_cons_of_mem _ hmem, List.forall_mem_cons.mpr ⟨?_, hmin⟩⟩
        omega
      case isFalse hlow =>
        cases h
        refine ⟨List.mem_cons_self .., List.forall_mem_cons.mpr ⟨le_rfl, fun w hw => ?_⟩⟩
        have := hmin w hw
        omega

theorem mem_victims {s : State} {cl : Nat} {v : Task} (h : v ∈ victims s cl) :
    v.st = .placed ∧ clusterOf v.core = cl ∧ preemptable s v.core v.x = true := by
  obtain ⟨e, he, rfl⟩ := List.mem_map.mp h
  have hin := (List.mem_filter.mp he).2
  simpa [and_assoc] using hin

/-- What the rule's choice says of the task chosen and of the one that has waited. -/
theorem prewaitVictim_some {s : State} {cl : Nat} {v : Task} (h : prewaitVictim s cl = some v) : s.pkg.prewait ≠ 0 ∧
    victim (victims s cl) = some v ∧ ∃ e ∈ s.serai.tasks.cells, hasWaited s cl e.2 = true ∧ v.prio < e.2.prio := by
  unfold prewaitVictim at h
  split at h
  · cases h
  case isFalse hgo =>
    split at h
    · cases h
    case h_2 w hw =>
      split at h
      case isTrue hany =>
        cases h
        obtain ⟨e, he, hwait⟩ := List.any_eq_true.mp hany
        rw [Bool.and_eq_true, decide_eq_true_eq] at hwait
        exact ⟨fun h0 => hgo (Or.inl h0), hw, e, he, hwait⟩
      · cases h

theorem since_of_hasWaited {s : State} {cl : Nat} {t : Task} (h : hasWaited s cl t = true) : t.since + s.pkg.prewait.toNat ≤ s.now := by
  simp only [hasWaited, Bool.and_eq_true, decide_eq_true_eq] at h
  obtain ⟨⟨⟨-, hsince⟩, -⟩, -⟩ := h
  exact hsince

/-- A context that can be pre-empted has been asked to stop, and nothing else has changed. -/
theorem askPreempt_spec {s : State} {c x : Nat} (h : preemptable s c x = true) : (getCtx (askPreempt s c x) c x).preempting.isSome = true ∧
    { askPreempt s c x with cores := s.cores } = s ∧ ∀ d y, (getCtx (askPreempt s c x) d y).live = (getCtx s d y).live ∧
      (getCtx (askPreempt s c x) d y).status = (getCtx s d y).status := by
  unfold askPreempt
  rw [h, Bool.true_and]
  split
  · rw [getCtx_setCtx_self]
    refine ⟨rfl, rfl, fun d y => ⟨?_, ?_⟩⟩
    · exact getCtx_setCtx_field (k := { getCtx s c x with preempting := some s.now }) Ctx.live rfl d y
    · exact getCtx_setCtx_field (k := { getCtx s c x with preempting := some s.now }) Ctx.status rfl d y
  case isFalse hasked =>
    refine ⟨?_, rfl, fun _ _ => ⟨rfl, rfl⟩⟩
    exact Option.isSome_iff_ne_none.mpr fun hnone => hasked (Option.isNone_iff_eq_none.mpr hnone)

/-- Settles O41: the abort leaves the task's domain to its halves, and the rule's choice is the least of the tasks it can stop. -/
theorem allowanceEnds : Obligations.AllowanceEnds := by
  unfold Obligations.AllowanceEnds
  refine ⟨fun s c x => ⟨fun h => ?notOut, fun e t h hk ht => ⟨fun hf => ?fixed, fun m a hf hcar hm hd hw => ?splits⟩⟩,
    fun s cl => ⟨fun h => ?nobody, fun v h => ?preempts⟩⟩
  case notOut => rw [exec_allowExpiry, allowExpired_of_not h]
  case fixed => rw [exec_allowExpiry, allowExpired_fixed h hk ht hf]
  case splits =>
    obtain ⟨f, p, q, hne, hp, hq, hpl, hqu⟩ := splitPlain_tasks (s := abortTask s e) (e := e) (t := abortedTask t) hd
      ((widest_abortedTask ..).trans hw)
    rw [exec_allowExpiry, allowExpired_divisible h hk ht hf, abortAndSplit_plain ht hm hcar]
    exact ⟨_, f, p, q, rfl, hne, hp, hq, (congrArg Task.lo hpl :), (congrArg Task.hi hpl :), (congrArg Task.lo hqu :), (congrArg Task.hi hqu :),
      (congrArg Task.depth hpl :), (congrArg Task.depth hqu :), (congrArg Task.index hpl :), (congrArg Task.index hqu :),
      (congrArg Task.seq hpl :), (congrArg Task.seq hqu :), (congrArg Task.shadows hpl :), (congrArg Task.shadows hqu :)⟩
  case nobody => rw [exec_prewaitExpiry, prewaitExpired_none h]
  case preempts =>
    obtain ⟨hon, hv, e, he, hwait, hprio⟩ := prewaitVictim_some h
    obtain ⟨hmem, hmin⟩ := victim_spec hv
    obtain ⟨hst, hcl, hpre⟩ := mem_victims hmem
    rw [exec_prewaitExpiry, prewaitExpired_some h]
    exact ⟨hst, hcl, hon, hmin, ⟨e, he, hprio, since_of_hasWaited hwait⟩, _, rfl, askPreempt_spec hpre⟩

end Sys2Proof.Machine
end

section
/-! SUPPORT. Proofs about the placement of tasks (R208, R224, R225, R231, Table 2.2) and about the clearing of a die for a process (R235). -/

namespace Sys2Proof.Machine

/-! ### What must come before a placement (R208, R224, R235) -/

theorem exec_taskPlacement (s : State) (e c x : Nat) : exec (.taskPlacement e c x) s = .next (placeTask s e c x) := rfl

theorem isMgmt_of_placeable {s : State} {t : Task} {m : Manifest} {c x : Nat} (h : placeable s t m c x = true) : isMgmt c = false := by
  simp only [placeable, Bool.and_eq_true, Bool.not_eq_true'] at h
  tauto

theorem status_of_placeable {s : State} {t : Task} {m : Manifest} {c x : Nat} (h : placeable s t m c x = true) :
    (getCtx s c x).status = .free := by
  simp only [placeable, Bool.and_eq_true, beq_iff_eq] at h
  tauto

theorem coreReady_clears {s : State} {c pid : Nat} (n : Nat) (hc : isMgmt c = false) (hpass : mayPass s 16 (dieOf c) = true)
    (hdie : dieReady s (dieOf c) pid = false) (hclear : (getDie s (dieOf c)).clearing = none) :
    coreReady s c pid n = (startClear s (dieOf c) pid, false) := by
  simp only [coreReady, coreEnd, hc, hpass, hdie, hclear, Bool.false_eq_true, if_false, Bool.not_true, Bool.or_false, Option.isNone_none, if_true]

/-- A task as it stands on context `x` of core `c`. -/
def placedTask (s : State) (t : Task) (c x : Nat) : Task :=
  { t with st := .placed, core := c, x := x, since := s.now, order := s.serai.order, inNode := true }

theorem nodesIn_spec (s : State) (m : Manifest) (c l : Nat) : { nodesIn s m c l with serai := s.serai } = s ∧
    { (nodesIn s m c l).serai with nodes := s.serai.nodes } = s.serai := by
  induction l with
  | zero => exact ⟨rfl, rfl⟩
  | succ l ih =>
    obtain ⟨hpackage, hserai⟩ := ih
    rw [nodesIn]
    unfold nodeIn
    split <;> exact ⟨hpackage, hserai⟩

/-- A task that reaches a context changes the Serai alone, and no image of it. -/
theorem reachContext_spec (s : State) (e : Nat) (t : Task) (m : Manifest) (c x : Nat) :
    { reachContext s e t m c x with serai := s.serai } = s ∧ (reachContext s e t m c x).serai.images = s.serai.images ∧
      getTask (reachContext s e t m c x) e = some (placedTask s t c x) := by
  have hbase : ∃ u : State, reachContext s e t m c x = nodesIn (putTask u e (placedTask s t c x)) m c m.levels.length ∧
      { u with serai := s.serai } = s ∧ u.serai.images = s.serai.images := by
    unfold reachContext
    dsimp only
    split
    · exact ⟨_, rfl, rfl, rfl⟩
    · exact ⟨_, rfl, rfl, rfl⟩
  obtain ⟨u, hreach, hpackage, himages⟩ := hbase
  obtain ⟨hpack, hserai⟩ := nodesIn_spec (putTask u e (placedTask s t c x)) m c m.levels.length
  rw [hreach]
  refine ⟨?_, ?_, ?_⟩
  · exact (congrArg (fun v : State => { v with serai := s.serai }) hpack).trans hpackage
  · exact (congrArg Serai.images hserai :).trans himages
  · rw [getTask_congr (congrArg Serai.tasks hserai :), getTask_putTask_self]

theorem reachContext_reads (s : State) (e : Nat) (t : Task) (m : Manifest) (c x : Nat) : (reachContext s e t m c x).cores = s.cores ∧
    (reachContext s e t m c x).procs = s.procs ∧ (reachContext s e t m c x).mem = s.mem ∧ (reachContext s e t m c x).now = s.now := by
  obtain ⟨hpackage, -, -⟩ := reachContext_spec s e t m c x
  exact ⟨(congrArg State.cores hpackage :), (congrArg State.procs hpackage :), (congrArg State.mem hpackage :), (congrArg State.now hpackage :)⟩

section
variable {s : State} {e c x : Nat} {t : Task} {m : Manifest} (ht : getTask s e = some t) (hm : manifestOf s t.seq = some m)
include ht hm

theorem placeTask_waits (h : placeable s t m c x = false ∨ firstInLine s t c x = false) : placeTask s e c x = s := by
  have hno : (!placeable s t m c x || !firstInLine s t c x) = true := by
    rcases h with h | h
    · rw [h, Bool.not_false, Bool.true_or]
    · rw [h, Bool.not_false, Bool.or_true]
  simp only [placeTask, ht, hm, hno, if_true]

theorem placeTask_prepares {u : State} (hp : placeable s t m c x = true) (hf : firstInLine s t c x = true)
    (h : coreReady s c t.pid m.vregs = (u, false)) : placeTask s e c x = u := by
  simp only [placeTask, ht, hm, hp, hf, h, Bool.not_true, Bool.or_self, Bool.false_eq_true, if_false, Bool.not_false, if_true]

theorem placeTask_reaches {base : Nat} (hp : placeable s t m c x = true) (hf : firstInLine s t c x = true)
    (h : coreReady s c t.pid m.vregs = (s, true)) (hregs : findRegs s c m.vregs = some base) :
    placeTask s e c x = setUpClaims (reachContext s e t m c x) e (placedTask s t c x) m c x base := by
  obtain ⟨-, -, hplaced⟩ := reachContext_spec s e t m c x
  simp only [placeTask, ht, hm, hp, hf, h, hregs, hplaced, Bool.not_true, Bool.or_self, Bool.false_eq_true, if_false]

end

/-! ### The room that other claims leave (R225, R234) -/

theorem claimants_congr {s t : State} (hc : t.cores = s.cores) (hi : t.serai.images = s.serai.images) (c x : Nat) :
    claimants t c x = claimants s c x := by
  simp only [claimants, getCtx, getCore, imagesOn, slotsOn, hc, hi]

theorem freeTileStore_congr {s t : State} (hc : t.cores = s.cores) (hi : t.serai.images = s.serai.images) (c x : Nat) :
    freeTileStore t c x = freeTileStore s c x := by
  rw [freeTileStore, freeTileStore, claimants_congr hc hi]

theorem sliceWindow_congr {s t : State} (hc : t.cores = s.cores) (hi : t.serai.images = s.serai.images) (c x n : Nat) :
    sliceWindow t c x n = sliceWindow s c x n := by
  simp only [sliceWindow, sliceFree, claimants_congr hc hi]

/-! ### The registers at task start (R39, R225, Table 2.2) -/

/-- Registers from a list stand one after the other. -/
theorem get_putRegs (g : Tab Word) (n : Nat) (l : List Nat) (j : Nat) :
    (putRegs g n l).get 0 j = if n ≤ j ∧ j < n + l.length then BitVec.ofNat 64 (l.getD (j - n) 0) else g.get 0 j := by
  induction l generalizing g n with
  | nil => rw [putRegs, if_neg (by simp only [List.length_nil]; omega)]
  | cons v r ih =>
    rw [putRegs, ih, List.length_cons]
    by_cases hj : j = n
    · subst hj
      rw [if_neg (by omega), if_pos (by omega), Tab.get_set_self, Nat.sub_self, List.getD_cons_zero]
    · rw [Tab.get_set_ne _ _ _ _ _ hj]
      by_cases hin : n ≤ j ∧ j < n + (r.length + 1)
      · rw [if_pos (by omega), if_pos hin, show j - n = j - (n + 1) + 1 by omega, List.getD_cons_succ]
      · rw [if_neg (by omega), if_neg hin]

/-- What stands in g4 to g21 at task start: the arguments, the grain box, TASKID and the depth. -/
def startList (m : Manifest) (t : Task) : List Nat := m.args.map (·.toNat) ++ (t.lo ++ (t.hi ++ [(taskidOf t).toNat, t.depth]))

theorem getD_append_at {l r : List Nat} {n : Nat} (h : l.length = n) (i : Nat) : (l ++ r).getD (n + i) 0 = r.getD i 0 := by
  rw [List.getD_append_right _ _ _ _ (by omega), h, Nat.add_sub_cancel_left]

section
variable {m : Manifest} {t : Task} (ha : m.args.length = 8) (hl : t.lo.length = 4) (hh : t.hi.length = 4)
include ha

theorem args_length : (m.args.map (·.toNat)).length = 8 := by rw [List.length_map, ha]

include hl hh

theorem startRegs_g (j : Nat) :
    (startRegs m t).g.get 0 j = if 4 ≤ j ∧ j < 22 then BitVec.ofNat 64 ((startList m t).getD (j - 4) 0) else 0 := by
  have hlen : (startList m t).length = 18 := by
    simp only [startList, List.length_append, List.length_map, List.length_cons, List.length_nil, ha, hl, hh]
  have hget := get_putRegs .empty 4 (startList m t) j
  rw [hlen] at hget
  refine Eq.trans ?_ hget
  rw [startList, ← List.append_assoc, ← List.append_assoc]
  rfl

theorem startRegs_listed {i : Nat} (hi : i < 18) : (startRegs m t).g.get 0 (4 + i) = BitVec.ofNat 64 ((startList m t).getD i 0) := by
  rw [startRegs_g ha hl hh, if_pos (by omega), Nat.add_sub_cancel_left]

theorem startRegs_other {i : Nat} (hi : i < 4 ∨ 22 ≤ i) : (startRegs m t).g.get 0 i = 0 := by
  rw [startRegs_g ha hl hh, if_neg (by omega)]

theorem startRegs_arg {i : Nat} (hi : i < 8) : (startRegs m t).g.get 0 (4 + i) = m.args.getD i 0 := by
  have harg : (m.args.map (·.toNat)).getD i 0 = (m.args.getD i 0).toNat := List.getD_map (f := BitVec.toNat) (d := 0) ..
  rw [startRegs_listed ha hl hh (by omega), startList, List.getD_append _ _ _ _ (by rw [args_length ha]; exact hi), harg, ofNat_toNat_word]

theorem startRegs_lo {i : Nat} (hi : i < 4) : (startRegs m t).g.get 0 (12 + i) = BitVec.ofNat 64 (t.lo.getD i 0) := by
  rw [show 12 + i = 4 + (8 + i) by omega, startRegs_listed ha hl hh (by omega), startList, getD_append_at (args_length ha),
    List.getD_append _ _ _ _ (by omega)]

theorem startRegs_hi {i : Nat} (hi : i < 4) : (startRegs m t).g.get 0 (16 + i) = BitVec.ofNat 64 (t.hi.getD i 0) := by
  rw [show 16 + i = 4 + (8 + (4 + i)) by omega, startRegs_listed ha hl hh (by omega), startList, getD_append_at (args_length ha),
    getD_append_at hl, List.getD_append _ _ _ _ (by omega)]

/-- TASKID and the depth stand behind the grain box. -/
theorem startList_end (i : Nat) : (startList m t).getD (8 + (4 + (4 + i))) 0 = [(taskidOf t).toNat, t.depth].getD i 0 := by
  rw [startList, getD_append_at (args_length ha), getD_append_at hl, getD_append_at hh]

theorem startRegs_taskid : (startRegs m t).g.get 0 20 = taskidOf t :=
  (startRegs_listed ha hl hh (i := 16) (by decide)).trans (by
    rw [startList_end ha hl hh 0, List.getD_cons_zero, ofNat_toNat_word])

theorem startRegs_depth : (startRegs m t).g.get 0 21 = BitVec.ofNat 64 t.depth :=
  (startRegs_listed ha hl hh (i := 17) (by decide)).trans (by
    rw [startList_end ha hl hh 1, List.getD_cons_succ, List.getD_cons_zero])

end

theorem twinCleared_valid (k : Ctx) (i : Nat) : ((twinCleared k).w.get WReg.reset i).valid = false :=
  congrArg WReg.valid (Tab.get_map k.w (fun _ r => { r with valid := false }) WReg.reset i rfl)

/-! ### The start of a task and its return to the queue (R195, R225) -/

theorem zeroArea_service (s : State) (pid : Nat) (r : Option Word) : ServiceFrame s (zeroArea s pid r) := by
  unfold zeroArea
  split
  · exact .refl s
  case h_2 r =>
    have ht := tensorZero_service s pid (refIdx r) true
    split
    case h_1 u p hu =>
      rw [hu] at ht
      exact ht.trans (writeDepots_service ..)
    case h_2 u hu =>
      rw [hu] at ht
      exact ht

/-- The context of a task whose claims fit, where `k` stood before. -/
def startedCtx (s : State) (k : Ctx) (e : Nat) (t : Task) (m : Manifest) (base win : Nat) : Ctx :=
  { startCtx k m t e base (claimOf m.claimts (grainCells m t)) (claimOf m.claimsl (grainCells m t)) win (claimOf m.claimcy (grainCells m t))
      ((areaOf s t.pid e).getD 0) with run := s.fresh + 1 }

/-- The state in which a task has started on context `x` of core `c`. -/
def taskStarted (s : State) (e : Nat) (t : Task) (m : Manifest) (c x base win : Nat) : State :=
  let s1 := zeroArea s t.pid (areaOf s t.pid e)
  let k := startedCtx s (getCtx s1 c x) e t m base win
  carry (setCtx s1 c x k) 16 (coreEnd c) (if t.fixed then .place c x k [] else .plain)

theorem taskStarted_tasks (s : State) (e : Nat) (t : Task) (m : Manifest) (c x base win : Nat) :
    (taskStarted s e t m c x base win).serai.tasks = s.serai.tasks := by
  rw [taskStarted, (carry_tables ..).serai, setCtx_serai]
  exact (congrArg Serai.tasks (zeroArea_service ..).serai :)

theorem taskStarted_ctx (s : State) (e : Nat) (t : Task) (m : Manifest) (c x base win : Nat) :
    ∃ k, getCtx (taskStarted s e t m c x base win) c x = startedCtx s k e t m base win := by
  refine ⟨getCtx (zeroArea s t.pid (areaOf s t.pid e)) c x, Eq.trans ?_ (getCtx_setCtx_self (zeroArea s t.pid (areaOf s t.pid e)) c x _)⟩
  rw [taskStarted, getCtx, getCtx, getCore, getCore, carry_cores]
  rfl

/-- Without a request pool there is no area to be zeroed, and no byte changes (R195). -/
theorem taskStarted_mem_of_no_pool {s : State} {t : Task} (e : Nat) (m : Manifest) (c x base win : Nat) (h : (getProc s t.pid).pool = none) :
    (taskStarted (reachContext s e t m c x) e (placedTask s t c x) m c x base win).mem = s.mem := by
  obtain ⟨-, hprocs, hmem, -⟩ := reachContext_reads s e t m c x
  have harea : areaOf (reachContext s e t m c x) (placedTask s t c x).pid e = none := by
    rw [areaOf, getProc_congr hprocs, show (placedTask s t c x).pid = t.pid from rfl, h, Option.map_none]
  rw [taskStarted, carry_mem, setCtx_mem, harea]
  exact hmem

section
variable {s : State} {t : Task} {m : Manifest} (e : Nat) {c x : Nat} (base : Nat)
    (hts : claimOf m.claimts (grainCells m t) ≤ Config.tileStoreBytes) (hsl : claimOf m.claimsl (grainCells m t) ≤ Config.sliceWords)
include hts hsl

theorem setUpClaims_fits {win : Nat} (hfree : claimOf m.claimts (grainCells m t) ≤ freeTileStore s c x)
    (hwin : (if claimOf m.claimsl (grainCells m t) = 0 then some 0 else sliceWindow s c x (claimOf m.claimsl (grainCells m t))) = some win) :
    setUpClaims s e t m c x base = taskStarted s e t m c x base win := by
  simp only [setUpClaims, not_lt.mpr hts, not_lt.mpr hsl, not_lt.mpr hfree, or_self, if_false, hwin]
  rfl

theorem setUpClaims_waits (hfull : freeTileStore s c x < claimOf m.claimts (grainCells m t) ∨
      (claimOf m.claimsl (grainCells m t) ≠ 0 ∧ sliceWindow s c x (claimOf m.claimsl (grainCells m t)) = none))
    (hturn : t.fixed = true ∨ t.requeues + 1 < 4) : setUpClaims s e t m c x base = requeueTask s e t m c := by
  have hnone : (if freeTileStore s c x < claimOf m.claimts (grainCells m t) then none
      else if claimOf m.claimsl (grainCells m t) = 0 then some 0 else sliceWindow s c x (claimOf m.claimsl (grainCells m t))) = none := by
    split
    · rfl
    case isFalse hroom =>
      obtain ⟨hne, hwin⟩ := hfull.resolve_left hroom
      rw [if_neg hne, hwin]
  simp only [setUpClaims, not_lt.mpr hts, not_lt.mpr hsl, or_self, if_false, hnone, if_pos hturn]

end

/-- A task as it waits in its queue again. -/
def requeuedTask (s : State) (t : Task) : Task :=
  { t with st := .ready, requeues := t.requeues + 1, order := s.serai.order, since := s.now, inNode := false, notBefore := s.now + 1 + nextDelay s }

theorem requeueTask_spec (s : State) (e : Nat) (t : Task) (m : Manifest) (c d y : Nat) :
    getTask (requeueTask s e t m c) e = some (requeuedTask s t) ∧ (getCtx (requeueTask s e t m c) d y).status = (getCtx s d y).status ∧
      (getCtx (requeueTask s e t m c) d y).live = (getCtx s d y).live := by
  have hframe := nodesOut_frame (putTask (setSerai { s with delays := s.delays.drop 1 } fun r => { r with order := s.serai.order + 1 }) e
    (requeuedTask s t)) m c m.levels.length
  rw [requeueTask]
  refine ⟨(getTask_congr hframe.tasks e).trans (getTask_putTask_self ..), ?_, ?_⟩
  · exact hframe.ctx_field Ctx.status (fun _ _ => rfl) d y
  · exact hframe.ctx_field Ctx.live (fun _ _ => rfl) d y

/-! ### The outcome of a placement (R225) -/

section
variable {s : State} {e c x base : Nat} {t : Task} {m : Manifest} (ht : getTask s e = some t) (hm : manifestOf s t.seq = some m)
  (hp : placeable s t m c x = true) (hf : firstInLine s t c x = true) (hready : coreReady s c t.pid m.vregs = (s, true))
  (hregs : findRegs s c m.vregs = some base) (hts : claimOf m.claimts (grainCells m t) ≤ Config.tileStoreBytes)
  (hsl : claimOf m.claimsl (grainCells m t) ≤ Config.sliceWords)
include ht hm hp hf hready hregs hts hsl

theorem placeTask_starts {win : Nat} (hfree : claimOf m.claimts (grainCells m t) ≤ freeTileStore s c x)
    (hwin : (if claimOf m.claimsl (grainCells m t) = 0 then some 0 else sliceWindow s c x (claimOf m.claimsl (grainCells m t))) = some win) :
    placeTask s e c x = taskStarted (reachContext s e t m c x) e (placedTask s t c x) m c x base win := by
  obtain ⟨hcores, -⟩ := reachContext_reads s e t m c x
  obtain ⟨-, himages, -⟩ := reachContext_spec s e t m c x
  rw [← freeTileStore_congr hcores himages] at hfree
  rw [← sliceWindow_congr hcores himages] at hwin
  rw [placeTask_reaches ht hm hp hf hready hregs, setUpClaims_fits (t := placedTask s t c x) e base hts hsl hfree hwin]

theorem placeTask_requeues (hfull : freeTileStore s c x < claimOf m.claimts (grainCells m t) ∨
      (claimOf m.claimsl (grainCells m t) ≠ 0 ∧ sliceWindow s c x (claimOf m.claimsl (grainCells m t)) = none))
    (hturn : t.fixed = true ∨ t.requeues + 1 < 4) :
    placeTask s e c x = requeueTask (reachContext s e t m c x) e (placedTask s t c x) m c := by
  obtain ⟨hcores, -⟩ := reachContext_reads s e t m c x
  obtain ⟨-, himages, -⟩ := reachContext_spec s e t m c x
  rw [← freeTileStore_congr hcores himages, ← sliceWindow_congr hcores himages] at hfull
  rw [placeTask_reaches ht hm hp hf hready hregs, setUpClaims_waits (t := placedTask s t c x) e base hts hsl hfull hturn]

end

/-! ### The clearing of a die (R235, R343) -/

theorem exec_dieClearDone (s : State) (d : Nat) : exec (.dieClearDone d) s = .next (dieCleared s d) := rfl

theorem dieCleared_none {s : State} {d : Nat} (h : (getDie s d).clearing = none) : dieCleared s d = s := by rw [dieCleared, h]

theorem dieCleared_early {s : State} {d p e : Nat} (h : (getDie s d).clearing = some (p, e)) (he : s.now < e) : dieCleared s d = s := by
  rw [dieCleared, h]
  exact if_pos he

/-- A die cleared for process `p`: its checkpoint holds nothing of the old one (log entry 151). -/
def clearedDie (s : State) (d p : Nat) : Die :=
  let gone := ((s.mem.cells.filter fun w => onDie d w.1).map fun w => w.1 / 4096).eraseDups
  let k := freshCkpt s d (dropCapture (getDie s d))
  { k with tag := some p, clearing := none, dirtyBlocks := k.dirtyBlocks ++ gone.filter fun f => !k.dirtyBlocks.contains f }

theorem dieCleared_due {s : State} {d p e : Nat} (h : (getDie s d).clearing = some (p, e)) (he : e ≤ s.now) :
    dieCleared s d = clearCores (setDie { s with mem := ⟨s.mem.cells.filter fun w => !onDie d w.1⟩ } d (clearedDie s d p)) d := by
  rw [dieCleared, h]
  exact if_neg (not_lt.mpr he)

theorem dropCapture_capture (k : Die) : (dropCapture k).capture = none := by
  unfold dropCapture
  split
  · assumption
  · rfl

theorem clearedDie_capture (s : State) (d p : Nat) : (clearedDie s d p).capture = none := dropCapture_capture (getDie s d)

theorem clearedDie_ckpt {s : State} {d p : Nat} {k : Ckpt} (h : (clearedDie s d p).ckpt = some k) :
    k.ctxs = [] ∧ k.map = [] ∧ (clearedDie s d p).log = [] := by
  have hfresh : (freshCkpt s d (dropCapture (getDie s d))).ckpt = some k := h
  obtain ⟨k0, hk0, rfl⟩ := Option.map_eq_some_iff.mp hfresh
  have hsome : (dropCapture (getDie s d)).ckpt.isSome = true := by rw [hk0, Option.isSome_some]
  exact ⟨rfl, rfl, if_pos hsome⟩

/-- With the cells of a die gone its bytes read 0, and every other byte as before. -/
theorem read_without_die (m : Memory) (d a : Nat) :
    Memory.read ⟨m.cells.filter fun w => !onDie d w.1⟩ a = if onDie d a then 0 else m.read a := by
  unfold Memory.read
  split
  case isTrue h =>
    rw [findCell_filter_of_false fun _ => by rw [h, Bool.not_true]]
    rfl
  case isFalse h => rw [findCell_filter_of_true fun _ => by rw [Bool.eq_false_iff.mpr h, Bool.not_false]]

theorem getCore_clearCores (s : State) (d c : Nat) :
    getCore (clearCores s d) c = if dieOf c = d ∧ !isMgmt c then clearMatrix (getCore s c) else getCore s c :=
  Tab.get_map s.cores (fun c k => if dieOf c = d ∧ !isMgmt c then clearMatrix k else k) Core.reset c (by split <;> rfl)

theorem getCore_clearCores_in (s : State) {d c : Nat} (hd : dieOf c = d) (hc : isMgmt c = false) :
    getCore (clearCores s d) c = clearMatrix (getCore s c) := by
  rw [getCore_clearCores, if_pos ⟨hd, by rw [hc, Bool.not_false]⟩]

theorem getCore_clearCores_out (s : State) {d c : Nat} (h : dieOf c ≠ d ∨ isMgmt c = true) : getCore (clearCores s d) c = getCore s c := by
  rw [getCore_clearCores, if_neg]
  rintro ⟨hd, hc⟩
  rcases h with h | h
  · exact h hd
  · rw [h] at hc
    cases hc

/-- Settles O40: a placement by what comes before it and by the room that its claims find, and a clearing by what it leaves of the die. -/
theorem taskPlacements : Obligations.TaskPlacements := by
  unfold Obligations.TaskPlacements
  refine ⟨fun s e c x t m ht hm => ⟨fun h => ?waits, fun hp hf => ⟨fun u hu => ?prepares, fun hpass hdie hclear => ?clears,
    fun base hready hregs => ⟨fun win hts hfree hsl hwin ha hl hh => ?starts, fun hts hsl hfull hturn => ?requeues⟩⟩⟩,
    fun s d => ⟨fun h => ?noClearing, fun p e h => ⟨fun he => ?early, fun he => ?cleared⟩⟩⟩
  case waits => rw [exec_taskPlacement, placeTask_waits ht hm h]
  case prepares => rw [exec_taskPlacement, placeTask_prepares ht hm hp hf hu]
  case clears =>
    rw [exec_taskPlacement, placeTask_prepares ht hm hp hf (coreReady_clears _ (isMgmt_of_placeable hp) hpass hdie hclear)]
    rfl
  case starts =>
    obtain ⟨-, -, hplaced⟩ := reachContext_spec s e t m c x
    obtain ⟨k, hk⟩ := taskStarted_ctx (reachContext s e t m c x) e (placedTask s t c x) m c x base win
    rw [exec_taskPlacement, placeTask_starts ht hm hp hf hready hregs hts hsl hfree hwin]
    refine ⟨_, rfl, (getTask_congr (taskStarted_tasks ..) e).trans hplaced, ?_⟩
    rw [hk]
    exact ⟨rfl, rfl, rfl, rfl, rfl, rfl, rfl, rfl, rfl, rfl, rfl, rfl, rfl, fun i hi => startRegs_arg ha hl hh hi,
      fun i hi => ⟨startRegs_lo ha hl hh hi, startRegs_hi ha hl hh hi⟩, startRegs_taskid ha hl hh, startRegs_depth ha hl hh,
      fun i hi => startRegs_other ha hl hh hi, rfl, rfl, twinCleared_valid k, fun hpool => taskStarted_mem_of_no_pool e m c x base win hpool⟩
  case requeues =>
    rw [exec_taskPlacement, placeTask_requeues ht hm hp hf hready hregs hts hsl hfull hturn]
    obtain ⟨hcores, -, -, hnow⟩ := reachContext_reads s e t m c x
    obtain ⟨htask, hstatus, hlive⟩ := requeueTask_spec (reachContext s e t m c x) e (placedTask s t c x) m c c x
    have hctx : getCtx (reachContext s e t m c x) c x = getCtx s c x := by rw [getCtx, getCtx, getCore, getCore, hcores]
    have hlater : s.now < (reachContext s e t m c x).now + 1 + nextDelay (reachContext s e t m c x) := by omega
    exact ⟨_, _, rfl, htask, rfl, rfl, rfl, rfl, hlater, rfl, by rw [hstatus, hctx, status_of_placeable hp], by rw [hlive, hctx]⟩
  case noClearing => rw [exec_dieClearDone, dieCleared_none h]
  case early => rw [exec_dieClearDone, dieCleared_early h he]
  case cleared =>
    refine ⟨_, exec_dieClearDone s d, ?_⟩
    rw [dieCleared_due h he]
    have hdie : getDie (clearCores (setDie { s with mem := ⟨s.mem.cells.filter fun w => !onDie d w.1⟩ } d (clearedDie s d p)) d) d =
      clearedDie s d p := getDie_setDie_self ..
    rw [hdie]
    refine ⟨rfl, rfl, read_without_die s.mem d, fun c hd hc => ?_, fun c hc => getCore_clearCores_out _ hc, fun k hk => clearedDie_ckpt hk,
      clearedDie_capture s d p, rfl, rfl, rfl⟩
    rw [getCore_clearCores_in _ hd hc]
    exact ⟨rfl, rfl, rfl, rfl, rfl⟩

end Sys2Proof.Machine
end
